-- ==== Sys2Proof/Word.lean ====
section
/-! DEFINITION. The word and map types of the Brixmir model (R7, R49, R51, R139, R234).
Operations on them stand in `Sys2Proof/Machine/Ops.lean`. -/

namespace Sys2Proof

/-- A byte of any store. -/
abbrev Byte := BitVec 8

/-- A 32-bit scalar register or status register (R67, R47). -/
abbrev Word := BitVec 32

/-- A 64-bit register or instruction word (R51, R88). -/
abbrev DWord := BitVec 64

/-- A 128-bit unit: a message unit, a flit or an XA128 entry (R139, R234, R253). -/
abbrev QWord := BitVec 128

/-- A status code (R592). -/
abbrev Code := Nat

/-- A sparse map from numbers, held as a list of pairs with strictly rising keys. -/
abbrev NMap (α : Type) := List (Nat × α)

end Sys2Proof
end

