-- ==== Sys2Proof/Fields.lean ====
section
/-! DEFINITION. The records that commands carry as operands (R19, R89, R116 to R125, R235, R253). -/

namespace Sys2Proof

/-- A logical core, by its logical column and row (R19, R20). -/
structure CoreId where
  x : Nat
  y : Nat
deriving DecidableEq, Repr

/-- The common fields of an instruction word, bits [57:49] (R89). -/
structure Common where
  guardNeg : Bool
  guardIdx : Nat
  sb : Nat
deriving DecidableEq, Repr

/-- The fields of a TMUL word (R116). -/
structure TmulF where
  fmtA : Nat
  fmtB : Nat
  aA : Nat
  aB : Nat
  aS : Nat
  mx : Bool
  bmode : Nat
  grp : Nat
  row : Nat
  rowsM1 : Nat
  sStride : Nat
deriving DecidableEq, Repr

/-- The fields of a TMULS word (R119). -/
structure TmulsF where
  fmtB : Nat
  aA : Nat
  aB : Nat
  aS : Nat
  mx : Bool
  hash : Bool
  grp : Nat
  row : Nat
  budgetM1 : Nat
  sStride : Nat
deriving DecidableEq, Repr

/-- The fields of an ACC.DRAIN word (R121). -/
structure DrainF where
  fmtOut : Nat
  aD : Nat
  aScale : Nat
  aBias : Nat
  scaleMode : Nat
  biasEn : Bool
  act : Nat
  rnd : Nat
  mx : Bool
  grp : Nat
  row : Nat
  rowsM1 : Nat
deriving DecidableEq, Repr

/-- The fields of a VOP word (R123). -/
structure VopF where
  vd : Nat
  va : Nat
  vb : Nat
  vc : Nat
  sB : Nat
  bsel : Bool
  fn : Nat
deriving DecidableEq, Repr

/-- The fields of a SEND word (R125). -/
structure SendF where
  aP : Nat
  sDest : Nat
  queue : Nat
  handler : Nat
  order : Bool
  length : Nat
  sUser : Nat
deriving DecidableEq, Repr

/-- The fields of an active-message header (R253). -/
structure MsgHdr where
  handler : Nat
  gear : Nat
  order : Bool
  length : Nat
  queue : Nat
  incarnation : Nat
  srcX : Nat
  srcY : Nat
  srcDev : Nat
  sequence : Nat
  user : Word
deriving DecidableEq, Repr

/-- A packet head flit, decoded (R235), with the sideband fields of its flits that matter to a router (R234). -/
structure PktHead where
  version : Nat
  vc : Nat
  poison : Nat
  epoch : Nat
  dkind : Nat
  order : Bool
  mcast : Bool
  body : Nat
  dstX : Nat
  dstY : Nat
  x1 : Nat
  y1 : Nat
  dstDev : Nat
  srcX : Nat
  srcY : Nat
  srcDev : Nat
  msgTag : Nat
  pktIdx : Nat
  last : Bool
deriving DecidableEq, Repr

/-- What a reader of error-corrected data found (R188, R225). -/
inductive Ecc where
  | clean
  | corrected
  | uncorrectable
deriving DecidableEq, Repr

/-- The end of one granule of a running DMA command (R325 to R327). -/
inductive GranuleEnd where
  /-- The granule has been moved; the data of a far or host source comes with it (R321). `retries` lists, for each burst that failed link error detection, how often it was retried, and `transient` blocks passed on their re-read (R305, R309). -/
  | moved (remote : List Byte) (retries : List Nat) (transient : Nat)
  /-- The block that holds a byte of the granule, at its source or its destination, failed twice: its check (R309, R326), or every retry of a burst (R305). -/
  | blockFail (at_ : Nat) (write burst : Bool)
  /-- A peer or the host gave no reply (R321). -/
  | remoteTimeout
deriving DecidableEq, Repr

/-- What the pager's reads of a page found: the bytes of a far or host page, the retries of bursts, blocks that passed on their re-read, and the 4 KiB block of the page that failed twice (R305, R308, R309, R317, R319). -/
structure PageData where
  bytes : List Byte
  retries : List Nat
  transient : Nat
  failed : Option Nat
deriving DecidableEq, Repr

/-- A granule's end and the late-arrival cycles it has had (R325, R327). -/
structure GranuleRes where
  ends : GranuleEnd
  late : Nat
deriving DecidableEq, Repr

/-- A requester of a core that loses a cycle to another: 0 scalar, 1 tensor, 2 vector unit (R71, R193, R194). -/
structure Loser where
  core : CoreId
  unit : Nat
deriving DecidableEq, Repr

/-- An input port of a core's packet router: 0 to 3 the links, 4 local, 5 to 8 the outward faces north, east, south and west (R213). -/
structure PktIn where
  core : CoreId
  port : Nat
deriving DecidableEq, Repr

/-- An instruction word that names no instruction: a reserved operation, or, with its common fields, a reserved function of the address operation (R12, R107). -/
structure ReservedWord where
  core : CoreId
  aop : Option Common
deriving DecidableEq, Repr

/-- The end of a cell test (R390): passed, failed at nominal, or failed only in the margin phases, by cores (0 to 3) and phase. -/
inductive TestEnd where
  | pass
  | fail
  | margin (cores : List (Nat × Nat))
deriving DecidableEq, Repr

/-- What the patrol scrubber found in a block (R398). -/
inductive ScrubEnd where
  | good
  | transient
  | lost
deriving DecidableEq, Repr

/-- A frame header of an Alaosh link (R428). `crcOk` says that the frame's CRC-64 passes. -/
structure FrameHdr where
  version : Nat
  kind : Nat
  vc : Nat
  sub : Nat
  released : Bool
  flits : Nat
  seq : Nat
  ack : Nat
  epoch : Nat
  srcDev : Nat
  srcCtx : Nat
  dstCtx : Nat
  step : Nat
  relIdx : Nat
  credit : Nat
  creditVc : Nat
  creditSub : Nat
  poison : Nat
  aux : Nat
  crcOk : Bool
deriving DecidableEq, Repr

/-- An identity record (R432). Digests are the first 256 bits. -/
structure IdentRec where
  version : Nat
  archMajor : Nat
  archMinor : Nat
  majors : Nat
  minor : Nat
  features : Nat
  serial : Nat
  fwDigest : Nat
  cfgDigest : Nat
  epoch : Nat
  device : Nat
  coord : Nat
  link : Nat
  dim : Nat
  dir : Nat
  tTx : Nat
  tEcho : Nat
  tHold : Nat
deriving DecidableEq, Repr

/-- A piece of a relayed DOP fragment, with the hop count of its frame (R445, R518). -/
structure RelayPiece where
  dstDev : Nat
  origin : Nat
  relayId : Nat
  piece : Nat
  piecesM1 : Nat
  hops : Nat
  bytes : List Byte
deriving DecidableEq, Repr

/-- The way by which a DOP message comes (R502): 0 UDP, 1 EtherType, 2 relay, with the client's address or the origin and relay identifier. -/
structure DopPath where
  kind : Nat
  addr : Nat
deriving DecidableEq, Repr

/-- The fields of a DOP operation record that an operation uses (R505). `op` is its operation code, the command's own or a reserved one (R506), `res` the value of its reserved bits. -/
structure OpRec where
  op : Nat
  stage : Bool
  quiesce : Bool
  last : Bool
  cancel : Bool
  res : Nat
  index : Nat
  sub : Nat
  length : Nat
  arg : Nat
  reqId : Nat
deriving DecidableEq, Repr

/-- A UDP datagram as the Ethernet engine sees it (R480, R482). -/
structure Datagram where
  ipv6 : Bool
  fragment : Bool
  src : Nat
  dst : Nat
  srcPort : Nat
  dstPort : Nat
  vlan : Option Nat
  rxTime : Nat
  payload : List Byte
deriving DecidableEq, Repr

end Sys2Proof
end

