-- ==== Sys2Proof/Machine/Types.lean ====
section
/-! DEFINITION. The state of one core: plain data (R47 to R81, R203 to R303). -/

namespace Sys2Proof.Machine

/-- A byte store in canonical form: rising addresses, no listed byte equal to 0, which an unlisted address reads as. -/
abbrev Mem := List Host.Cell

/-! ### The core: registers (R47 to R52, R67) -/

/-- Scalar, predicate, address and vector registers with the cycles from which they are usable (R47, R96). -/
structure Regs where
  s : Vector Word 32
  p : Vector Bool 8
  a : Vector DWord 16
  v : Vector (Vector Word 64) 32
  /-- Register identifier (scalar i, predicate 32 + i, address 48 + i) to the nominal and actual cycle from which it is usable. -/
  ready : NMap (Nat × Nat)
  /-- Vector register to the cycle from which it has been written (R99). -/
  vready : NMap Nat
deriving DecidableEq, Repr

/-- A status register with the layout of exc_code (R67). -/
structure LastStatus where
  code : Code
  unit : Nat
  sb : Nat
  count : Nat
deriving DecidableEq, Repr

/-- core_state.state (R67). -/
inductive CoreRun where
  | idle
  | running
  | atGate
  | stopped
  | scanning
deriving DecidableEq, Repr

/-- Why the scalar unit did not issue the instruction last presented (the model's own record); unit 0 tensor, 1 vector, 2 message, 3 DMA. -/
inductive Stall where
  | guard (unit : Nat)
  | queueFull (unit : Nat)
  | waitq
  | dmaWait
  | unitsBusy (unit : Nat)
  | dmaBusy
  | pairingFull
  | verdictHold
  | verifySet
  | meshBusy
  | holdSpace
  /-- The router has not executed an earlier step cycle (R217, R219). -/
  | routerBehind
deriving DecidableEq, Repr

/-- A suspect result of the current step, for the comparison of a tandem replay (R383, R384). -/
structure SusRec where
  code : Code
  /-- 0 at a command or instruction, 1 issue count, 2 stray beat, 3 gate timer, 4 failed check. -/
  kind : Nat
  /-- The instruction index, gear and unit of a command, the input port and step cycle of a stray, the ordinal of a failed check. -/
  place : Nat
  /-- The issue count of a count deviation, the block of a block check. -/
  detail : Nat
deriving DecidableEq, Repr

/-- A stretch of enabled cycles of a throttled core: from a cycle up to another, at a level, from a place in the groups of 16 (R565). -/
structure Hold where
  first : Nat
  past : Nat
  level : Nat
  place : Nat
deriving DecidableEq, Repr

/-- The core status registers of R67 and what they are made from. -/
structure CoreStat where
  run : CoreRun
  gear : Nat
  clean : Bool
  programError : Bool
  hardFault : Bool
  throttled : Bool
  stepNo : Nat
  issue : Nat
  late : Nat
  throttle : Nat
  exc : LastStatus
  excWhere : Nat
  excDetail0 : Nat
  excDetail1 : Nat
  last : Vector LastStatus 4
  sp : Vector Bool 4
  prevIssue : Nat
  prevLate : Nat
  pc : Nat
  lastPc : Nat
  /-- CORE cycle in which the next instruction is presented. -/
  cyc : Nat
  /-- Place of the cycle `cyc` in the device-wide count of CORE cycles (R563, R565). -/
  place : Nat
  stall : Option Stall
  /-- The core has executed GATE with last = 1 and its step has committed (R109). -/
  ended : Bool
  lastGate : Bool
  /-- The suspect results of the current step, newest first (R74, R368, R384). -/
  suspects : List SusRec
  /-- Up to where the lateness of the tensor and the vector unit has been left out of waits: a cycle of the unit's busy stretch plus late cycles (R60). -/
  tensorMark : Nat
  vectorMark : Nat
  /-- The late-arrival stalls of the step, from a cycle up to another (R100). -/
  lates : List (Nat × Nat)
  /-- The throttled stretches of the step (R100, R565). -/
  holds : List Hold
deriving DecidableEq, Repr

/-! ### Handles (R203 to R210) -/

/-- A handle-table entry (R203). -/
structure Handle where
  base : Nat
  length : Nat
  kind : Nat
  r : Bool
  w : Bool
  bc : Bool
  valid : Bool
  mode : Nat
  copiesM1 : Nat
  link : Nat
  gen : Nat
  cgen : Nat
  dirty : Bool
deriving DecidableEq, Repr

/-- A handle resolved at issue (R56): the local address of the access, the bytes from there to the end of its buffer, and what the checks at start need. -/
structure Res where
  handle : Nat
  kind : Nat
  bc : Bool
  addr : Nat
  room : Nat
deriving DecidableEq, Repr

/-! ### Commands in the unit queues (R43 to R45) -/

/-- A local end of a DMA, resolved when the descriptor is copied (R129): the first failing row of R205 or the address. -/
structure DmaEnd where
  ok : Bool
  base : Nat
  length : Nat
  kind : Nat
  bc : Bool
  paired : Bool
deriving DecidableEq, Repr

/-- The captured operands of a queued command. -/
inductive UnitCmd where
  | accOpen (grp base rowsM1 : Nat) (bias : Option Res)
  | accClose (grp : Nat)
  | tmul (f : TmulF) (a : Res) (b s : Option Res) (stride : Nat)
  | tmuls (f : TmulsF) (a : Res) (bR bW s : Option Res) (stride : Nat)
  | drain (f : DrainF) (d : Res) (scale bias : Option Res) (index : Nat)
  | vop (f : VopF) (scalar : Word)
  | vopLd (v : Nat) (a : Res)
  | vopSt (v : Nat) (a : Res)
  | send (f : SendF) (dest user : Word) (gear : Nat) (payload : Option Res)
  | recvAck (queue nM1 : Nat)
  | rpStore (queue value : Nat)
  | dma (put : Bool) (queue : Nat) (desc : List Byte) (src dst : DmaEnd) (resume : Nat)
deriving DecidableEq, Repr

/-- One entry of a command queue. -/
structure QEntry where
  cmd : UnitCmd
  /-- Scoreboard bit plus 1 within the unit, 0 for none (R89). -/
  sb : Nat
  /-- Instruction index and gear slot, for exc_where. -/
  pc : Nat
  gear : Nat
  accepted : Nat
  started : Bool
  start : Nat
  dur : Nat
  /-- Late-arrival cycles the command had when it started (a ramp under R100). -/
  late : Nat
  /-- A SEND that has started and waits for credits (row 6 of R264). -/
  creditWait : Bool
  /-- Step in which the command was accepted, and its counted cycle (R222). -/
  step : Nat
  counted : Nat
  /-- Ordinal among the tensor and vector commands of the step (R364). -/
  ordinal : Nat
  /-- For a command that sends rows through the array, its cycles after the last row has left the pipeline (R100). -/
  tail : Option Nat
  deriving DecidableEq, Repr

/-- A command unit: its queue, its last completion and the recent completions that a waiting instruction still sees. -/
structure CmdUnit where
  queue : List QEntry
  lastEnd : Nat
  /-- Last completion as it would be without lateness (R60, R98). -/
  nomEnd : Nat
  /-- Cycle in which the present busy stretch began (R60). -/
  chain : Nat
  /-- That cycle plus the cycles by which the last completion is late (R60). -/
  mark : Nat
  lastStart : Nat
  /-- Completion cycles, each with its mark, of freed entries that a core cycle has not yet passed. -/
  freed : List (Nat × Nat)
deriving DecidableEq, Repr

/-- Scoreboard bits: commands outstanding, and the cycle and the unit's mark of the last release (R50, R60). -/
structure Board where
  count : Vector Nat 16
  rel : Vector (Nat × Nat) 16
deriving DecidableEq, Repr

/-! ### Tensor unit (R114 to R122, R136, R142, R179 to R183) -/

/-- An accumulation group (R114, R143). -/
structure Group where
  used : Bool
  opened : Bool
  base : Nat
  rowsM1 : Nat
  bias : List Word
deriving DecidableEq, Repr

/-- A B buffer: loaded, its format, its mx flag, its tile and its scales (R136). -/
structure BBuf where
  loaded : Bool
  fmt : Nat
  mx : Bool
  tile : List Byte
  scales : List Byte
deriving DecidableEq, Repr

/-- What the issue checks see of a B buffer (R93, R117, R136). -/
structure BView where
  loaded : Bool
  fmt : Nat
  mx : Bool
deriving DecidableEq, Repr

/-- A slot tag of the hash-indexed accumulator (R179). -/
structure HashTag where
  row : Nat
  col : Nat
deriving DecidableEq, Repr

/-- The sparse plan of the core (R185). -/
structure SparsePlan where
  hashEn : Bool
  crossover : Nat
  split : Nat
  spillBase : Nat
  spillLog2 : Nat
  keyBound : Nat
deriving DecidableEq, Repr

/-- Tensor-unit state. -/
structure Tensor where
  /-- Accumulator entry r * 16 + j (R142); an unlisted entry is 0. -/
  acc : NMap QWord
  groups : Vector Group 8
  /-- Group and buffer state as every accepted command leaves it (R93). -/
  gview : Vector Group 8
  bufs : Vector BBuf 2
  active : Nat
  bview : Vector BView 2
  viewActive : Nat
  /-- Cycle in which the last row of the step left the pipeline, and the unit's mark at that command's completion (R100). -/
  rowEnd : Option (Nat × Nat)
  drains : Nat
  plan : SparsePlan
  tags : NMap HashTag
  /-- Visit position of an incomplete flush (R183). -/
  flushPos : Option Nat
deriving DecidableEq, Repr

/-! ### Checker (R359 to R366) -/

/-- One comparison of the checker: a row or a column of a tensor command, or a lane (R359 to R362). -/
structure Check where
  /-- 1 exact, 2 tolerance, 3 shadow. -/
  kind : Nat
  column : Bool
  /-- The row, column or lane. -/
  index : Nat
  /-- What a lane is compared modulo; 0 for every bit. -/
  modulus : Nat
  /-- Bits of the values compared; 0 for sums. -/
  width : Nat
  /-- The observed value: the residue of the sum, D, or the main lane's output; D, R and M are these times 2 to the q. -/
  obs : Int
  /-- The expected value: the residue of the reference, R, or the checking lane's output. -/
  exp : Int
  /-- M of a tolerance check. -/
  mag : Int
  q : Int
deriving DecidableEq, Repr

/-- The record of the first failed check of a step (R364). -/
structure Suspect where
  ordinal : Nat
  check : Check
deriving DecidableEq, Repr

/-- A completed arithmetic command awaiting its verdict (R363). -/
structure Verdict where
  due : Nat
  tensor : Bool
  drain : Bool
  ordinal : Nat
  /-- The unit's busy stretch and mark at the completion (R60). -/
  chain : Nat
  mark : Nat
  /-- Whether tolerance was used for an entry that the command left inexact (R359, R364). -/
  inexact : Bool
  /-- Rows and columns of the command that were not checked (R361). -/
  skips : Nat
  /-- The comparisons that the checker makes. -/
  checks : List Check
deriving DecidableEq, Repr

/-- What the checker keeps (R112, R359 to R364). -/
structure Checker where
  /-- Bits [5:1] of status word 0. -/
  flags : Vector Bool 6
  failed : Nat
  tensorJudged : Nat
  vectorJudged : Nat
  suspect : Option Suspect
  pendingV : List Verdict
  /-- Tensor and vector commands accepted in the step (R364). -/
  accepted : Nat
  /-- VOPs started in the step (R362). -/
  vops : Nat
  /-- Commands judged in cycles that the core has not yet passed (R112, R363). -/
  judged : List Verdict
  /-- What the checker formed for the tensor command in progress: whether tolerance was used for an inexact entry, rows and columns not checked, and its comparisons (R359 to R362). -/
  left : Bool × Nat × List Check
  /-- The comparisons of the VOPs in progress, oldest first (R362). -/
  lanes : List (List Check)
  /-- The comparisons of the commands judged in the step, by ordinal, which a replay is held against (R383). -/
  results : List (Nat × List Check)
deriving DecidableEq, Repr

/-! ### Router (R213 to R233) -/

/-- A beat on the scheduled network (R224). -/
structure Beat where
  data : BitVec 256
  gear : Nat
  stepBit : Nat
  steered : Bool
  null : Bool
  seq : Nat
  poisoned : Bool
deriving DecidableEq, Repr

/-- What a pairing buffer holds (R230). -/
inductive PairItem where
  | token (t : Word)
  | beat (b : Beat)
  | pair (t : Word) (b : Beat)
deriving DecidableEq, Repr

/-- An entry of a pairing buffer with the step cycles it has waited (R232). -/
structure PairEnt where
  item : PairItem
  age : Nat
deriving DecidableEq, Repr

/-- A stream of the gear in force (R221, R222). -/
structure Stream where
  present : Bool
  handle : Nat
  steered : Bool
  start : Nat
  window : Nat
  countOff : Nat
  pos : Nat
  count : Nat
  /-- Local address the stream's buffer resolved to at the beginning of the step (R222). -/
  base : Nat
deriving DecidableEq, Repr

/-- An inject read, asked for in the step cycle three before the entry that drives its beat (R222). -/
structure InjRead where
  /-- Step cycle of the entry, and the one of the read, three before it. -/
  cycle : Nat
  asked : Nat
  handle : Nat
  addr : Nat
  steered : Bool
  seq : Nat
  /-- The bytes read, once no pending write holds the read up. -/
  data : Option (BitVec 256)
deriving DecidableEq, Repr

/-- Router state of a core. -/
structure Router where
  inq : Vector (List Beat) 4
  pairing : Vector (List PairEnt) 5
  sw : Nat
  /-- Step cycles left of the current ROUTE entry after the one being executed; none when the entry is fresh. -/
  left : Option Nat
  ctrs : Vector Nat 4
  atEnd : Bool
  inj : Vector Stream 4
  ej : Vector Stream 4
  /-- Step cycles executed in the current step (R217). -/
  cycle : Nat
  /-- Beats on the links towards this core: input port and beat, oldest first. -/
  flying : List (Nat × Beat)
  /-- Inject reads asked for, oldest first, and the step cycle up to which entries have been looked at for them (R222). -/
  reads : List InjRead
  askedTo : Nat
deriving DecidableEq, Repr

/-- A packet with flits at an input port of a packet router: the outputs it goes to, and whether they have been granted to it (R239, R241). -/
structure PktAt where
  port : Nat
  head : PktHead
  outs : List Nat
  granted : Bool
deriving DecidableEq, Repr

/-- The packet router of a core (R239); outputs and virtual channels are keyed as output * 4 + channel. -/
structure PktRouter where
  /-- Packets at the input ports, in order of arrival: 0 to 3 the links, 4 local, 5 to 8 the outward faces north, east, south and west. -/
  held : List PktAt
  /-- Flit buffers in use downstream of an output's virtual channel, of its 4. -/
  used : NMap Nat
  /-- Input port whose packet holds an output's virtual channel, from head to tail. -/
  owner : NMap Nat
  /-- Input port that an output's virtual channel was granted to last, and virtual channel that an output served last: the round-robin places. -/
  lastIn : NMap Nat
  lastVc : NMap Nat
deriving DecidableEq, Repr

/-! ### Message unit (R248 to R274, R289 to R293) -/

/-- Who sent a message: column, row and device (R253). -/
structure Sender where
  x : Nat
  y : Nat
  dev : Nat
deriving DecidableEq, Repr

/-- A record in a ring: a message or a pad (R250, R251). -/
structure RingRec where
  pos : Nat
  len : Nat
  pad : Bool
  complete : Bool
  src : Sender
  inc : Nat
  mcast : Bool
deriving DecidableEq, Repr

/-- Units passed and not yet returned (R260, R374). -/
structure Passed where
  step : Nat
  src : Sender
  inc : Nat
  units : Nat
  pad : Bool
  mcast : Bool
  /-- Still counted in the ring's held field; false once the ring has been reset (R265). -/
  inHeld : Bool
  /-- The return is closed: a discard under R256 or a closure, towards another device (R261). -/
  closed : Bool
deriving DecidableEq, Repr

/-- A receive ring (R249). -/
structure Ring where
  base : Nat
  sizeCode : Nat
  prio : Nat
  state : Nat
  inc : Nat
  wp : Nat
  rp : Nat
  occ : Nat
  held : Nat
  delivered : Nat
  discarded : Nat
  recs : List RingRec
  passed : List Passed
  /-- Greatest occupancy in the current step (R297). -/
  peak : Nat
deriving DecidableEq, Repr

/-- A send channel (R262, R271). -/
structure Chan where
  dstX : Nat
  dstY : Nat
  dstDev : Nat
  queue : Nat
  mcast : Bool
  inc : Nat
  allot : Nat
  sizeCode : Nat
  x1 : Nat
  y1 : Nat
  credits : Nat
  closed : Bool
  seq : Nat
  inForce : Bool
deriving DecidableEq, Repr

/-- A message: its header and the 16-byte units after it. -/
structure Msg where
  hdr : MsgHdr
  body : List QWord
deriving DecidableEq, Repr

/-- A message whose later packets are awaited (R250): where its next units go, or none when it was discarded. -/
structure Partial where
  src : Sender
  tag : Nat
  hdr : MsgHdr
  mcast : Bool
  got : List QWord
  /-- Ring and position of a placed message; none for a message on its way to the combiner, the broom or nowhere. -/
  place : Option (Nat × Nat)
  sink : Nat
deriving DecidableEq, Repr

/-- A held input of a combiner node (R161). -/
structure HeldPart where
  gear : Nat
  tree : Nat
  inst : Nat
  level : Nat
  index : Nat
  /-- Whether it is the node's second input, (l - 1, 2i + 1). -/
  odd : Bool
  rows : List QWord
deriving DecidableEq, Repr

/-- Message-unit state. -/
structure MsgUnit where
  rings : Vector Ring 16
  chans : List Chan
  partials : List Partial
  /-- Held messages of other gears in arrival order, with their multicast marks (R291). -/
  broom : List (Bool × Msg)
  carry : Bool
  /-- Rotation points of WAITQ. -/
  rot : Nat
  /-- Next message tag (R235). -/
  tag : Nat
  /-- Multicast messages that await their completion flit (R242). -/
  mcastWait : List Nat
  heldParts : List HeldPart
  /-- Root results that wait for an open group to close (R163): first row and entries. -/
  rootWait : List (Nat × List QWord)
  /-- Messages sent and placed within the region, for the counts of R604. -/
  sentIn : Nat
  doneIn : Nat
deriving DecidableEq, Repr

/-! ### DMA engine (R322 to R328) -/

/-- What a DMA queue status entry and its wait code keep (R130, R327). -/
structure DmaQ where
  faultWait : Bool
  lastCode : Code
  resume : Nat
  completed : Nat
  faults : Nat
  bytes : Nat
  waitCode : Code
  /-- Completion order of the wait code's command, for the choice among queues. -/
  waitOrder : Nat
  /-- Cycle of the queue's last completion. -/
  lastEnd : Nat
deriving DecidableEq, Repr

/-- DMA-engine state. -/
structure DmaEng where
  queues : Vector DmaQ 8
  order : Nat
  /-- Reads of a far or host page that the running command's granule has tried without a reply (R317, R321). -/
  tries : Nat
  /-- Crossing commands that have completed since the last GATE: a roll-back to the commit of their step runs them again (R328). -/
  crossed : List QEntry
  /-- Crossing commands run again, and the next step has not begun (R328). -/
  rerun : Bool
deriving DecidableEq, Repr

/-! ### Gears (R275 to R297) -/

/-- A gear slot: its state and the parts its stores hold (R275 to R281). -/
structure Slot where
  /-- 0 empty, 1 loading, 2 resident. -/
  state : Nat
  image : Nat
  loadId : Nat
  /-- Bytes of each part by load target: 0 header, 1 code, 2 switch program, 3 stream descriptors, 4 handler table, 5 queue plan, 6 handle plan, 7 cadence block. -/
  parts : Vector Mem 8
  header : Bool
deriving DecidableEq, Repr

/-- A core's report at a gate (R109). -/
structure GateRep where
  step : Nat
  clean : Bool
  issue : Nat
  late : Nat
  throttle : Nat
  programError : Bool
  hardFault : Bool
  code : Code
  suspect : Option Suspect
  /-- The suspect results behind a report that is not clean. -/
  suspects : List SusRec
  /-- The comparisons of the step's commands, by ordinal (R383). -/
  results : List (Nat × List Check)
  stopped : Bool
  ended : Bool
deriving DecidableEq, Repr

/-- A block of the verify set: its bank (owner's key times 2, plus 1 for near store), its number, and the instruction or command that listed it (R201, R202). -/
structure VerEnt where
  bank : Nat
  blk : Nat
  unit : Nat
  sb : Nat
  pc : Nat
  gear : Nat
deriving DecidableEq, Repr

/-- All the state of a core that a scan carries or a roll-back restores (R298, R377), apart from local memory. -/
structure Arch where
  regs : Regs
  stat : CoreStat
  handles : NMap Handle
  units : Vector CmdUnit 4
  board : Board
  tensor : Tensor
  checker : Checker
  router : Router
  msg : MsgUnit
  dma : DmaEng
  /-- Blocks to verify, oldest first (R201). -/
  verify : List VerEnt
  /-- Blocks verified in the step: bank, block number and the block's count of writes at the time (R201). -/
  verified : List (Nat × Nat × Nat)
  /-- Gear in force when the step began, index within the span (R295). -/
  spanGear : Nat
  spanIdx : Nat
  /-- A SHIFT has issued in the current step (R295). -/
  shifted : Bool
deriving DecidableEq, Repr

/-- The local stores of a core. -/
structure LocalMem where
  home : Mem
  near : Mem
  /-- Quarters (16-byte units) that read uncorrectable (R189). -/
  badHome : List Nat
  badNear : List Nat
  /-- The check store beside the home bank and the slice's check area (R191, R200): 64-bit check words by 4 KiB block, each held as what it differs by, bit for bit, from the check of the block's contents; a block not listed agrees with its word (log entry 97). -/
  chkHome : NMap Nat
  chkNear : NMap Nat
  /-- Writes made to each 4 KiB block: the model's own record, by which a verified block is known to be unwritten since (R201). -/
  cntHome : NMap Nat
  cntNear : NMap Nat
deriving DecidableEq, Repr

/-- A logical core: what it runs, its state, its gear stores, its memory. -/
structure Core where
  ctx : Option Nat
  region : Nat
  arch : Arch
  slots : Vector Slot 4
  slotEpoch : Nat
  /-- Slots that were in force since the region's last commit and are so no longer, each with the last step in which it was (R282). -/
  usedSlots : List (Nat × Nat)
  mem : LocalMem
  /-- Gate reports not yet settled, oldest first. -/
  reports : List GateRep
  /-- Gate shadow: state at the last commit, then at each GATE since (R207, R377), oldest first. -/
  shadows : List Arch
  deriving DecidableEq, Repr

end Sys2Proof.Machine
end

