-- ==== Sys2Proof/Machine/DevTypes.lean ====
section
/-! DEFINITION. The state of contexts, paging, healing, links and the mesh, and what the block puts out: plain data. -/

namespace Sys2Proof.Machine

/-! ### Tier 2 and paging (R304 to R333) -/

/-- A segment record (R311). -/
structure Segment where
  kind : Nat
  r : Bool
  w : Bool
  pinned : Bool
  large : Bool
  nearOk : Bool
  fill : Bool
  base : Nat
  length : Nat
  dev : Nat
  lease : Nat
  window : Nat
  backOff : Nat
deriving DecidableEq, Repr

/-- A level-3 page-table entry (R313). -/
structure Leaf where
  valid : Bool
  r : Bool
  w : Bool
  home : Nat
  large : Bool
  pinned : Bool
  accessed : Bool
  dirty : Bool
  busy : Bool
  target : Nat
deriving DecidableEq, Repr

/-- A granule in the DMA hold area (R332). -/
structure HeldGranule where
  region : Nat
  step : Nat
  va : Nat
  data : List Byte
  /-- Released at the step's commit: the hold space of the step is freed when all of its granules have been acknowledged (R332). -/
  released : Bool
  /-- Device to which it was released; none is the host. -/
  dev : Option Nat
  /-- The host has acknowledged it. -/
  acked : Bool
deriving DecidableEq, Repr

/-- A message in the message hold area (R342, R375, R440). -/
structure HeldMsg where
  region : Nat
  step : Nat
  dstX : Nat
  dstY : Nat
  dstDev : Nat
  msg : Msg
  released : Bool
  /-- Placed in another region of this device, whose commit of this step frees it (R375). -/
  placedIn : Option (Nat × Nat)
  /-- Released and on the packet network or placed; false while it waits for a stand-in's decision (R382). -/
  sent : Bool
deriving DecidableEq, Repr

/-- A steered message kept until the receiving region commits the step in which it was placed (R483). -/
structure SteerMsg where
  ctx : Nat
  x : Nat
  y : Nat
  rule : Nat
  msg : Msg
  placedIn : Option (Nat × Nat)
deriving DecidableEq, Repr

/-- A reply released to a send queue (R484). -/
structure ReplyMsg where
  ctx : Nat
  queue : Nat
  msg : Msg
  since : Nat
deriving DecidableEq, Repr

/-! ### Contexts (R334 to R358) -/

/-- A rectangle of logical cores or cells. -/
structure Rect where
  x0 : Nat
  y0 : Nat
  x1 : Nat
  y1 : Nat
deriving DecidableEq, Repr

/-- A region record (R339). -/
structure RegionRec where
  region : Nat
  cx0 : Nat
  cy0 : Nat
  cw : Nat
  ch : Nat
  init : Vector Nat 4
  entrySlot : Nat
deriving DecidableEq, Repr

/-- A gear-image record of section 0x02: where it applies and its bytes (R340). -/
structure GearRec where
  rect : Rect
  image : Nat
  parts : Nat
  bytes : List Byte
deriving DecidableEq, Repr

/-- A leaf of a reduction tree (R159). -/
structure TreeLeaf where
  x : Nat
  y : Nat
  dev : Nat
deriving DecidableEq, Repr

/-- A reduction-tree record of section 0x05 (R159). -/
structure TreeRec where
  rect : Rect
  image : Nat
  tree : Nat
  rowsM1 : Nat
  partFmt : Nat
  rootRow : Nat
  leaves : List TreeLeaf
deriving DecidableEq, Repr

/-- Local contents of section 0x07 (R198). -/
structure ContentRec where
  rect : Rect
  addr : Nat
  bytes : List Byte
deriving DecidableEq, Repr

/-- Write marks of section 0x09 (R338). -/
structure MarkRec where
  rect : Rect
  image : Nat
  mask : Nat
deriving DecidableEq, Repr

/-- A context image as admitted (R337 to R341). -/
structure Image where
  horizon : Nat
  cls : Nat
  reduceInstM1 : Nat
  roundKey : Nat
  holdBytes : Nat
  msgHoldBytes : Nat
  reduceUnits : Nat
  imageBytes : Nat
  regions : List RegionRec
  gears : List GearRec
  sparse : List (Rect × SparsePlan)
  /-- The plan of a core without a record, with the defaults at admission (R187, R338). -/
  noPlan : SparsePlan
  segments : List Segment
  trees : List TreeRec
  act : List Byte
  contents : List ContentRec
  segContents : List (Nat × List Byte)
  marks : List MarkRec
deriving DecidableEq, Repr

/-- The states of R346. -/
inductive CtxState where
  | free
  | loaded
  | ready
  | resident
  | running
  | preempted
  | blocked
  | draining
  | failed
deriving DecidableEq, Repr

/-- A long operation's status (R355). state: 0 idle, 1 queued, 2 running, 3 done, 4 failed, 5 cancelled. -/
structure LongOp where
  state : Nat
  progress : Nat
  code : Code
  /-- Operands of the request. -/
  a : Nat
  b : Nat
  c : Nat
  tries : Nat
deriving DecidableEq, Repr

/-- What a tandem replay in progress remembers (R381 to R385). -/
structure Replay where
  step : Nat
  starts : Nat
  /-- Reports of the original step that were not clean: core key and report. -/
  originals : List (Nat × GateRep)
  /-- First cell of the stand-in rectangle, when one runs the replay (R382). -/
  standin : Option (Nat × Nat)
  /-- The replay waits for a rectangle to become idle (R382). -/
  waiting : Bool
  /-- Physical cores, when the original reports were made, of the cores that made them and of those whose routers drove strays: by core key. -/
  phys : NMap (Nat × Nat)
deriving DecidableEq, Repr

/-- Run-time state of a region. -/
structure RegionRt where
  num : Nat
  /-- Number of the step whose gate settles next. -/
  gateStep : Nat
  /-- Steps settled clean and not committed, oldest first (R372). -/
  settled : List Nat
  /-- A core has reported for the step: the gate timer runs (R370). -/
  timer : Bool
  replay : Option Replay
  /-- The region has a gate shadow to roll back to (R379). -/
  shadowed : Bool
  /-- The region holds at its last commit: parked, or about to be scanned out (R350, R405). -/
  parked : Bool
  /-- TIME at which it last parked (R395). -/
  parkedAt : Nat
  /-- The region's cores have been scanned out (R301). -/
  scanned : Bool
  /-- Values of the Gate-class objects that the region's current step uses (R496). -/
  gateVals : NMap Nat
  /-- Those that the steps since the last commit used before it, oldest first: a roll-back replays each step under its own (R164, R496). -/
  oldVals : List (NMap Nat)
  /-- Exclusion sets of rows under which the region still runs, where they differ from those in force (R26). -/
  maps : NMap Nat
  /-- A packet of the region crossed a degraded link in the current step (R425). -/
  degraded : Bool
deriving DecidableEq, Repr

/-- A host window (R475). -/
structure HostWin where
  base : Nat
  length : Nat
  rkey : Nat
  r : Bool
  w : Bool
deriving DecidableEq, Repr

/-- A released payload of another device, placed and not yet covered by a commit (R375, R440). -/
structure RemoteIn where
  region : Nat
  /-- Step of the receiving region at whose gate the placement is captured. -/
  inStep : Nat
  dev : Nat
  ctx : Nat
  step : Nat
  idx : Nat
deriving DecidableEq, Repr

/-- The header of a core state record (R300). -/
structure RecHdr where
  version : Nat
  x : Nat
  y : Nat
  home : Bool
  acc : Bool
  midStep : Bool
  gear : Nat
  carry : Bool
  stepNo : Nat
  ctx : Nat
  bytes : Nat
  /-- The 64-bit check word, held as what it differs by, bit for bit, from the check of the record; 0 agrees (log entry 97). -/
  check : Nat
deriving DecidableEq, Repr

/-- A core state record in the save area (R298, R300, R331). It carries neither the gear stores, which R284 reloads, nor local memory, which follows R199. -/
structure Saved where
  hdr : RecHdr
  arch : Arch
  reports : List GateRep
  /-- The snapshots of the handle table (R207). -/
  snaps : List (NMap Handle)
  used : List (Nat × Nat)
deriving DecidableEq, Repr

/-- A context (R335, R346). -/
structure Ctx where
  state : CtxState
  image : Image
  cls : Nat
  quantumUs : Nat
  preemptWaitUs : Nat
  blockUs : Nat
  lastCode : Code
  steps : Nat
  runNs : Nat
  runSince : Option Nat
  reservedBytes : Nat
  /-- Frames of the reservation not yet allocated. -/
  reservedFrames : Nat
  pt : NMap Leaf
  frames : List Nat
  /-- Frames allocated at load, lowest first: page tables, then image sections, save area and hold areas (R312, R318, R331, R332). -/
  fixed : List Nat
  dmaHold : List HeldGranule
  msgHold : List HeldMsg
  /-- Scan records by core key (R298, R300). -/
  saved : NMap Saved
  /-- Local contents in the save area (R199). -/
  savedMem : NMap LocalMem
  midStep : Bool
  /-- Contents still lie in the cells the context last held (R199). -/
  contentsInPlace : Bool
  /-- Those contents are being copied to the save area (R199). -/
  copying : Bool
  /-- The cells are claimed and entry waits for other contents to leave them, or for a checkpoint (R199, R460). -/
  entering : Bool
  /-- The quantum has expired since the dispatch (R351). -/
  quantumOver : Bool
  entered : Bool
  regions : List RegionRt
  stopReq : Bool
  /-- Pre-emption awaited at a gate: true for park. -/
  gateReq : Option Bool
  reqSince : Nat
  load : LongOp
  gearLoad : LongOp
  /-- Gear images kept in tier 2 from which the resident slots of the context's cores were loaded: core key * 4 + slot (R284). -/
  kept : NMap Slot
  migrate : LongOp
  reshard : LongOp
  /-- Image of a re-shard that waits for the context to be pre-empted (R357). -/
  nextImage : Option Image
  ckpt : LongOp
  windows : NMap HostWin
  /-- Peer table: entry number to device, remote context and valid bit (R442, R462). -/
  peers : NMap Nat
  /-- Devices whose peer context has been reported resident (R441). -/
  peersIn : List Nat
  /-- Devices that have not acknowledged the last residency frame (R441). -/
  unacked : List Nat
  /-- Last payload delivered from each sending device and context: step and index (R440). -/
  delivered : List (Nat × Nat × Nat × Nat)
  /-- Deliveries that the receiving region has not committed. -/
  fresh : List RemoteIn
  /-- Payloads whose placement was rolled back and that are awaited again: device, context, step, index (R375). -/
  lost : List (Nat × Nat × Nat × Nat)
  /-- ckpt.buddy, ckpt.period_s, ckpt.last_step and ckpt.adopt (R457, R460, R462). -/
  buddy : Nat
  periodS : Nat
  ckptStep : Nat
  adopt : Nat
  /-- Sequence number of the next checkpoint (R458). -/
  ckptSeq : Nat
  /-- TIME at which the cells were claimed. -/
  claimedAt : Nat
  /-- The most recent long operation: 1 load, 2 gear load, 3 migration, 4 re-shard, 5 checkpoint (R478). -/
  lastOp : Nat
  blockCause : Nat
deriving DecidableEq, Repr

/-- A checkpoint (R457, R458): scan records, local contents, segment pages, page-table map and delivered positions. -/
structure Ckpt where
  version : Nat
  ctx : Nat
  slot : Nat
  seq : Nat
  step : Nat
  device : Nat
  /-- Whole length that the header declares. -/
  bytes : Nat
  cores : NMap Saved
  mems : NMap LocalMem
  pages : List (Nat × List Byte)
  pt : NMap Leaf
  delivered : List (Nat × Nat × Nat × Nat)
  /-- Pages of local segments not yet copied (R457). -/
  todo : List Nat
  /-- The copy is sealed. -/
  isSealed : Bool
  /-- The checkpoint is complete (R457). -/
  complete : Bool
deriving DecidableEq, Repr

/-- What a released payload carries (R439, R440). -/
inductive RelBody where
  | msg (dstX dstY : Nat) (m : Msg)
  | credit (dst : Sender) (src : CoreId) (queue inc : Nat) (closed : Bool) (units : Nat)
  | granule (lease addr : Nat) (data : List Byte)
deriving DecidableEq, Repr

/-- An entry of the input log: a payload released to another device (R440, R453). -/
structure Released where
  ctx : Nat
  dev : Nat
  rctx : Nat
  step : Nat
  idx : Nat
  region : Nat
  body : RelBody
  sent : Bool
  acked : Bool
deriving DecidableEq, Repr

/-! ### Healing (R389 to R419) -/

/-- A defect-map record (R409). -/
structure DefRec where
  kind : Nat
  made : Bool
  closed : Bool
  uncertain : Bool
  code : Code
  place : Nat
  time : Nat
  logical : Nat
  count : Nat
  detail : Nat
deriving DecidableEq, Repr

/-- What the defect map keeps over a loss of power (R408 to R411, R419). -/
structure Keep where
  /-- Fenced cells of each physical cell row. -/
  fences : Vector Nat 32
  retired : Option Nat
  /-- Mapped-out near-store rows: physical core key, die * 8192 + row (R195). -/
  nearRows : List (Nat × Nat)
  /-- Retired tier-2 frames (R309). -/
  frames : List Nat
  /-- Write sequence of the current copy and its records, oldest first. -/
  seq : Nat
  recs : List DefRec
  /-- heal.replace (R419). -/
  replace : Code
deriving DecidableEq, Repr

/-- A change of row maps that moves cells (R405). purpose: 0 fence, 1 to the groomer map, 2 back to the home map. -/
structure Move where
  purpose : Nat
  /-- Physical rows and their new exclusion sets. -/
  rows : List (Nat × Nat)
  /-- The copies are under way (R407). -/
  copying : Bool
deriving DecidableEq, Repr

/-- The test under way: the cell, the case of R391 and how far it is. stage: 0 moving out, 1 testing, 2 moving back. -/
structure GroomTest where
  cell : Nat
  case_ : Nat
  stage : Nat
  demand : Bool
deriving DecidableEq, Repr

/-- The groomer (R389 to R397). Cells are pcy * 32 + pcx. -/
structure Groom where
  /-- Targeted cells in order, with their origin: 0 REPLAY_CONFIRMED_CHECKER, 1 recover.groom_cell. -/
  targets : List (Nat × Nat)
  /-- Cells that REPLAY_CONFIRMED_CHECKER named, with the physical and logical core and the decision's number for the checker watch (R383, R400). -/
  blame : List (Nat × Nat × Nat × Nat)
  /-- Next cell of the sweep. -/
  next : Nat
  test : Option GroomTest
  /-- Cells deferred in this sweep and in the last one (R395). -/
  deferred : List Nat
  deferredLast : List Nat
  sweepStart : Nat
  /-- Groomer pauses of regions: context, region, resume TIME, duration (R395). -/
  pauses : List (Nat × Nat × Nat × Nat)
  /-- Rows to be returned to their home maps at the end of the sweep (R392). -/
  returns : List Nat
deriving DecidableEq, Repr

/-- A write of fence.cmd that waits for clean gates (R419): the cell and the regions that have not passed one. -/
structure FenceWait where
  px : Nat
  py : Nat
  regions : List (Nat × Nat)
deriving DecidableEq, Repr

/-! ### Event log and outputs (R596 to R601) -/

/-- An event record (R596). -/
structure EventRec where
  time : Nat
  uncertain : Bool
  code : Code
  unit : Nat
  kind : Nat
  ctx : Nat
  logical : Nat
  physical : Nat
  physCell : Bool
  detail0 : Nat
  detail1 : Nat
  seq : Nat
deriving DecidableEq, Repr

/-- The event log of the management complex (R599, R600). -/
structure EventLog where
  /-- Newest first. -/
  recs : List EventRec
  nextSeq : Nat
  /-- Records of each code in one second of TIME, and which second that is. -/
  second : NMap Nat
  secondNo : Nat
deriving DecidableEq, Repr

/-! ### Mesh (R234 to R247) -/

/-- A packet on the packet network: its head flit, its data units, and for a multicast packet the keys of the cores whose branch has not delivered it yet (R241). -/
structure Packet where
  head : PktHead
  units : List QWord
  dests : List Nat
deriving DecidableEq, Repr

/-- Device-wide mesh state: epoch, packets in flight, the two banks of tables (R244 to R246). -/
structure MeshDev where
  epoch : Nat
  transit : List Packet
  /-- Packet routers by core key (R239). -/
  routers : NMap PktRouter
  /-- Row maps that the bank that is not current was made for (R244). -/
  otherMap : Vector Nat 32
  stationCur : NMap Nat
  stationNext : NMap Nat
  routeCur : NMap Nat
  routeNext : NMap Nat
deriving DecidableEq, Repr

/-- A near-store slice and home bank by physical core (R190, R194, R197). -/
structure SliceSt where
  /-- 0 active, 1 self-refresh, 2 off. -/
  power : Nat
  /-- Home bank: 0 on, 1 retention, 2 off. -/
  bank : Nat
  corrected : Nat
  /-- Corrected errors of rows, die * 8192 + row, with their TIME, newest first (R195). -/
  rowErrs : List (Nat × Nat)
  /-- Rows to be mapped out, oldest first: one with an uncorrectable word, or one that has reached near.map_threshold (R195). -/
  due : List Nat
  /-- Corrected single-bit errors of the core's instruction store, switch-program store and command queues (R78). -/
  stores : Vector Nat 3
  /-- Internal bank refreshed next. -/
  refresh : Nat
deriving DecidableEq, Repr

/-- Tier-2 and pager state. -/
structure Tier2 where
  mem : Mem
  /-- 4 KiB blocks whose check fails (R309). -/
  badBlocks : List Nat
  /-- Allocated 64 KiB frames. -/
  used : List Nat
  /-- Translation caches, most recently used first: core key, context, page times 2 plus 1 for a write translation (R316). -/
  tlb : List (Nat × Nat × Nat)
  /-- Fault fills under way: context, page, attempts made (R317). -/
  fills : List (Nat × Nat × Nat)
  /-- Frames pinned outside every context's reservation: input log, leases, checkpoints. -/
  pinned : Nat
deriving DecidableEq, Repr

/-! ### Links and membership (R420 to R462) -/

/-- What a frame carries (R428, R439). -/
inductive LinkPay where
  | empty
  | packet (p : Packet)
  /-- A released payload, with the transfer check of a granule (R440, R443). -/
  | released (b : RelBody) (check : Nat)
  /-- The end-to-end acknowledgement of a released payload (R440). -/
  | relAck
  /-- A read of far pages under a lease: lease, offset, bytes (R444). -/
  | farRead (lease addr bytes : Nat)
  | farReply (lease addr : Nat) (data : Option (List Byte))
  | ident (r : IdentRec)
  | residency (here : Bool)
  /-- The acknowledgement of a residency frame (R441). -/
  | residencyAck
  /-- The delivered position that a complete checkpoint covers (R454). -/
  | marker (step idx : Nat)
  /-- A request to replay the input log above a delivered position (R455). -/
  | replayReq (after : Option (Nat × Nat))
  | relay (p : RelayPiece)
  /-- A membership order, or a request for it (R435, R449). -/
  | order (bytes : List Byte)
  | orderReq
  /-- A sealed checkpoint slot for the buddy (R457). -/
  | ckpt (k : Ckpt)
  | ckptAck (code : Code)
  /-- A request for the newest complete checkpoint of a context, and the answer (R416, R459, R460). -/
  | ckptReq
  | ckptFetched (k : Option Ckpt)
deriving DecidableEq, Repr

/-- A frame that a link sends or keeps for replay (R429). -/
structure LinkFrame where
  hdr : FrameHdr
  pay : LinkPay
  tries : Nat
deriving DecidableEq, Repr

/-- State of a link beside its objects (R423 to R436). -/
structure LinkSt where
  txSeq : Nat
  rxSeq : Nat
  /-- Unacknowledged frames, oldest first, and frames that wait for a credit or for the window (R429, R430). -/
  held : List LinkFrame
  waiting : List LinkFrame
  /-- Credits by channel times 2 plus sub-channel (R430). -/
  credits : Vector Nat 6
  /-- Frames received since the last acknowledgement sent. -/
  unackedRx : Nat
  /-- Times of the malformed frames and packets and of the resent frames of the last second (R422, R431). -/
  malformedAt : List Nat
  replaysAt : List Nat
  /-- Codes already raised for disagreements that last (R435). -/
  raised : List Code
  staleRaised : List Nat
  partnerSerial : Nat
  partnerEpoch : Nat
  partnerDev : Nat
  /-- The partner has refused frames of an epoch that it has not reached (R436). -/
  epochWait : Bool
  /-- A record of the present partner has been received (R433). -/
  known : Bool
  /-- t_tx of the last record and the TIME of its arrival (R432). -/
  lastTx : Nat
  lastRx : Nat
deriving DecidableEq, Repr

/-- A lease granted to a context of another device (R444). -/
structure Lease where
  dev : Nat
  ctx : Nat
  r : Bool
  w : Bool
  first : Nat
  frames : Nat
deriving DecidableEq, Repr

/-- Pieces of a relayed fragment that has not arrived whole (R519). -/
structure RelayIn where
  origin : Nat
  relayId : Nat
  piecesM1 : Nat
  got : NMap (List Byte)
deriving DecidableEq, Repr

/-- An entry of the relay table (R518). -/
structure RelayEnt where
  relayId : Nat
  path : DopPath
  used : Nat
deriving DecidableEq, Repr

/-- A released payload that a link station holds: the link, the header of its frame, the body and its transfer check (R440). -/
structure StationIn where
  link : Nat
  hdr : FrameHdr
  body : RelBody
  check : Nat
deriving DecidableEq, Repr

/-- Membership, leases and relay (R446 to R451, R518). The epoch, k and the bitmap are objects. -/
structure Rack where
  keys : NMap (List Byte)
  order : List Byte
  leases : NMap Lease
  relays : List RelayEnt
  relayIn : List RelayIn
  nextRelay : Nat
  /-- Released payloads that the link stations hold until their rings have room, oldest first (R440). -/
  stationed : List StationIn
deriving DecidableEq, Repr

/-! ### The Ethernet port and queue pairs (R463 to R488) -/

/-- A command waiting on a queue pair: the 64 bytes as a number (R476). -/
abbrev BctWord := Nat

/-- A queue pair (R469 to R479). -/
structure Qp where
  /-- 0 RESET, 1 RTS, 2 error. -/
  state : Nat
  gid : Nat
  qpn : Nat
  mac : Nat
  params : Nat
  vlan : Nat
  rkey : Nat
  errors : Nat
  /-- Position in the rate table (R474). -/
  ecnStep : Nat
  /-- Rate in force, in 1,024ths of the line rate. -/
  ecnRate : Nat
  queue : List BctWord
  cmdCount : Nat
  lastTag : Nat
  lastCode : Code
  update : Nat
  /-- TIME of the last status-block update. -/
  updatedAt : Nat
  /-- Mirror window and offset (R479). -/
  mirror : Option (Nat × Nat)
deriving DecidableEq, Repr

/-- The Ethernet engine (R463 to R487). -/
structure Eth where
  qps : NMap Qp
  /-- Steering rules of the two banks as 128-bit numbers (R480). -/
  steerCur : NMap Nat
  steerNext : NMap Nat
  /-- Credits that each rule of the current bank holds outstanding, and its next sequence number (R482). -/
  out : NMap Nat
  seq : NMap Nat
  /-- PFC: receive-buffer bytes, pauses sent and received of the two priorities (R467). -/
  fill : Vector Nat 2
  pauseTx : Vector Bool 2
  pauseRx : Vector Bool 2
deriving DecidableEq, Repr

/-! ### The object dictionary and DOP (R489 to R524) -/

/-- A staged write (R501): a value, or the bytes of a DOMAIN object. -/
structure Staged where
  index : Nat
  sub : Nat
  value : Nat
  bytes : List Byte
  domain : Bool
  quiesce : Bool
  reqId : Nat
  /-- Another session has written the object since. -/
  overtaken : Bool
deriving DecidableEq, Repr

/-- A NOTIFY that awaits its acknowledgement (R517). -/
structure Note where
  seq : Nat
  index : Nat
  sub : Nat
  value : Nat
  time : Nat
  uncertain : Bool
  sent : Nat
deriving DecidableEq, Repr

/-- A kept response (R508): request identifier, code, result, data. -/
structure Kept where
  reqId : Nat
  code : Code
  arg : Nat
  data : List Byte
deriving DecidableEq, Repr

/-- The SEG_WRITE buffer of a session (R514). -/
structure SegBuf where
  index : Nat
  sub : Nat
  data : List Byte
deriving DecidableEq, Repr

/-- A snapshot of a SEG_READ (R515). -/
structure Snap where
  index : Nat
  sub : Nat
  data : List Byte
deriving DecidableEq, Repr

/-- A DOP session (R501, R508 to R517). -/
structure Session where
  id : Nat
  key : Nat
  role : Nat
  path : DopPath
  /-- FINISH has been accepted (R510). -/
  isOpen : Bool
  /-- T and the two tag keys (R511). -/
  transcript : Nat
  keyC2d : Nat
  keyD2c : Nat
  /-- Highest sequence accepted, sequences accepted in the window, next sequence to send (R512). -/
  highest : Nat
  seen : List Nat
  nextSeq : Nat
  lastUse : Nat
  stage : List Staged
  kept : List Kept
  subs : List (Nat × Nat)
  notes : List Note
  seg : Option SegBuf
  snaps : List Snap
  selects : NMap Nat
  nonce : Option (List Byte)
  /-- A DOMAIN_RDMA under way: queue pair, direction, object, request (R516). -/
  rdma : Option (Nat × Bool × Nat × Nat × Nat)
deriving DecidableEq, Repr

/-- A message whose fragments have not all arrived (R504). -/
structure Reasm where
  path : DopPath
  session : Nat
  seq : Nat
  fragsM1 : Nat
  bytes : Nat
  kind : Nat
  anon : Bool
  got : NMap (List Byte)
deriving DecidableEq, Repr

/-- The dictionary server, DOP and the I3C target (R489 to R523). -/
structure DopSt where
  sessions : List Session
  nextId : Nat
  /-- dop.keys by sub-index minus 1: role byte, seven zero bytes, key (R509, R524). -/
  keys : NMap (List Byte)
  reasm : List Reasm
  anonSelects : NMap Nat
  i3cSelects : NMap Nat
  /-- Anonymous messages of the current second (R513). -/
  anonSecond : Nat
  anonCount : Nat
  /-- Long operations of dict.save and of the life-cycle objects, by object key (R355, R545). -/
  ops : NMap LongOp
  i3cAddr : Option Nat
  i3cStatic : Nat
  /-- Status, length and value of the last I3C request (R523). -/
  i3cLast : Option (Code × List Byte)
deriving DecidableEq, Repr

/-! ### Power, clocks and start-up (R546 to R572) -/

/-- Power manager, clocks and reset state. -/
structure Pow where
  pwrGood : Bool
  /-- SYS_RESET_N is asserted. -/
  inReset : Bool
  /-- Every clock is stopped (R549, R550, R570). -/
  stopped : Bool
  tripped : Bool
  /-- The cause for which PCYC_REQ_N is asserted; 0 none (R418). -/
  pcyc : Nat
  /-- The start under way is cold (R558). -/
  cold : Bool
  /-- PWR_GOOD has been deasserted since the last start began: the next one is cold (R548, R558). -/
  lost : Bool
  /-- A rail was out of its window at the release of SYS_RESET_N (R550). -/
  railBad : Bool
  /-- The start under way follows a disagreement of the lock-stepped pairs (R418). -/
  lockFail : Bool
  /-- A rail or clock fault has started this start (R550). -/
  railFault : Bool
  /-- Warm starts in succession that have not reached service (R531). -/
  failed : Nat
  /-- Physical cell rows out of reset (R553). -/
  rowsOut : Nat
  /-- Management complex: 0 in reset, 1 boot ROM with a verified image, 2 firmware, 3 boot ROM alone (R530, R531). -/
  mgmt : Nat
  /-- Tier 2 is kept over the start under way (R417, R560). -/
  keep2 : Bool
  /-- TIME at which the start began. -/
  startAt : Nat
  /-- Throttle level of R564, samples below 98 % of the cap, and the level that the VCORE limits imposed (R550, R567). -/
  cap : Nat
  below : Nat
  limit : Nat
  /-- Throttle levels by sensor (0 to 63 on the logic die, 64 to 67 the DRAM dies) with the samples since the last step, every region at 15, and whether the warning stands (R569). -/
  hot : NMap (Nat × Nat)
  hotAll : Bool
  warned : Bool
  /-- DRAM dies that have read above 85 °C and not below 82 °C since: their slices refresh at the extended rate (R194, R569). -/
  warmDies : List Nat
  /-- LPDDR6 packages that report high temperature: doubled refresh (R305). -/
  hotPkgs : Nat
  /-- VCORE has stayed at or above the target for 100 µs since the target was last set (R551). -/
  vcoreMet : Bool
  /-- A write of power.core_clock_khz awaits its VCORE target: the clock it asks for, with the clock and target before it (R552). -/
  awaiting : Option (Nat × Nat × Nat)
  tapOpen : Bool
  /-- Test access port: state of its controller (R589), instruction in force (0 IDCODE, 1 BYPASS, 2 any other), shift registers. -/
  tapState : Nat
  tapInstr : Nat
  tapIr : Nat
  tapDr : Nat
deriving DecidableEq, Repr

/-- What the memory test found: failed cells, near-store rows as core and die and row, tier-2 frames, and checkpoints whose kept frames fail, as device, context and slot. -/
structure TestFinds where
  cells : List (Nat × Nat)
  rows : List (Nat × Nat × Nat × Nat)
  frames : List Nat
  lost : List (Nat × Nat × Nat)
deriving DecidableEq, Repr

/-! ### Fuses and the non-volatile store (R408, R499, R525 to R541) -/

/-- A signed image in a slot: its 128-byte header, its signature and its body (R527). -/
structure SignedImage where
  header : List Byte
  signature : List Byte
  body : List Byte
deriving DecidableEq, Repr

/-- A firmware slot pair (R531). -/
structure FwSlots where
  a : Option SignedImage
  b : Option SignedImage
  /-- Slot in force and slot marked next: false A, true B. -/
  inForce : Bool
  next : Bool
  goodA : Bool
  goodB : Bool
deriving DecidableEq, Repr

/-- What the fuses hold (R525). -/
structure Fuses where
  serial : Nat
  grade : Nat
  mac : Nat
  rootSecret : Nat
  lwDigest : Nat
  /-- 0 MANUFACTURE, 1 SHIPPED, 2 OWNED, 3 RETURNED, 4 SCRAPPED. -/
  lc : Nat
  returns : Nat
  svnMgmt : Nat
  svnCore : Nat
  svnPolicy : Nat
deriving DecidableEq, Repr

/-- What the non-volatile store keeps beside the defect map. -/
structure Store where
  /-- The saved set by object key, the seed of the key that signed it, and its time (R499, R526). -/
  saved : NMap Nat
  savedKey : Nat
  savedTime : Nat
  /-- Values written to Reset-class objects since the last start (R499). -/
  resets : NMap Nat
  mgmt : FwSlots
  core : FwSlots
  /-- Policy modules by slot (R533). -/
  policy : NMap SignedImage
  /-- The owner root public key; empty when none (R535). -/
  ownerRoot : List Byte
  /-- The erase-complete mark (R540). -/
  erased : Bool
  /-- The management slot booted or refused last, while its start has not reached service: false A, true B (R531). -/
  tried : Option Bool
deriving DecidableEq, Repr

/-- Fuses, store and what firmware holds of them while it runs. -/
structure Sec where
  fuses : Fuses
  store : Store
  /-- Loaded policy modules: slot (R530, R534). -/
  loaded : List Nat
  /-- Measurements of the management and core firmware that run (R530). -/
  fwDigest : Nat
  coreDigest : Nat
  fwVersion : Nat
deriving DecidableEq, Repr

/-! ### Outputs -/

/-- What the last command sent out of the block or to another unit. -/
inductive Out where
  | packet (from_ : CoreId) (p : Packet)
  /-- A router passes a packet on: the router's core, the physical core it lies on in the packet's bank, the outputs (R238, R244). -/
  | forward (c : CoreId) (phys : Nat × Nat) (ports : List Nat) (h : PktHead)
  | discardPacket (h : PktHead)
  | gateReport (c : CoreId) (r : GateRep)
  | credit (dest : Sender) (from_ : CoreId) (queue inc : Nat) (closed : Bool) (units : Nat)
  | hostWrite (ctx window offset : Nat) (data : List Byte)
  | peerWrite (dev addr : Nat) (data : List Byte)
  | hostRead (window offset bytes : Nat)
  | event (e : EventRec)
  | bytes (tag : Nat) (data : List Byte)
  | pin (name : Nat) (level : Bool)
  | words (tag : Nat) (w : List Nat)
  /-- A frame sent on a link (R428). -/
  | frame (link : Nat) (f : LinkFrame)
  /-- An answer or request on the Ethernet port. -/
  | eth (tag : Nat) (fields : List Nat) (data : List Byte)
  /-- A DOP response record: session, request, code, result, data (R505). -/
  | dop (session reqId : Nat) (code : Code) (arg : Nat) (data : List Byte)
  | notify (session : Nat) (n : Note)
deriving DecidableEq, Repr

end Sys2Proof.Machine
end

