-- ==== Sys2Proof/Syntax.lean ====
section
/-! DEFINITION. The commands of the block: one constructor per row of the operation table. -/

namespace Sys2Proof

/-- The commands, those with operands first, otherwise in the order of the operation table; each names the rule of the specification that decides it. -/
inductive Instr where
  /-- NOP: Scalar no-op; when guarded on a scoreboard bit it acts as a wait. (R101) -/
  | nop (c : CoreId) (g : Common)
  /-- ALU: Sets a scalar register to the result of a register-register operation. (R102) -/
  | alu (c : CoreId) (g : Common) (sD sA fn sB : Nat)
  /-- ALUI: Sets a scalar register to the result of a register-immediate operation. (R102) -/
  | alui (c : CoreId) (g : Common) (sD sA fn : Nat) (imm : Word)
  /-- CMP: Sets a predicate from a comparison of two scalar registers. (R103) -/
  | cmp (c : CoreId) (g : Common) (pD sA sB cond : Nat)
  /-- CMPI: Sets a predicate from a comparison of a scalar register with an immediate. (R103) -/
  | cmpi (c : CoreId) (g : Common) (pD sA cond : Nat) (imm : Word)
  /-- PLOG: Sets a predicate from a logical operation on predicate-file bits, sampled without stalling. (R104) -/
  | plog (c : CoreId) (g : Common) (pD srcA srcB op : Nat) (inv : Bool)
  /-- BR: Branches to an immediate instruction index and writes the link register. (R105) -/
  | br (c : CoreId) (g : Common) (sLink target : Nat)
  /-- BRR: Branches to the index held in a scalar register and writes the link register. (R105) -/
  | brr (c : CoreId) (g : Common) (sLink sT : Nat)
  /-- LD: Scalar load of 1, 2 or 4 bytes through an address register's handle. (R106) -/
  | ld (c : CoreId) (g : Common) (sR aR size : Nat) (sext postInc : Bool) (imm : Word) (late : Nat)
  /-- ST: Scalar store of 1, 2 or 4 bytes through an address register's handle. (R106) -/
  | st (c : CoreId) (g : Common) (sR aR size : Nat) (postInc : Bool) (imm : Word)
  /-- ASET: Loads an address register with a handle index and offset and marks it valid. (R107) -/
  | aset (c : CoreId) (g : Common) (aD sX : Nat) (imm : Word)
  /-- AOFF: Sets an address register's offset to a scalar plus an immediate. (R107) -/
  | aoff (c : CoreId) (g : Common) (aD sX : Nat) (imm : Word)
  /-- AADD: Adds a scalar and an immediate to an address register's offset. (R107) -/
  | aadd (c : CoreId) (g : Common) (aD sX : Nat) (imm : Word)
  /-- AMOV: Copies one address register to another. (R107) -/
  | amov (c : CoreId) (g : Common) (aD aS : Nat)
  /-- AGET: Copies an address register's offset into a scalar register. (R107) -/
  | aget (c : CoreId) (g : Common) (sX aS : Nat)
  /-- AINV: Clears the valid bit of an address register. (R107) -/
  | ainv (c : CoreId) (g : Common) (aD : Nat)
  /-- GATE: Ends the core's step, reports clean flag and counts to the gate network and advances step state. (R109) -/
  | gate (c : CoreId) (g : Common) (last : Bool)
  /-- SHIFT: Switches the core to another resident gear slot in one cycle. (R286) -/
  | shift (c : CoreId) (g : Common) (gear : Nat) (carry : Bool) (entry : Nat)
  /-- STEER: Hands a control token to a port's steering unit. (R111) -/
  | steer (c : CoreId) (g : Common) (sTok port : Nat)
  /-- CHK_READ: Reads a checker status word into a scalar register after pending verdicts. (R112) -/
  | chkRead (c : CoreId) (g : Common) (sD sel : Nat)
  /-- WAITQ: Selects a ready receive ring from a mask, stalling or polling. (R128) -/
  | waitq (c : CoreId) (g : Common) (sD mode : Nat) (poll : Bool) (qmask : Nat)
  /-- DMA_WAIT: Waits for DMA commands of selected queues and returns and resets their wait codes. (R130) -/
  | dmaWait (c : CoreId) (g : Common) (sD qmask : Nat)
  /-- ACC_OPEN: Opens an accumulation group over accumulator rows, zeroed or biased. (R114) -/
  | accOpen (c : CoreId) (g : Common) (grp base rowsM1 init aBias : Nat)
  /-- ACC_CLOSE: Closes an accumulation group. (R115) -/
  | accClose (c : CoreId) (g : Common) (grp : Nat)
  /-- TMUL: Issues a dense tensor multiply-accumulate command into an open group. (R116) -/
  | tmul (c : CoreId) (g : Common) (f : TmulF)
  /-- TMULS: Issues a self-describing tile multiply into a group or the hash-indexed accumulator. (R119) -/
  | tmuls (c : CoreId) (g : Common) (f : TmulsF)
  /-- ACC_DRAIN: Issues a drain of closed-group rows through the fused epilogue to memory. (R121) -/
  | accDrain (c : CoreId) (g : Common) (f : DrainF)
  /-- VOP: Issues a vector operation over 64 lanes. (R123) -/
  | vop (c : CoreId) (g : Common) (f : VopF)
  /-- VOP_LD: Issues a 256-byte load into a vector register. (R124) -/
  | vopLd (c : CoreId) (g : Common) (v aV : Nat) (postInc : Bool) (imm : Word)
  /-- VOP_ST: Issues a 256-byte store of a vector register. (R124) -/
  | vopSt (c : CoreId) (g : Common) (v aV : Nat) (postInc : Bool) (imm : Word)
  /-- SEND: Issues an active-message send command to the message unit. (R125) -/
  | send (c : CoreId) (g : Common) (f : SendF)
  /-- RECV_ACK: Issues a command to pass messages of a ring and return their credits. (R127) -/
  | recvAck (c : CoreId) (g : Common) (queue nM1 : Nat)
  /-- DMA_GET: Issues a DMA into local memory, copying its descriptor at acceptance. (R129) -/
  | dmaGet (c : CoreId) (g : Common) (aDesc queue : Nat)
  /-- DMA_PUT: Issues a DMA out of local memory, copying its descriptor at acceptance. (R129) -/
  | dmaPut (c : CoreId) (g : Common) (aDesc queue : Nat)
  /-- TENSOR_COMMAND_START: The tensor unit starts its next queued command, making checks at start such as TMULS header checks. (R94) -/
  | tensorCommandStart (c : CoreId)
  /-- TENSOR_COMMAND_COMPLETE: A tensor command completes, freeing its queue entry and releasing its scoreboard count. (R98) -/
  | tensorCommandComplete (c : CoreId) (late : Nat)
  /-- VECTOR_COMMAND_START: The vector unit starts a command once its source registers are written. (R99) -/
  | vectorCommandStart (c : CoreId)
  /-- VECTOR_COMMAND_COMPLETE: A vector command completes and releases its queue entry and scoreboard count. (R99) -/
  | vectorCommandComplete (c : CoreId) (late : Nat)
  /-- CHECKER_VERDICT: The checker gives its verdict on a completed arithmetic command 32 cycles after completion. (R363) -/
  | checkerVerdict (c : CoreId) (rows cols refRows refCols : NMap Int) (q : Int)
  /-- SEND_START: The message unit starts a SEND, checks the handler and channel, and injects or waits for credits. (R264) -/
  | sendStart (c : CoreId)
  /-- RECV_ACK_START: The message unit starts a RECV.ACK, moving rp and holding the passed units. (R260) -/
  | recvAckStart (c : CoreId)
  /-- RP_STORE_START: The message unit applies a store to a ring's read pointer as a RECV.ACK of the messages passed. (R259) -/
  | rpStoreStart (c : CoreId)
  /-- MESSAGE_COMMAND_COMPLETE: A message-unit command completes and releases its queue entry. (R273) -/
  | messageCommandComplete (c : CoreId)
  /-- DMA_COMMAND_START: The DMA engine starts a command and checks its descriptor copy. (R324) -/
  | dmaCommandStart (c : CoreId)
  /-- DMA_GRANULE_COMPLETE: A 4 KiB granule is written and the resume offset advances; the last completes the command. (R327) -/
  | dmaGranuleComplete (c : CoreId) (ge : GranuleRes)
  /-- LAST_STATUS_READ: Reading a unit's last-status register clears its status-pending bit. (R67) -/
  | lastStatusRead (c : CoreId) (unit : Nat)
  /-- HARD_FAULT: A core detects an uncorrectable error in its own state and every unit stops within 2 cycles. (R81) -/
  | hardFault (c : CoreId)
  /-- HUB_STARVATION_GRANT: A request refused 64 consecutive cycles is granted ahead of the owner's classes 2 to 4. (R71) -/
  | hubStarvationGrant (loser : Loser)
  /-- NEAR_STARVATION_GRANT: A near-store request refused 16 NEAR cycles is granted ahead of the owner's classes. (R193) -/
  | nearStarvationGrant (loser : Loser)
  /-- ECC_WRITEBACK: A corrected word is written back in the next free cycle of its sub-bank. (R188) -/
  | eccWriteback (c : CoreId) (place row : Nat)
  /-- NEAR_REFRESH: An internal near-store bank is refreshed at its interval. (R194) -/
  | nearRefresh (loser : Loser) (wait : Nat)
  /-- NEAR_ROW_MAPPED: A failing near-store row is copied to a spare and its address switched. (R195) -/
  | nearRowMapped (c : CoreId) (lost : List Nat) (loser wait : Nat)
  /-- VERIFY_BLOCK: The verifier reads a listed block whole and compares it with its check word. (R201) -/
  | verifyBlock (c : CoreId) (flips : NMap Nat)
  /-- SWITCH_ENTRY_EXECUTE: A router executes the switch-program entry of the current counted step cycle. (R217) -/
  | switchEntryExecute (c : CoreId)
  /-- BEAT_ARRIVAL: A beat joins a scheduled input queue, asserting hold at four waiting beats. (R218) -/
  | beatArrival (c : CoreId) (port : Nat) (ecc : Ecc)
  /-- STEER_SKEW: A token or beat waits over 64 step cycles in a pairing buffer and the router raises STEER_SKEW. (R232) -/
  | steerSkew (c : CoreId)
  /-- ROUTER_PACKET_ARRIVAL: A router receives a packet, discards it if malformed, and routes it by dimension order. (R237) -/
  | routerPacketArrival (at_ : PktIn) (h : PktHead) (actual : Nat) (ecc : Ecc)
  /-- MULTICAST_COMPLETION: A completion flit reaches the multicast source after every branch delivered. (R241) -/
  | multicastCompletion (c : CoreId) (tag : Nat)
  /-- MESH_FLIP: A write to mesh.flip changes the epoch bit, refused while packets of the other bit are in flight. (R245) -/
  | meshFlip (value : Nat)
  /-- MESSAGE_FIRST_PACKET: The first packet of a message is checked and the message placed, held, handed to the combiner or discarded. (R256) -/
  | messageFirstPacket (c : CoreId) (h : PktHead) (units : List QWord)
  /-- MESSAGE_PACKET: A later packet of a placed message is written at its place; the message becomes complete. (R250) -/
  | messagePacket (c : CoreId) (h : PktHead) (units : List QWord)
  /-- REDUCE_ROOT_WRITE: The root writes its result into accumulator rows once no open group covers them. (R163) -/
  | reduceRootWrite (c : CoreId)
  /-- CREDIT_RETURN: A credit return reaches a sender's channel and restores its credits. (R262) -/
  | creditReturn (c : CoreId) (srcX srcY srcDev queue inc : Nat) (closed : Bool) (units at_ : Nat)
  /-- GEAR_LOAD_PACKET: A chairlift load packet writes a gear part into a slot's stores. (R280) -/
  | gearLoadPacket (c : CoreId) (fromEngine : Bool) (version slot target offset loadId : Nat) (data : List QWord)
  /-- GEAR_SEAL: A seal arrives; the slot becomes resident on a check match or empty on failure. (R281) -/
  | gearSeal (c : CoreId) (slot loadId check : Nat)
  /-- SCAN_OUT_COMPLETE: A region's core state records have been written to the save area. (R301) -/
  | scanOutComplete (ctx region : Nat)
  /-- TABLE_WALK_COMPLETE: A table walker completes a translation and fills the translation cache. (R316) -/
  | tableWalkComplete (c : CoreId) (va : Nat) (write corrupt : Bool)
  /-- FAULT_FILL_COMPLETE: The pager finishes filling a frame, writes the leaf present and releases waiting granules. (R317) -/
  | faultFillComplete (ctx page frame : Nat) (data : PageData)
  /-- REMOTE_FETCH_TIMEOUT: A peer or host fetch gets no reply within the timeout and is retried or abandoned. (R317) -/
  | remoteFetchTimeout (ctx page : Nat)
  /-- MIGRATION_COMPLETE: Granules in flight have drained and the pager copies the page and rewrites the leaf. (R319) -/
  | migrationComplete (ctx : Nat) (data : PageData)
  /-- ADMISSION: The read image is checked and, if admitted, reserved and the context becomes LOADED. (R343) -/
  | admission (ctx : Nat) (image : List Byte) (leases : List (Nat × Nat))
  /-- CTX_START: ctx.cmd.start moves a LOADED context to READY and joins its ready queue. (R347) -/
  | ctxStart (ctx : Nat)
  /-- CTX_STOP: ctx.cmd.stop stops the context at its next commit and drains it. (R347) -/
  | ctxStop (ctx : Nat)
  /-- CTX_PREEMPT_GATE: ctx.cmd.preempt 1 pre-empts the context at its next gate. (R350) -/
  | ctxPreemptGate (ctx : Nat)
  /-- CTX_PREEMPT_MID: ctx.cmd.preempt 2 stops issue at once and scans the context out mid-step. (R350) -/
  | ctxPreemptMid (ctx : Nat)
  /-- CTX_PARK: ctx.cmd.preempt 3 parks the context after its next commit with state kept in the cores. (R350) -/
  | ctxPark (ctx : Nat)
  /-- CTX_UNLOAD: ctx.cmd.unload frees a LOADED or FAILED context and its reservation. (R347) -/
  | ctxUnload (ctx : Nat)
  /-- CTX_KILL: ctx.cmd.kill moves a context to FAILED at once. (R347) -/
  | ctxKill (ctx : Nat)
  /-- CTX_RESHARD_GO: A write to ctx.reshard.go reads a supplementary image and re-shards the context. (R357) -/
  | ctxReshardGo (ctx : Nat)
  /-- CTX_RESHARD_CANCEL: A write of 2 to ctx.reshard.go cancels the re-shard before it is applied. (R356) -/
  | ctxReshardCancel (ctx : Nat)
  /-- QUANTUM_EXPIRY: A context's quantum expires, raising a scheduling event. (R351) -/
  | quantumExpiry (ctx : Nat)
  /-- PREEMPT_WAIT_EXPIRY: A gate pre-emption not committed in time becomes a mid-step pre-emption. (R350) -/
  | preemptWaitExpiry (ctx : Nat)
  /-- BLOCK_TIMEOUT: A wait lasting ctx.cur.block_us moves a RUNNING context to BLOCKED. (R347) -/
  | blockTimeout (ctx cause : Nat)
  /-- POLICY_DECISION: The owner policy module answers a scheduling event with a decision. (R353) -/
  | policyDecision (op ctx value : Nat)
  /-- DRAIN_COMPLETE: Held traffic of a draining context is acknowledged and it returns to LOADED. (R347) -/
  | drainComplete (ctx : Nat)
  /-- GATE_SETTLE: A region's gate settles once every core has reported and message counts balance. (R369) -/
  | gateSettle (ctx region : Nat) (flipA flipB : Bool)
  /-- GATE_TIMER_EXPIRY: The gate timer expires and unreported cores are stopped with CADENCE_DEVIATION. (R370) -/
  | gateTimerExpiry (ctx region : Nat)
  /-- STEP_COMMIT: A settled clean step with verified hold-area read-back commits and releases its traffic. (R373) -/
  | stepCommit (ctx region : Nat) (bad : Option CoreId)
  /-- GROOM_TEST_COMPLETE: A cell test ends in pass, fail or margin-only fail. (R390) -/
  | groomTestComplete (e : TestEnd) (rows : List (Nat × Nat × Nat))
  /-- CONTENTS_MOVE: Once all affected regions are parked, moving cells' contents are copied at one epoch. (R405) -/
  | contentsMove (lostBlocks : List (CoreId × Bool × Nat)) (lostShadows : List Nat)
  /-- PARK_WAIT_TIMEOUT: A region not parked within groom.park_wait_us defers the groomer cell or is pre-empted mid-step. (R405) -/
  | parkWaitTimeout (ctx region : Nat)
  /-- FENCE_CMD: A write to fence.cmd requests the fence of a named cell after a clean gate. (R419) -/
  | fenceCmd (value : Nat)
  /-- SCRUB_READ: The patrol scrubber reads and verifies a block at its period. (R398) -/
  | scrubRead (near : Option (CoreId × Nat × Nat)) (blk : Nat) (e : ScrubEnd)
  /-- GROOM_CELL_START: recover.groom_cell 1 makes the named cell the next targeted test. (R399) -/
  | groomCellStart (px py : Nat)
  /-- RECOVER_CHECKPOINT: recover.checkpoint recovers a FAILED context from its newest checkpoint. (R416) -/
  | recoverCheckpoint (auto : Option Nat) (localOk : Bool) (buddy : Option Machine.Ckpt)
  /-- REINIT_CONTEXT: recover.reinit target 1 rolls back every region of a context and resumes it. (R417) -/
  | reinitContext (ctx : Nat)
  /-- REINIT_QUEUE_PAIR: recover.reinit target 2 returns a queue pair to its initial state. (R417) -/
  | reinitQueuePair (n : Nat)
  /-- ALERT_CAUSE_WRITE: Writing 1 to alert.cause bits clears them and may deassert ALERT_N. (R414) -/
  | alertCauseWrite (value : Nat)
  /-- PPS_IN_EDGE: A PPS_IN rising edge is captured unless PTP holds the capture unit. (R415) -/
  | ppsInEdge (ptp : Bool)
  /-- LINK_SIGNAL_DETECT: A signal on a DOWN link starts training. (R423) -/
  | linkSignalDetect (n : Nat)
  /-- LINK_RETRY_TIMER: A DOWN enabled link retries training every link.retry_ms. (R423) -/
  | linkRetryTimer (n : Nat)
  /-- LINK_TRAINED: Lanes train and the link enters IDENT at the widest width, degraded if below x4. (R424) -/
  | linkTrained (n lanes : Nat)
  /-- LINK_TRAIN_FAILED: No lane trains within 500 ms and the link goes DOWN. (R423) -/
  | linkTrainFailed (n : Nat)
  /-- IDENT_TIMEOUT: No identity record arrives within 10 ms of IDENT and the link goes DOWN. (R423) -/
  | identTimeout (n : Nat)
  /-- LINK_FRAME_TIMEOUT: No valid frame for 50 µs takes the link DOWN to retrain. (R424) -/
  | linkFrameTimeout (n : Nat)
  /-- FEC_EVALUATION: Corrected-symbol counts over 60 s switch a clean RS link to no-FEC mode. (R422) -/
  | fecEvaluation (n : Nat) (clean : Bool)
  /-- LINK_PACKET_FRAME: A packet frame is accepted in sequence and its packet passed to the mesh or released traffic delivered. (R429) -/
  | linkPacketFrame (n : Nat) (f : FrameHdr) (p : Machine.LinkPay)
  /-- LINK_ACK_FRAME: An ack frame frees acknowledged frames from the replay buffer. (R429) -/
  | linkAckFrame (n : Nat) (f : FrameHdr)
  /-- LINK_NAK_FRAME: A nak frame makes the sender resend from the named sequence. (R429) -/
  | linkNakFrame (n : Nat) (f : FrameHdr)
  /-- LINK_CREDIT_FRAME: A credit frame returns frame buffers for a channel. (R430) -/
  | linkCreditFrame (n : Nat) (f : FrameHdr)
  /-- LINK_IDLE_FRAME: An idle frame keeps the link alive. (R424) -/
  | linkIdleFrame (n : Nat) (f : FrameHdr)
  /-- LINK_ACK_TIMER: The receiver sends an ack at least every 64 frames or 200 ns. (R429) -/
  | linkAckTimer (n : Nat)
  /-- IDENT_FRAME: An identity record is checked for agreement, setting link state and time offset. (R435) -/
  | identFrame (n : Nat) (f : FrameHdr) (r : IdentRec)
  /-- IDENT_TIMER: An identity record is sent every link.ident_ms. (R432) -/
  | identTimer (n : Nat)
  /-- MARKER_FRAME: A checkpoint marker frees input-log entries at or below its position. (R454) -/
  | markerFrame (n : Nat) (f : FrameHdr) (step idx : Nat)
  /-- RESIDENCY_FRAME: A residency frame reports a peer context resident or not. (R441) -/
  | residencyFrame (n : Nat) (f : FrameHdr) (here : Bool)
  /-- RESIDENCY_RESEND: Unacknowledged residency frames are resent every link.ident_ms. (R441) -/
  | residencyResend (ctx : Nat) (late : List Nat)
  /-- RELAY_FRAME: A relay frame piece is forwarded or reassembled into a DOP fragment. (R519) -/
  | relayFrame (n : Nat) (f : FrameHdr) (p : RelayPiece)
  /-- E2E_RESEND_TIMEOUT: An unacknowledged released payload is resent after link.e2e_timeout_us. (R440) -/
  | e2eResendTimeout (ctx dev : Nat)
  /-- REPLAY_REQUEST: A replay request makes the sender resend log entries above the delivered position. (R455) -/
  | replayRequest (n : Nat) (f : FrameHdr) (after : Option (Nat × Nat))
  /-- MEMBERSHIP_ORDER: A membership order is checked and, if accepted, installs the epoch and bitmap. (R448) -/
  | membershipOrder (link : Option (Nat × FrameHdr)) (order : List Byte)
  /-- MEMBERSHIP_KEYS_WRITE: A write of membership.keys installs or removes manager keys subject to k. (R446) -/
  | membershipKeysWrite (keys : List Byte)
  /-- MEMBERSHIP_K_WRITE: A write of membership.k sets the signature quorum. (R446) -/
  | membershipKWrite (k : Nat)
  /-- LINK_RETRAIN: link.N.cmd 1 retrains the link. (R425) -/
  | linkRetrain (n : Nat)
  /-- LINK_FENCE: link.N.cmd 2 puts the link in FENCED. (R423) -/
  | linkFence (n : Nat)
  /-- LINK_UNFENCE: link.N.cmd 3 returns a fenced link to IDENT. (R423) -/
  | linkUnfence (n : Nat)
  /-- LEASE_WRITE: A write of a lease entry grants and reserves frames to a remote context. (R444) -/
  | leaseWrite (sub value : Nat)
  /-- CKPT_GO: ckpt.go requests a checkpoint at a given step. (R457) -/
  | ckptGo (step : Nat)
  /-- CKPT_PERIOD_TIMER: A checkpoint is requested every ckpt.period_s. (R457) -/
  | ckptPeriodTimer (ctx : Nat)
  /-- BUDDY_ACK: The buddy's acknowledgement completes the checkpoint and markers are sent. (R457) -/
  | buddyAck (ctx : Nat) (code : Code)
  /-- BUDDY_COPY_RECEIVE: A buddy checkpoint copy is stored or refused with NO_MEMORY. (R459) -/
  | buddyCopyReceive (k : Machine.Ckpt)
  /-- ARP_REQUEST: An ARP request for the device's IPv4 address is answered. (R465) -/
  | arpRequest (target asker askerMac : Nat)
  /-- NEIGHBOUR_SOLICITATION: An ICMPv6 Neighbour Solicitation for the device's address is answered. (R465) -/
  | neighbourSolicitation (target asker askerMac : Nat)
  /-- LLDP_RECEIVE: A received LLDP frame updates eth.lldp.peer. (R468) -/
  | lldpReceive (chassis port : Nat)
  /-- PFC_PAUSE_RECEIVE: A received PFC pause halts transmission on a priority. (R467) -/
  | pfcPauseReceive (prio : Nat) (pause : Bool)
  /-- BCT_SEND_RECEIVE: A SEND on a queue pair is queued as a 64-byte BCT command or refused. (R476) -/
  | bctSendReceive (n len : Nat) (w : Machine.BctWord) (buffer : Nat)
  /-- BCT_NOP: BCT NOP records OK. (R477) -/
  | bctNop (n : Nat)
  /-- WINDOW_SET: BCT WINDOW_SET registers a host window. (R475) -/
  | windowSet (n : Nat)
  /-- WINDOW_CLEAR: BCT WINDOW_CLEAR clears a host window. (R475) -/
  | windowClear (n : Nat)
  /-- BCT_LOAD: BCT LOAD requests a context load as ctx.load.go. (R477) -/
  | bctLoad (n : Nat)
  /-- BCT_START: BCT START starts the context. (R477) -/
  | bctStart (n : Nat)
  /-- BCT_STOP: BCT STOP stops the context at its next commit. (R477) -/
  | bctStop (n : Nat)
  /-- BCT_PREEMPT: BCT PREEMPT pre-empts or parks the context by mode. (R477) -/
  | bctPreempt (n : Nat)
  /-- BCT_UNLOAD: BCT UNLOAD unloads the context. (R477) -/
  | bctUnload (n : Nat)
  /-- BCT_GEAR_LOAD: BCT GEAR_LOAD requests a gear load as gear.load.go. (R477) -/
  | bctGearLoad (n : Nat)
  /-- PEER_SET: BCT PEER_SET writes a peer table entry. (R477) -/
  | peerSet (n : Nat)
  /-- BCT_CHECKPOINT: BCT CHECKPOINT requests a checkpoint as ckpt.go. (R477) -/
  | bctCheckpoint (n : Nat)
  /-- MIRROR: BCT MIRROR enables or disables status-block mirroring to a window. (R479) -/
  | mirror (n : Nat)
  /-- BCT_CANCEL: BCT CANCEL cancels the context's queued or running long operation. (R477) -/
  | bctCancel (n : Nat)
  /-- STATUS_BLOCK_TIMER: The status block is updated at least once per second while resident. (R478) -/
  | statusBlockTimer (n : Nat)
  /-- RDMA_READ_REQUEST: An RDMA READ of the status block is served or refused with a NAK. (R472) -/
  | rdmaReadRequest (n rkey offset bytes : Nat)
  /-- RDMA_WRITE_REQUEST: An RDMA WRITE addressed to the device is refused and the queue pair errs. (R472) -/
  | rdmaWriteRequest (n : Nat)
  /-- ATOMIC_REQUEST: An arriving atomic request is refused with a remote-invalid-request NAK. (R470) -/
  | atomicRequest (n : Nat)
  /-- RDMA_READ_RESPONSE: Data arrives for an RDMA READ that the device issued for a load or host page. (R321) -/
  | rdmaReadResponse (n done : Nat)
  /-- QP_RETRY_EXHAUSTED: A queue pair's retry or RNR retry count is exhausted and it enters error. (R473) -/
  | qpRetryExhausted (n : Nat)
  /-- CNP_RECEIVE: A congestion notification cuts the queue pair's rate one table step. (R474) -/
  | cnpReceive (n : Nat)
  /-- ECN_RECOVER_TIMER: No notification for eth.ecn.recover_us moves the rate back one step. (R474) -/
  | ecnRecoverTimer (n : Nat)
  /-- STEER_FLIP: eth.steer.flip makes the next steering bank current or is refused. (R481) -/
  | steerFlip (value : Nat)
  /-- STEERED_DATAGRAM: A matched UDP datagram is delivered as an active message or discarded. (R483) -/
  | steeredDatagram (g : Datagram)
  /-- SENDQ_TRANSMIT: A released reply message is sent as a UDP datagram and credits returned. (R484) -/
  | sendqTransmit (q : Nat)
  /-- SENDQ_HOLD_TIMEOUT: A reply held longer than eth.sendq.hold_ms while the port is down is dropped. (R484) -/
  | sendqHoldTimeout (q : Nat)
  /-- PTP_EVENT_MESSAGE: A PTP event message is timestamped for TIME discipline. (R485) -/
  | ptpEventMessage (masterTime : Nat)
  /-- TIME_DISCIPLINED: TIME first becomes disciplined, clearing uncertainty and re-dating watch records. (R401) -/
  | timeDisciplined (time : Nat)
  /-- DOP_FRAGMENT: A DOP fragment is received, checked and reassembled into a message. (R504) -/
  | dopFragment (path : DopPath) (vlan : Nat) (fragment : List Byte) (buffer : Nat)
  /-- DOP_REASSEMBLY_TIMEOUT: A message whose fragments do not all arrive within 100 ms is discarded. (R504) -/
  | dopReassemblyTimeout (path : DopPath) (session seq : Nat)
  /-- HELLO: A HELLO is verified and answered with ACCEPT or an anonymous refusal. (R510) -/
  | hello (path : DopPath) (body : List Byte)
  /-- FINISH: A FINISH completes the session handshake. (R510) -/
  | finish (session : Nat) (mac : List Byte)
  /-- FINISH_TIMEOUT: A session without a valid FINISH within 1 s of ACCEPT is discarded. (R510) -/
  | finishTimeout (session : Nat)
  /-- CLOSE: A CLOSE ends a session and discards its stage and transfers. (R512) -/
  | close (session : Nat)
  /-- SESSION_IDLE_TIMEOUT: A session idle for dop.session_idle_s closes. (R512) -/
  | sessionIdleTimeout (session : Nat)
  /-- READ: DOP READ returns an object's value. (R506) -/
  | read (session : Option Nat) (r : OpRec)
  /-- WRITE: DOP WRITE writes an object under its apply class, staged or with quiesce as flagged. (R495) -/
  | write (session : Option Nat) (r : OpRec) (data : List Byte)
  /-- COMMIT: DOP COMMIT re-checks and applies all staged writes or none. (R501) -/
  | commit (session : Option Nat) (r : OpRec)
  /-- ABORT: DOP ABORT discards the session's stage. (R501) -/
  | abort (session : Option Nat) (r : OpRec)
  /-- SEG_READ: DOP SEG_READ reads a segment of a DOMAIN object from a snapshot. (R515) -/
  | segRead (session : Option Nat) (r : OpRec)
  /-- SEG_WRITE: DOP SEG_WRITE fills a DOMAIN write buffer and applies it at the last segment. (R514) -/
  | segWrite (session : Option Nat) (r : OpRec) (data : List Byte)
  /-- SEG_TRANSFER_TIMEOUT: A SEG_WRITE transfer or SEG_READ snapshot idle for 10 s is discarded. (R514) -/
  | segTransferTimeout (session : Nat) (snap : Option (Nat × Nat))
  /-- DOMAIN_RDMA: DOP DOMAIN_RDMA starts moving a DOMAIN value through a management queue pair. (R516) -/
  | domainRdma (session : Option Nat) (r : OpRec) (data : List Byte)
  /-- DOMAIN_RDMA_COMPLETE: The RDMA transfer ends and the response with its CRC is sent. (R516) -/
  | domainRdmaComplete (session : Nat) (data : List Byte)
  /-- SUBSCRIBE: DOP SUBSCRIBE adds or removes a notification index range. (R517) -/
  | subscribe (session : Option Nat) (r : OpRec)
  /-- DESCRIBE: DOP DESCRIBE returns an object's type, access, role, apply class and length. (R506) -/
  | describe (session : Option Nat) (r : OpRec)
  /-- ACK: DOP ACK acknowledges a NOTIFY. (R517) -/
  | ack (session : Option Nat) (r : OpRec)
  /-- NOTIFY_RESEND_TIMER: An unacknowledged NOTIFY is resent each second and dropped after five sendings. (R517) -/
  | notifyResendTimer (session seq : Nat)
  /-- DOP_KEYS_WRITE: A write of a dop.keys entry installs or removes a client key, closing its sessions. (R509) -/
  | dopKeysWrite (sub : Nat) (entry : List Byte)
  /-- REGISTER_WRITE: A write to an object with no behaviour of its own, such as a counter clear or parameter. (R495) -/
  | registerWrite (index sub value : Nat)
  /-- I3C_READ: An I3C private write with op READ requests an allowed object. (R523) -/
  | i3cRead (index sub : Nat)
  /-- I3C_WRITE: An I3C private write with op WRITE, accepted only for alert.cause. (R523) -/
  | i3cWrite (index sub : Nat) (value : List Byte)
  /-- I3C_DYNAMIC_ADDRESS: ENTDAA or SETDASA assigns the target a dynamic address. (R522) -/
  | i3cDynamicAddress (address : Nat)
  /-- FW_STAGE: A write to sec.fw.stage verifies firmware and writes it to the other slot as next. (R532) -/
  | fwStage (image : List Byte)
  /-- CORE_FW_STAGE: A write to sec.core_fw.stage verifies core firmware and stages it. (R532) -/
  | coreFwStage (image : List Byte)
  /-- SVN_COMMIT: sec.svn.commit advances a fused SVN to the image in force. (R532) -/
  | svnCommit (kind : Nat)
  /-- POLICY_WRITE: A write to a sec.policy slot verifies and stores or removes a policy module. (R533) -/
  | policyWrite (slot : Nat) (image : List Byte)
  /-- POLICY_MODULE_FAULT: A faulting policy module is unloaded and its events pass to the default policy. (R534) -/
  | policyModuleFault (slot : Nat)
  /-- OWNER_ROTATE: sec.owner.rotate installs a new owner root key and re-signs the saved set. (R535) -/
  | ownerRotate (rotation : List Byte)
  /-- ATTEST_NONCE: A write to sec.attest.nonce sets the session's attestation nonce. (R542) -/
  | attestNonce (session : Nat) (nonce : List Byte)
  /-- LC_SHIP: sec.lc.ship moves the device to SHIPPED. (R538) -/
  | lcShip (session : Nat) (token : List Byte)
  /-- LC_CLAIM: sec.lc.claim installs the owner root key and moves to OWNED. (R538) -/
  | lcClaim (session : Nat) (key : List Byte)
  /-- LC_RETURN: sec.lc.return moves to RETURNED and erases owner secrets. (R540) -/
  | lcReturn (session : Nat) (token : List Byte)
  /-- LC_SCRAP: sec.lc.scrap moves to SCRAPPED and destroys root_secret. (R538) -/
  | lcScrap (session : Nat) (token : List Byte)
  /-- TAP_UNLOCK: sec.tap.unlock opens the test access port until the next start. (R541) -/
  | tapUnlock (session value : Nat)
  /-- SYS_RESET_RELEASE: The release of SYS_RESET_N samples straps, locks PLLs and begins a start. (R557) -/
  | sysResetRelease (straps : Nat) (railsOk : Bool)
  /-- CELL_ROW_RESET_RELEASE: A physical cell row leaves reset in its timed slot. (R553) -/
  | cellRowResetRelease (py : Nat)
  /-- MGMT_FW_RUN: Management firmware runs, verifies the defect map, installs fences and applies the saved set. (R557) -/
  | mgmtFwRun (mapOk : Bool)
  /-- MEMORY_TEST_COMPLETE: The memory test ends, defects are recorded and the device enters service. (R561) -/
  | memoryTestComplete (finds : Machine.TestFinds)
  /-- CORE_CLOCK_WRITE: A write to power.core_clock_khz changes clock and VCORE target while no context is resident. (R552) -/
  | coreClockWrite (khz : Nat) (quiesce : Bool)
  /-- POWER_SAMPLE: The power manager compares averaged power with the cap and adjusts the throttle level. (R564) -/
  | powerSample (watts vcore : Nat)
  /-- THERMAL_SAMPLE: Sensors are sampled and thermal warnings, throttling and refresh rates applied. (R569) -/
  | thermalSample (logic stack tier2 : List Int) (hotPkgs : Nat)
  /-- RESERVED_OPCODE: An instruction word with a reserved major opcode, such as a zeroed word, is refused with RESERVED_NONZERO and the core stops. (R91) -/
  | reservedOpcode (word : ReservedWord)
  /-- TEST_ACCESS_PORT_CYCLE: TCK, TMS, TDI or TRST_N activity drives the IEEE 1149.1 port, answering BYPASS and IDCODE or more as the life-cycle state allows. (R589) -/
  | testAccessPortCycle (tms tdi trst : Bool)
  /-- RELAY_REASSEMBLY_TIMEOUT: A relayed DOP fragment whose pieces do not all arrive within 10 ms is discarded by the target. (R519) -/
  | relayReassemblyTimeout (origin relayId : Nat)
  /-- MEMTEST_COMPLETE: A tier-2 memory test on demand finishes marching its frames and its long-operation status word reads done. (R399) -/
  | memtestComplete (failed : List Nat)
  /-- CKPT_COPY_COMPLETE: The pager finishes copying the segment pages into the checkpoint slot, which is sealed and sent to the buddy, or completed at once when ckpt.buddy is 0xFFFF. (R457) -/
  | ckptCopyComplete (ctx : Nat)
  /-- CONTENTS_COPY_COMPLETE: A pre-empted context's local contents finish copying to its save area, so another context may be placed on its cells. (R199) -/
  | contentsCopyComplete (ctx : Nat)
  /-- ROCE_ACK_RECEIVE: A RoCEv2 acknowledgement arrives for an RDMA WRITE that the device issued, freeing the held granules' hold space. (R332) -/
  | roceAckReceive (n granules : Nat)
  /-- GEAR_LOAD_GO: A write of 1 to gear.load.go requests a chairlift load over a rectangle. (R282) -/
  | gearLoadGo
  /-- GEAR_LOAD_CANCEL: A write of 2 to gear.load.go cancels the queued or running gear load. (R356) -/
  | gearLoadCancel
  /-- MIGRATE_GO: A write to pager.migrate.go requests migration of a page. (R319) -/
  | migrateGo
  /-- CTX_LOAD_GO: A write of 1 to ctx.load.go checks and queues a context load. (R606) -/
  | ctxLoadGo
  /-- CTX_LOAD_CANCEL: A write of 2 to ctx.load.go cancels a queued or running load. (R356) -/
  | ctxLoadCancel
  /-- POLICY_TIMEOUT: The policy module fails to answer in time and the default policy applies. (R353) -/
  | policyTimeout
  /-- GROOM_TEST_START: The groomer interval expires and the next cell test starts or the cell is deferred. (R394) -/
  | groomTestStart
  /-- WATCH_EXPIRY: A watch record older than 24 h is marked closed. (R401) -/
  | watchExpiry
  /-- MOVE_COMPLETE: The move's copies end, the epoch changes and parked regions resume. (R407) -/
  | moveComplete
  /-- MEMTEST_START: recover.memtest 1 starts a tier-2 memory test of free frames. (R399) -/
  | memtestStart
  /-- MEMTEST_CANCEL: recover.memtest 2 cancels the memory test. (R356) -/
  | memtestCancel
  /-- GROOM_CELL_CANCEL: recover.groom_cell 2 cancels the targeted cell test. (R356) -/
  | groomCellCancel
  /-- REINIT_PAGER: recover.reinit target 3 drains walkers, flushes caches and rebuilds free lists. (R417) -/
  | reinitPager
  /-- REINIT_ETHERNET: recover.reinit target 4 retrains the port and resets every queue pair. (R417) -/
  | reinitEthernet
  /-- WARM_RESET: recover.warm_reset starts a warm device reset. (R417) -/
  | warmReset
  /-- CKPT_CANCEL: A cancellation ends a checkpoint, keeping the previous one. (R356) -/
  | ckptCancel
  /-- ETH_PORT_DOWN: The Ethernet port goes down; queue pairs retry and DOP moves to relay. (R487) -/
  | ethPortDown
  /-- ETH_PORT_UP: The port retrains, keeps RTS queue pairs and sends fresh LLDP. (R487) -/
  | ethPortUp
  /-- LLDP_TIMER: An LLDP frame is transmitted every 30 s. (R468) -/
  | lldpTimer
  /-- QP_TO_RTS: eth.qp.cmd 1 moves the queue pair to RTS and changes its status rkey. (R471) -/
  | qpToRts
  /-- QP_TO_RESET: eth.qp.cmd 2 moves the queue pair to RESET. (R471) -/
  | qpToReset
  /-- PPS_OUT_SECOND: PPS_OUT emits a 1 µs pulse at each second of disciplined TIME. (R485) -/
  | ppsOutSecond
  /-- DICT_SAVE: dict.save stores and signs the saved set. (R499) -/
  | dictSave
  /-- CFG_RACK_FLIP: cfg.rack.flip makes the next rack configuration bank current and sends identity records. (R521) -/
  | cfgRackFlip
  /-- I3C_PRIVATE_READ: An I3C private read returns the status, length and value of the last request. (R523) -/
  | i3cPrivateRead
  /-- PWR_GOOD_ASSERT: PWR_GOOD is asserted once clocks and rails are stable. (R547) -/
  | pwrGoodAssert
  /-- PWR_GOOD_DEASSERT: PWR_GOOD deasserts and the device stops every clock within 1 µs. (R549) -/
  | pwrGoodDeassert
  /-- SYS_RESET_ASSERT: SYS_RESET_N asserted with supplies held starts a warm reset. (R417) -/
  | sysResetAssert
  /-- MGMT_RESET_RELEASE: The management complex leaves reset and runs the boot chain. (R530) -/
  | mgmtResetRelease
  /-- MEMORY_INIT_COMPLETE: LPDDR6 training and near-store initialisation end and the memory test begins. (R557) -/
  | memoryInitComplete
  /-- VCORE_TARGET_MET: VCORE stays at the target for 100 µs and the CORE clock is raised. (R551) -/
  | vcoreTargetMet
  /-- VCORE_TARGET_TIMEOUT: The VCORE target is not met within 50 ms and the clock is held limited. (R551) -/
  | vcoreTargetTimeout
  /-- VCORE_DROOP: VCORE more than 15 mV below target for 1 µs throttles every region to level 8. (R550) -/
  | vcoreDroop
  /-- RAIL_FAULT: A rail leaves its window while running; clocks stop and the device starts warm. (R550) -/
  | railFault
  /-- PLL_UNLOCK: A PLL loses lock and is handled as a rail fault. (R550) -/
  | pllUnlock
  /-- VCORE_OVERCURRENT: VCORE current above the grade maximum for 1 µs throttles every region to level 8. (R567) -/
  | vcoreOvercurrent
  /-- THERMAL_TRIP: A sensor at 110 °C asserts THERM_TRIP_N and stops every clock. (R570) -/
  | thermalTrip
  /-- EVENT_RATE_SECOND: At each whole second of TIME the per-code event counts restart at 0. (R600) -/
  | eventRateSecond
  /-- LOCKSTEP_DISAGREEMENT: The management complex's lock-stepped pairs disagree, forcing a warm restart and, if they still disagree, PCYC_REQ_N with cause 1. (R418) -/
  | lockstepDisagreement
  /-- ALERT_MIN_WIDTH_EXPIRY: ALERT_N, held for its 10 µs minimum after its cause bits were already cleared, is deasserted. (R414) -/
  | alertMinWidthExpiry
deriving DecidableEq, Repr

end Sys2Proof
end

