-- ==== Sys2Proof/WellFormed.lean ====
section
/-! DEFINITION. Which commands are well formed: every operand within the field that the specification gives it. -/

namespace Sys2Proof

/-- A number fits a field of w bits. -/
def fits (n w : Nat) : Bool := decide (n < 2 ^ w)

/-- A logical core of the grid (R19, R20). -/
def coreOk (c : CoreId) : Bool := decide (c.x < 60) && decide (c.y < 64)

/-- The common fields of an instruction word (R89). -/
def commonOk (g : Common) : Bool := fits g.guardIdx 5 && fits g.sb 3

/-- The fields of TMUL (R116). -/
def tmulOk (f : TmulF) : Bool :=
  fits f.fmtA 4 && fits f.fmtB 4 && fits f.aA 4 && fits f.aB 4 && fits f.aS 4 && fits f.bmode 2 && fits f.grp 3 && fits f.row 8
    && fits f.rowsM1 8 && fits f.sStride 5

/-- The fields of TMULS (R119). -/
def tmulsOk (f : TmulsF) : Bool :=
  fits f.fmtB 4 && fits f.aA 4 && fits f.aB 4 && fits f.aS 4 && fits f.grp 3 && fits f.row 8 && fits f.budgetM1 8 && fits f.sStride 5

/-- The fields of ACC.DRAIN (R121). -/
def drainOk (f : DrainF) : Bool :=
  fits f.fmtOut 4 && fits f.aD 4 && fits f.aScale 4 && fits f.aBias 4 && fits f.scaleMode 2 && fits f.act 3 && fits f.rnd 2
    && fits f.grp 3 && fits f.row 8 && fits f.rowsM1 8

/-- The fields of VOP (R123). -/
def vopOk (f : VopF) : Bool :=
  fits f.vd 5 && fits f.va 5 && fits f.vb 5 && fits f.vc 5 && fits f.sB 5 && fits f.fn 8

/-- The fields of SEND (R125). -/
def sendOk (f : SendF) : Bool :=
  fits f.aP 4 && fits f.sDest 5 && fits f.queue 4 && fits f.handler 8 && fits f.length 9 && fits f.sUser 5

/-- A transport queue pair: host 0 to 16,383, DOMAIN 16,384 to 16,639 (R469, R516). -/
def qpOk (n : Nat) : Bool := decide (n < 16640)

/-- The fields of a DOP operation record (R505). -/
def opOk (op : Nat) (r : OpRec) : Bool := (r.op = op || r.op = 0 || decide (10 < r.op)) && fits r.op 8 && fits r.index 16 && fits r.sub 8 && fits r.length 16 && fits r.arg 32 && fits r.reqId 32

/-- The fields of a frame header (R428). -/
def frameOk (f : FrameHdr) : Bool :=
  fits f.version 8 && fits f.kind 4 && fits f.vc 2 && fits f.sub 1 && fits f.flits 5 && fits f.seq 12 && fits f.ack 12 && fits f.epoch 32
    && fits f.srcDev 16 && fits f.srcCtx 14 && fits f.dstCtx 14 && fits f.step 32 && fits f.relIdx 32 && fits f.credit 10
    && fits f.creditVc 2 && fits f.creditSub 1 && fits f.poison 2 && fits f.aux 48

/-- Retries of bursts that failed link error detection: one to three each (R305). -/
def burstsOk (l : List Nat) : Bool := l.all fun n => decide (1 ≤ n) && decide (n ≤ 3)

/-- How a granule ends (R305, R321, R325). -/
def granuleOk (ge : GranuleEnd) : Bool :=
  match ge with
  | .moved _ retries _ => burstsOk retries
  | .blockFail at_ _ _ => decide (at_ < 4096)
  | .remoteTimeout => true

/-- Whether a command is well formed. -/
def Instr.wf (i : Instr) : Bool :=
  match i with
  | .nop c g => coreOk c && commonOk g
  | .alu c g sD sA fn sB => coreOk c && commonOk g && fits sD 5 && fits sA 5 && fits fn 5 && fits sB 5
  | .alui c g sD sA fn _ => coreOk c && commonOk g && fits sD 5 && fits sA 5 && fits fn 5
  | .cmp c g pD sA sB cond => coreOk c && commonOk g && fits pD 3 && fits sA 5 && fits sB 5 && fits cond 3
  | .cmpi c g pD sA cond _ => coreOk c && commonOk g && fits pD 3 && fits sA 5 && fits cond 3
  | .plog c g pD srcA srcB op _ => coreOk c && commonOk g && fits pD 3 && fits srcA 5 && fits srcB 5 && fits op 3
  | .br c g sLink target => coreOk c && commonOk g && fits sLink 5 && fits target 12
  | .brr c g sLink sT => coreOk c && commonOk g && fits sLink 5 && fits sT 5
  | .ld c g sR aR size _ _ _ _ => coreOk c && commonOk g && fits sR 5 && fits aR 4 && fits size 2
  | .st c g sR aR size _ _ => coreOk c && commonOk g && fits sR 5 && fits aR 4 && fits size 2
  | .aset c g aD sX _ => coreOk c && commonOk g && fits aD 4 && fits sX 5
  | .aoff c g aD sX _ => coreOk c && commonOk g && fits aD 4 && fits sX 5
  | .aadd c g aD sX _ => coreOk c && commonOk g && fits aD 4 && fits sX 5
  | .amov c g aD aS => coreOk c && commonOk g && fits aD 4 && fits aS 4
  | .aget c g sX aS => coreOk c && commonOk g && fits sX 5 && fits aS 4
  | .ainv c g aD => coreOk c && commonOk g && fits aD 4
  | .gate c g _ => coreOk c && commonOk g
  | .shift c g gear _ entry => coreOk c && commonOk g && fits gear 2 && fits entry 12
  | .steer c g sTok port => coreOk c && commonOk g && fits sTok 5 && fits port 3
  | .chkRead c g sD sel => coreOk c && commonOk g && fits sD 5 && fits sel 3
  | .waitq c g sD mode _ qmask => coreOk c && commonOk g && fits sD 5 && fits mode 1 && fits qmask 16
  | .dmaWait c g sD qmask => coreOk c && commonOk g && fits sD 5 && fits qmask 8
  | .accOpen c g grp base rowsM1 init aBias => coreOk c && commonOk g && fits grp 3 && fits base 8 && fits rowsM1 8 && fits init 2 && fits aBias 4
  | .accClose c g grp => coreOk c && commonOk g && fits grp 3
  | .tmul c g f => coreOk c && commonOk g && tmulOk f
  | .tmuls c g f => coreOk c && commonOk g && tmulsOk f
  | .accDrain c g f => coreOk c && commonOk g && drainOk f
  | .vop c g f => coreOk c && commonOk g && vopOk f
  | .vopLd c g v aV _ _ => coreOk c && commonOk g && fits v 5 && fits aV 4
  | .vopSt c g v aV _ _ => coreOk c && commonOk g && fits v 5 && fits aV 4
  | .send c g f => coreOk c && commonOk g && sendOk f
  | .recvAck c g queue nM1 => coreOk c && commonOk g && fits queue 4 && fits nM1 4
  | .dmaGet c g aDesc queue => coreOk c && commonOk g && fits aDesc 4 && fits queue 3
  | .dmaPut c g aDesc queue => coreOk c && commonOk g && fits aDesc 4 && fits queue 3
  | .tensorCommandStart c => coreOk c
  | .tensorCommandComplete c _ => coreOk c
  | .vectorCommandStart c => coreOk c
  | .vectorCommandComplete c _ => coreOk c
  | .checkerVerdict c _ _ _ _ _ => coreOk c
  | .sendStart c => coreOk c
  | .recvAckStart c => coreOk c
  | .rpStoreStart c => coreOk c
  | .messageCommandComplete c => coreOk c
  | .dmaCommandStart c => coreOk c
  | .dmaGranuleComplete c ge => coreOk c && granuleOk ge.ends
  | .lastStatusRead c unit => coreOk c && fits unit 2
  | .hardFault c => coreOk c
  | .hubStarvationGrant loser => coreOk loser.core && decide (loser.unit ≤ 2)
  | .nearStarvationGrant loser => coreOk loser.core && decide (loser.unit ≤ 2)
  | .eccWriteback c place row => coreOk c && decide (place ≤ 4) && fits row 15
  | .nearRefresh loser _ => coreOk loser.core && decide (loser.unit ≤ 2)
  | .nearRowMapped c _ loser _ => coreOk c && decide (loser ≤ 2)
  | .verifyBlock c _ => coreOk c
  | .switchEntryExecute c => coreOk c
  | .beatArrival c port _ => coreOk c && decide (port ≤ 4)
  | .steerSkew c => coreOk c
  | .routerPacketArrival at_ _ _ _ => coreOk at_.core && decide (at_.port ≤ 8)
  | .multicastCompletion c _ => coreOk c
  | .meshFlip _ => true
  | .messageFirstPacket c _ _ => coreOk c
  | .messagePacket c _ _ => coreOk c
  | .reduceRootWrite c => coreOk c
  | .creditReturn c _ _ _ _ _ _ _ _ => (coreOk c || c.x == 0xF0)
  | .gearLoadPacket c _ _ slot _ _ _ _ => coreOk c && fits slot 2
  | .gearSeal c slot _ _ => coreOk c && fits slot 2
  | .scanOutComplete ctx region => fits ctx 14 && fits region 6
  | .tableWalkComplete c _ _ _ => coreOk c
  | .faultFillComplete ctx _ _ data => fits ctx 14 && burstsOk data.retries
  | .remoteFetchTimeout ctx _ => fits ctx 14
  | .migrationComplete ctx data => fits ctx 14 && burstsOk data.retries
  | .admission ctx _ _ => fits ctx 14
  | .ctxStart ctx => fits ctx 14
  | .ctxStop ctx => fits ctx 14
  | .ctxPreemptGate ctx => fits ctx 14
  | .ctxPreemptMid ctx => fits ctx 14
  | .ctxPark ctx => fits ctx 14
  | .ctxUnload ctx => fits ctx 14
  | .ctxKill ctx => fits ctx 14
  | .ctxReshardGo ctx => fits ctx 14
  | .ctxReshardCancel ctx => fits ctx 14
  | .quantumExpiry ctx => fits ctx 14
  | .preemptWaitExpiry ctx => fits ctx 14
  | .blockTimeout ctx _ => fits ctx 14
  | .policyDecision _ ctx _ => fits ctx 14
  | .drainComplete ctx => fits ctx 14
  | .gateSettle ctx region _ _ => fits ctx 14 && fits region 6
  | .gateTimerExpiry ctx region => fits ctx 14 && fits region 6
  | .stepCommit ctx region _ => fits ctx 14 && fits region 6
  | .groomTestComplete _ _ => true
  | .contentsMove _ _ => true
  | .parkWaitTimeout ctx region => fits ctx 14 && fits region 6
  | .fenceCmd _ => true
  | .scrubRead _ _ _ => true
  | .groomCellStart px py => fits px 8 && fits py 8
  | .recoverCheckpoint _ _ _ => true
  | .reinitContext ctx => fits ctx 14
  | .reinitQueuePair n => qpOk n
  | .alertCauseWrite _ => true
  | .ppsInEdge _ => true
  | .linkSignalDetect n => fits n 6
  | .linkRetryTimer n => fits n 6
  | .linkTrained n _ => fits n 6
  | .linkTrainFailed n => fits n 6
  | .identTimeout n => fits n 6
  | .linkFrameTimeout n => fits n 6
  | .fecEvaluation n _ => fits n 6
  | .linkPacketFrame n f _ => fits n 6 && frameOk f
  | .linkAckFrame n f => fits n 6 && frameOk f
  | .linkNakFrame n f => fits n 6 && frameOk f
  | .linkCreditFrame n f => fits n 6 && frameOk f
  | .linkIdleFrame n f => fits n 6 && frameOk f
  | .linkAckTimer n => fits n 6
  | .identFrame n f _ => fits n 6 && frameOk f
  | .identTimer n => fits n 6
  | .markerFrame n f _ _ => fits n 6 && frameOk f
  | .residencyFrame n f _ => fits n 6 && frameOk f
  | .residencyResend ctx _ => fits ctx 14
  | .relayFrame n f _ => fits n 6 && frameOk f
  | .e2eResendTimeout ctx _ => fits ctx 14
  | .replayRequest n f _ => fits n 6 && frameOk f
  | .membershipOrder _ _ => true
  | .membershipKeysWrite _ => true
  | .membershipKWrite _ => true
  | .linkRetrain n => fits n 6
  | .linkFence n => fits n 6
  | .linkUnfence n => fits n 6
  | .leaseWrite sub _ => fits sub 8
  | .ckptGo _ => true
  | .ckptPeriodTimer ctx => fits ctx 14
  | .buddyAck ctx _ => fits ctx 14
  | .buddyCopyReceive _ => true
  | .arpRequest _ _ _ => true
  | .neighbourSolicitation _ _ _ => true
  | .lldpReceive _ port => decide (port ≤ 4)
  | .pfcPauseReceive prio _ => fits prio 3
  | .bctSendReceive n _ _ _ => qpOk n
  | .bctNop n => qpOk n
  | .windowSet n => qpOk n
  | .windowClear n => qpOk n
  | .bctLoad n => qpOk n
  | .bctStart n => qpOk n
  | .bctStop n => qpOk n
  | .bctPreempt n => qpOk n
  | .bctUnload n => qpOk n
  | .bctGearLoad n => qpOk n
  | .peerSet n => qpOk n
  | .bctCheckpoint n => qpOk n
  | .mirror n => qpOk n
  | .bctCancel n => qpOk n
  | .statusBlockTimer n => qpOk n
  | .rdmaReadRequest n _ _ _ => qpOk n
  | .rdmaWriteRequest n => qpOk n
  | .atomicRequest n => qpOk n
  | .rdmaReadResponse n _ => qpOk n
  | .qpRetryExhausted n => qpOk n
  | .cnpReceive n => qpOk n
  | .ecnRecoverTimer n => qpOk n
  | .steerFlip _ => true
  | .steeredDatagram _ => true
  | .sendqTransmit _ => true
  | .sendqHoldTimeout _ => true
  | .ptpEventMessage _ => true
  | .timeDisciplined _ => true
  | .dopFragment path _ _ _ => decide (path.kind ≤ 2)
  | .dopReassemblyTimeout path _ _ => decide (path.kind ≤ 2)
  | .hello path _ => decide (path.kind ≤ 2)
  | .finish _ _ => true
  | .finishTimeout _ => true
  | .close _ => true
  | .sessionIdleTimeout _ => true
  | .read _ r => opOk 1 r
  | .write _ r _ => opOk 2 r
  | .commit _ r => opOk 3 r
  | .abort _ r => opOk 4 r
  | .segRead _ r => opOk 5 r
  | .segWrite _ r _ => opOk 6 r
  | .segTransferTimeout _ _ => true
  | .domainRdma _ r _ => opOk 7 r
  | .domainRdmaComplete _ _ => true
  | .subscribe _ r => opOk 8 r
  | .describe _ r => opOk 9 r
  | .ack _ r => opOk 10 r
  | .notifyResendTimer _ _ => true
  | .dopKeysWrite sub _ => fits sub 8
  | .registerWrite index sub _ => fits index 16 && fits sub 8
  | .i3cRead index sub => fits index 16 && fits sub 8
  | .i3cWrite index sub _ => fits index 16 && fits sub 8
  | .i3cDynamicAddress _ => true
  | .fwStage _ => true
  | .coreFwStage _ => true
  | .svnCommit _ => true
  | .policyWrite _ _ => true
  | .policyModuleFault _ => true
  | .ownerRotate _ => true
  | .attestNonce _ _ => true
  | .lcShip _ _ => true
  | .lcClaim _ _ => true
  | .lcReturn _ _ => true
  | .lcScrap _ _ => true
  | .tapUnlock _ _ => true
  | .sysResetRelease straps _ => fits straps 3
  | .cellRowResetRelease py => fits py 5
  | .mgmtFwRun _ => true
  | .memoryTestComplete _ => true
  | .coreClockWrite _ _ => true
  | .powerSample _ _ => true
  | .thermalSample _ _ _ _ => true
  | .reservedOpcode word => coreOk word.core && word.aop.all commonOk
  | .testAccessPortCycle _ _ _ => true
  | .relayReassemblyTimeout _ _ => true
  | .memtestComplete _ => true
  | .ckptCopyComplete ctx => fits ctx 14
  | .contentsCopyComplete ctx => fits ctx 14
  | .roceAckReceive n _ => qpOk n
  | .gearLoadGo => true
  | .gearLoadCancel => true
  | .migrateGo => true
  | .ctxLoadGo => true
  | .ctxLoadCancel => true
  | .policyTimeout => true
  | .groomTestStart => true
  | .watchExpiry => true
  | .moveComplete => true
  | .memtestStart => true
  | .memtestCancel => true
  | .groomCellCancel => true
  | .reinitPager => true
  | .reinitEthernet => true
  | .warmReset => true
  | .ckptCancel => true
  | .ethPortDown => true
  | .ethPortUp => true
  | .lldpTimer => true
  | .qpToRts => true
  | .qpToReset => true
  | .ppsOutSecond => true
  | .dictSave => true
  | .cfgRackFlip => true
  | .i3cPrivateRead => true
  | .pwrGoodAssert => true
  | .pwrGoodDeassert => true
  | .sysResetAssert => true
  | .mgmtResetRelease => true
  | .memoryInitComplete => true
  | .vcoreTargetMet => true
  | .vcoreTargetTimeout => true
  | .vcoreDroop => true
  | .railFault => true
  | .pllUnlock => true
  | .vcoreOvercurrent => true
  | .thermalTrip => true
  | .eventRateSecond => true
  | .lockstepDisagreement => true
  | .alertMinWidthExpiry => true

end Sys2Proof
end

