-- ==== Sys2Proof/Decode.lean ====
section
/-! DEFINITION. Commands as words of the operation table: no row of the table gives its command any bits; and the instruction words of a core. -/

namespace Sys2Proof

/-- The command that a word spells by the table's bits: none, as the table gives no row any bits (log entry 1). -/
def decodeTableWord (nbits w : Nat) : Option Instr :=
  match nbits, w with
  | _, _ => none

/-! ### Instruction words of a core (R88 to R130) -/

/-- A field of a word. -/
def field (w hi lo : Nat) : Nat := w / 2 ^ lo % 2 ^ (hi + 1 - lo)

/-- The common fields of an instruction word (R89). -/
def commonOf (w : Nat) : Common := ⟨field w 57 57 == 1, field w 56 52, field w 51 49⟩

/-- The fields of a VOP (R123) word. -/
def vopOf (w : Nat) : VopF :=
  ⟨field w 48 44, field w 43 39, field w 38 34, field w 33 29, field w 28 24, field w 23 23 == 1, field w 22 15⟩

/-- The fields of a TMUL (R116) word. -/
def tmulOf (w : Nat) : TmulF :=
  ⟨field w 48 45, field w 44 41, field w 40 37, field w 36 33, field w 32 29, field w 28 28 == 1, field w 27 26, field w 25 23, field w 22 15, field w 14 7, field w 6 2⟩

/-- The fields of a TMULS (R119) word. -/
def tmulsOf (w : Nat) : TmulsF :=
  ⟨field w 48 45, field w 44 41, field w 40 37, field w 36 33, field w 32 32 == 1, field w 31 31 == 1, field w 30 28, field w 27 20, field w 19 12, field w 11 7⟩

/-- The fields of an ACC.DRAIN (R121) word. -/
def accDrainOf (w : Nat) : DrainF :=
  ⟨field w 48 45, field w 44 41, field w 40 37, field w 36 33, field w 32 31, field w 30 30 == 1, field w 29 27, field w 26 25, field w 24 24 == 1, field w 23 21, field w 20 13, field w 12 5⟩

/-- The fields of a SEND (R125) word. -/
def sendOf (w : Nat) : SendF :=
  ⟨field w 48 45, field w 44 40, field w 39 36, field w 35 28, field w 27 27 == 1, field w 26 18, field w 17 13⟩

/-- The instruction that a word of the instruction store holds, for core c; reserved bits are ignored (R9). `late` is what the memory adds to a load. A word of a reserved major opcode, or an AOP of a reserved function, is the command RESERVED_OPCODE. -/
def decodeWord (c : CoreId) (late w : Nat) : Option Instr :=
  match field w 63 58 with
  | 0x01 => some (.nop c (commonOf w))
  | 0x02 => some (.alu c (commonOf w) (field w 48 44) (field w 43 39) (field w 38 34) (field w 33 29))
  | 0x03 => some (.alui c (commonOf w) (field w 48 44) (field w 43 39) (field w 38 34) (BitVec.ofNat 32 (field w 31 0)))
  | 0x04 => some (.cmp c (commonOf w) (field w 48 46) (field w 45 41) (field w 40 36) (field w 35 33))
  | 0x05 => some (.cmpi c (commonOf w) (field w 48 46) (field w 45 41) (field w 35 33) (BitVec.ofNat 32 (field w 31 0)))
  | 0x06 => some (.plog c (commonOf w) (field w 48 46) (field w 45 41) (field w 40 36) (field w 35 33) (field w 32 32 == 1))
  | 0x08 => some (.br c (commonOf w) (field w 48 44) (field w 11 0))
  | 0x09 => some (.brr c (commonOf w) (field w 48 44) (field w 43 39))
  | 0x10 => some (.ld c (commonOf w) (field w 48 44) (field w 43 40) (field w 39 38) (field w 37 37 == 1) (field w 36 36 == 1) (BitVec.ofNat 32 (field w 31 0)) late)
  | 0x11 => some (.st c (commonOf w) (field w 48 44) (field w 43 40) (field w 39 38) (field w 36 36 == 1) (BitVec.ofNat 32 (field w 31 0)))
  | 0x12 =>
    match field w 48 46 with
    | 0 => some (.aset c (commonOf w) (field w 45 42) (field w 37 33) (BitVec.ofNat 32 (field w 31 0)))
    | 1 => some (.aoff c (commonOf w) (field w 45 42) (field w 37 33) (BitVec.ofNat 32 (field w 31 0)))
    | 2 => some (.aadd c (commonOf w) (field w 45 42) (field w 37 33) (BitVec.ofNat 32 (field w 31 0)))
    | 3 => some (.amov c (commonOf w) (field w 45 42) (field w 41 38))
    | 4 => some (.aget c (commonOf w) (field w 37 33) (field w 41 38))
    | 5 => some (.ainv c (commonOf w) (field w 45 42))
    | _ => some (.reservedOpcode ⟨c, some (commonOf w)⟩)
  | 0x20 => some (.vop c (commonOf w) (Sys2Proof.vopOf w))
  | 0x21 => some (.vopLd c (commonOf w) (field w 48 44) (field w 43 40) (field w 39 39 == 1) (BitVec.ofNat 32 (field w 31 0)))
  | 0x22 => some (.vopSt c (commonOf w) (field w 48 44) (field w 43 40) (field w 39 39 == 1) (BitVec.ofNat 32 (field w 31 0)))
  | 0x28 => some (.gate c (commonOf w) (field w 48 48 == 1))
  | 0x29 => some (.shift c (commonOf w) (field w 48 47) (field w 46 46 == 1) (field w 11 0))
  | 0x2A => some (.steer c (commonOf w) (field w 48 44) (field w 43 41))
  | 0x2B => some (.chkRead c (commonOf w) (field w 48 44) (field w 43 41))
  | 0x2C => some (.waitq c (commonOf w) (field w 48 44) (field w 43 43) (field w 42 42 == 1) (field w 15 0))
  | 0x2D => some (.dmaWait c (commonOf w) (field w 48 44) (field w 43 36))
  | 0x30 => some (.tmul c (commonOf w) (Sys2Proof.tmulOf w))
  | 0x31 => some (.tmuls c (commonOf w) (Sys2Proof.tmulsOf w))
  | 0x32 => some (.accOpen c (commonOf w) (field w 48 46) (field w 45 38) (field w 37 30) (field w 29 28) (field w 27 24))
  | 0x33 => some (.accClose c (commonOf w) (field w 48 46))
  | 0x34 => some (.accDrain c (commonOf w) (Sys2Proof.accDrainOf w))
  | 0x38 => some (.send c (commonOf w) (Sys2Proof.sendOf w))
  | 0x39 => some (.recvAck c (commonOf w) (field w 48 45) (field w 44 41))
  | 0x3C => some (.dmaGet c (commonOf w) (field w 48 45) (field w 44 42))
  | 0x3D => some (.dmaPut c (commonOf w) (field w 48 45) (field w 44 42))
  | _ => some (.reservedOpcode ⟨c, none⟩)

/-- A word from its major opcode, its common fields and its own fields, each with its lowest bit (R89). -/
def word (op : Nat) (g : Common) (fields : List (Nat × Nat)) : Nat :=
  op * 2 ^ 58 + g.guardNeg.toNat * 2 ^ 57 + g.guardIdx * 2 ^ 52 + g.sb * 2 ^ 49 + (fields.map fun p => p.2 * 2 ^ p.1).sum

/-- The own fields of a VOP (R123) word. -/
def vopFields (f : VopF) : List (Nat × Nat) :=
  [(44, f.vd), (39, f.va), (34, f.vb), (29, f.vc), (24, f.sB), (23, f.bsel.toNat), (15, f.fn)]

/-- The own fields of a TMUL (R116) word. -/
def tmulFields (f : TmulF) : List (Nat × Nat) :=
  [(45, f.fmtA), (41, f.fmtB), (37, f.aA), (33, f.aB), (29, f.aS), (28, f.mx.toNat), (26, f.bmode), (23, f.grp), (15, f.row), (7, f.rowsM1), (2, f.sStride)]

/-- The own fields of a TMULS (R119) word. -/
def tmulsFields (f : TmulsF) : List (Nat × Nat) :=
  [(45, f.fmtB), (41, f.aA), (37, f.aB), (33, f.aS), (32, f.mx.toNat), (31, f.hash.toNat), (28, f.grp), (20, f.row), (12, f.budgetM1), (7, f.sStride)]

/-- The own fields of an ACC.DRAIN (R121) word. -/
def accDrainFields (f : DrainF) : List (Nat × Nat) :=
  [(45, f.fmtOut), (41, f.aD), (37, f.aScale), (33, f.aBias), (31, f.scaleMode), (30, f.biasEn.toNat), (27, f.act), (25, f.rnd), (24, f.mx.toNat), (21, f.grp), (13, f.row), (5, f.rowsM1)]

/-- The own fields of a SEND (R125) word. -/
def sendFields (f : SendF) : List (Nat × Nat) :=
  [(45, f.aP), (40, f.sDest), (36, f.queue), (28, f.handler), (27, f.order.toNat), (18, f.length), (13, f.sUser)]

/-- The word of an instruction, with every reserved bit 0; none for a command that is no instruction of a core. -/
def encodeWord (i : Instr) : Option Nat :=
  match i with
  | .nop _ g => some (word 0x01 g [])
  | .alu _ g sD sA fn sB => some (word 0x02 g [(44, sD), (39, sA), (34, fn), (29, sB)])
  | .alui _ g sD sA fn imm => some (word 0x03 g [(44, sD), (39, sA), (34, fn), (0, imm.toNat)])
  | .cmp _ g pD sA sB cond => some (word 0x04 g [(46, pD), (41, sA), (36, sB), (33, cond)])
  | .cmpi _ g pD sA cond imm => some (word 0x05 g [(46, pD), (41, sA), (33, cond), (0, imm.toNat)])
  | .plog _ g pD srcA srcB op inv => some (word 0x06 g [(46, pD), (41, srcA), (36, srcB), (33, op), (32, inv.toNat)])
  | .br _ g sLink target => some (word 0x08 g [(44, sLink), (0, target)])
  | .brr _ g sLink sT => some (word 0x09 g [(44, sLink), (39, sT)])
  | .ld _ g sR aR size sext postInc imm _ => some (word 0x10 g [(44, sR), (40, aR), (38, size), (37, sext.toNat), (36, postInc.toNat), (0, imm.toNat)])
  | .st _ g sR aR size postInc imm => some (word 0x11 g [(44, sR), (40, aR), (38, size), (36, postInc.toNat), (0, imm.toNat)])
  | .aset _ g aD sX imm => some (word 0x12 g [(46, 0), (42, aD), (33, sX), (0, imm.toNat)])
  | .aoff _ g aD sX imm => some (word 0x12 g [(46, 1), (42, aD), (33, sX), (0, imm.toNat)])
  | .aadd _ g aD sX imm => some (word 0x12 g [(46, 2), (42, aD), (33, sX), (0, imm.toNat)])
  | .amov _ g aD aS => some (word 0x12 g [(46, 3), (42, aD), (38, aS)])
  | .aget _ g sX aS => some (word 0x12 g [(46, 4), (33, sX), (38, aS)])
  | .ainv _ g aD => some (word 0x12 g [(46, 5), (42, aD)])
  | .vop _ g f => some (word 0x20 g (Sys2Proof.vopFields f))
  | .vopLd _ g v aV postInc imm => some (word 0x21 g [(44, v), (40, aV), (39, postInc.toNat), (0, imm.toNat)])
  | .vopSt _ g v aV postInc imm => some (word 0x22 g [(44, v), (40, aV), (39, postInc.toNat), (0, imm.toNat)])
  | .gate _ g last => some (word 0x28 g [(48, last.toNat)])
  | .shift _ g gear carry entry => some (word 0x29 g [(47, gear), (46, carry.toNat), (0, entry)])
  | .steer _ g sTok port => some (word 0x2A g [(44, sTok), (41, port)])
  | .chkRead _ g sD sel => some (word 0x2B g [(44, sD), (41, sel)])
  | .waitq _ g sD mode poll qmask => some (word 0x2C g [(44, sD), (43, mode), (42, poll.toNat), (0, qmask)])
  | .dmaWait _ g sD qmask => some (word 0x2D g [(44, sD), (36, qmask)])
  | .tmul _ g f => some (word 0x30 g (Sys2Proof.tmulFields f))
  | .tmuls _ g f => some (word 0x31 g (Sys2Proof.tmulsFields f))
  | .accOpen _ g grp base rowsM1 init aBias => some (word 0x32 g [(46, grp), (38, base), (30, rowsM1), (28, init), (24, aBias)])
  | .accClose _ g grp => some (word 0x33 g [(46, grp)])
  | .accDrain _ g f => some (word 0x34 g (Sys2Proof.accDrainFields f))
  | .send _ g f => some (word 0x38 g (Sys2Proof.sendFields f))
  | .recvAck _ g queue nM1 => some (word 0x39 g [(45, queue), (41, nM1)])
  | .dmaGet _ g aDesc queue => some (word 0x3C g [(45, aDesc), (42, queue)])
  | .dmaPut _ g aDesc queue => some (word 0x3D g [(45, aDesc), (42, queue)])
  | _ => none

end Sys2Proof
end

