-- ==== Sys2Proof/Machine/Codes.lean ====
section
/-! DEFINITION. The status codes of the part (R592, R594). -/

namespace Sys2Proof.Machine

/-- OK: answer. -/
abbrev cOk : Code := 0x0000

/-- PENDING: answer. -/
abbrev cPending : Code := 0x0001

/-- BAD_ARGUMENT: refusal. -/
abbrev cBadArgument : Code := 0x0101

/-- RESERVED_NONZERO: refusal. -/
abbrev cReservedNonzero : Code := 0x0102

/-- UNSUPPORTED_VERSION: refusal. -/
abbrev cUnsupportedVersion : Code := 0x0103

/-- BOUNDS: refusal. -/
abbrev cBounds : Code := 0x0201

/-- LENGTH_TOO_LARGE: refusal. -/
abbrev cLengthTooLarge : Code := 0x0202

/-- MSG_TOO_LONG: refusal. -/
abbrev cMsgTooLong : Code := 0x0203

/-- ADMISSION_REFUSED: refusal. -/
abbrev cAdmissionRefused : Code := 0x0301

/-- NO_CELLS: refusal. -/
abbrev cNoCells : Code := 0x0302

/-- NO_MEMORY: refusal. -/
abbrev cNoMemory : Code := 0x0303

/-- QUEUE_PLAN: refusal. -/
abbrev cQueuePlan : Code := 0x0304

/-- SPILL_BOUND: refusal. -/
abbrev cSpillBound : Code := 0x0305

/-- BUSY: answer. -/
abbrev cBusy : Code := 0x0306

/-- RING_HW_EXCEEDED: event. -/
abbrev cRingHwExceeded : Code := 0x0307

/-- CHECK_MISMATCH: suspect. -/
abbrev cCheckMismatch : Code := 0x0401

/-- BLOCK_CHECK_FAIL: suspect. -/
abbrev cBlockCheckFail : Code := 0x0402

/-- REPLAY_CONFIRMED_CORE: event. -/
abbrev cReplayConfirmedCore : Code := 0x0403

/-- REPLAY_CONFIRMED_CHECKER: event. -/
abbrev cReplayConfirmedChecker : Code := 0x0404

/-- UNRESOLVED_DISAGREEMENT: event. -/
abbrev cUnresolvedDisagreement : Code := 0x0405

/-- CADENCE_DEVIATION: suspect. -/
abbrev cCadenceDeviation : Code := 0x0406

/-- CORE_FENCED: event. -/
abbrev cCoreFenced : Code := 0x0501

/-- SPARES_EXHAUSTED: event. -/
abbrev cSparesExhausted : Code := 0x0502

/-- NEAR_ROW_MAPPED: event. -/
abbrev cNearRowMapped : Code := 0x0503

/-- DEVICE_DRAINED_REPLACE: event. -/
abbrev cDeviceDrainedReplace : Code := 0x0504

/-- CHANNEL_CLOSED: completion. -/
abbrev cChannelClosed : Code := 0x0601

/-- BROOM_DISCARD: event. -/
abbrev cBroomDiscard : Code := 0x0602

/-- STEER_SKEW: suspect. -/
abbrev cSteerSkew : Code := 0x0603

/-- SPILL_EXHAUSTED: suspect. -/
abbrev cSpillExhausted : Code := 0x0604

/-- REMOTE_PAGE_TIMEOUT: completion. -/
abbrev cRemotePageTimeout : Code := 0x0605

/-- AUTH_FAILED: answer. -/
abbrev cAuthFailed : Code := 0x0701

/-- ROLE_INSUFFICIENT: answer. -/
abbrev cRoleInsufficient : Code := 0x0702

/-- LIFECYCLE_DENIED: refusal. -/
abbrev cLifecycleDenied : Code := 0x0703

/-- SIGNATURE_INVALID: refusal. -/
abbrev cSignatureInvalid : Code := 0x0704

/-- ROLLBACK_REFUSED: refusal. -/
abbrev cRollbackRefused : Code := 0x0705

/-- STATE_INVALID: refusal. -/
abbrev cStateInvalid : Code := 0x0801

/-- PEER_EXPELLED: event. -/
abbrev cPeerExpelled : Code := 0x0901

/-- SELF_EXPELLED: event. -/
abbrev cSelfExpelled : Code := 0x0902

/-- EPOCH_STALE: event for a frame (R436); refusal for an order (R448). -/
abbrev cEpochStale : Code := 0x0903

/-- CONFIG_MISMATCH: event. -/
abbrev cConfigMismatch : Code := 0x0904

/-- TIME_UNCERTAIN: event. -/
abbrev cTimeUncertain : Code := 0x0905

/-- QUORUM_INSUFFICIENT: refusal. -/
abbrev cQuorumInsufficient : Code := 0x0906

/-- SUSPECT_PEER: event. -/
abbrev cSuspectPeer : Code := 0x0907

/-- LINK_DEGRADED: event. -/
abbrev cLinkDegraded : Code := 0x0A01

/-- LINK_TRAIN_FAILED: event. -/
abbrev cLinkTrainFailed : Code := 0x0A02

end Sys2Proof.Machine
end

