-- ==== Sys2Proof/Config.lean ====
section
/-! DEFINITION. What an implementation fixes and the values the specification leaves open. -/

namespace Sys2Proof.Config

/-- Free value: breakpoint i (1 to 63) of the default activation table t (2 GELU, 3 SiLU, 4 tanh, 5 sigmoid) (R152 bounds the result only). Log entry 10. -/
opaque actBreak (t i : Nat) : BitVec 32

/-- Free value: coefficient c of segment i of the default activation table t (R152). Log entry 10. -/
opaque actCoef (t i c : Nat) : BitVec 32

/-- Free value: the word by which integ.last shows numbers n and m times 2 to the q that a tolerance check compares; the specification does not state the form whose CRC-64 it is (R388). Log entry 119. -/
opaque toleranceWord (n m q : Int) : BitVec 64

/-- Free value: byte number i drawn where the specification leaves a byte open. Log entry 11. -/
opaque freeByte (i : Nat) : BitVec 8

/-- Free value: number i drawn where the specification leaves a number open. Log entry 11. -/
opaque freeNat (i : Nat) : Nat

/-- Free value: the station number of link controller n; the specification numbers no station (R15, R438). Log entry 22. -/
opaque linkStation (n : Nat) : Nat

/-- Free value: the station number of the Ethernet engine (R15, R482). Log entry 22. -/
opaque ethernetStation : Nat

/-! ### Cryptographic functions that the specification names and does not define. Log entry 30. -/

/-- SHA3-512 (R447, R520, R528). -/
opaque sha3 (bs : List (BitVec 8)) : BitVec 512

/-- KMAC256 with a key, data, a length in bits and a customisation number (R511, R526). -/
opaque kmac (key data bits custom : Nat) : Nat

/-- Whether an ML-DSA-87 signature over a digest verifies under a public key (R447, R510, R529). -/
opaque sigOk (key : List (BitVec 8)) (digest : BitVec 512) (sig : List (BitVec 8)) : Bool

/-- The ML-DSA-87 signature that a key pair generated from a seed gives a digest (R510, R526, R542). -/
opaque sign (seed : Nat) (digest : BitVec 512) : List (BitVec 8)

/-- ML-KEM-1024: ciphertext for an encapsulation key, with the device's randomness (R510). -/
opaque kemCipher (ek : List (BitVec 8)) (rand : Nat) : List (BitVec 8)

/-- Free value: station of the context engine, which the specification does not number (R246, R279, R280). Log entry 113. -/
opaque engineStation : Nat

/-- Part t of the idle program that core firmware of a digest holds (R275, R559). Log entry 114. -/
opaque idlePart (digest t : Nat) : List (BitVec 8)

/-- ML-KEM-1024: the shared secret of that encapsulation (R511). -/
opaque kemSecret (ek : List (BitVec 8)) (rand : Nat) : Nat

/-! ### What each part is given at manufacture (R525, R527, R541, R543). Log entry 31. -/

opaque serial : Nat

opaque mac : Nat

opaque rootSecret : Nat

opaque lwDigest : Nat

/-- The Laniwaing public key that firmware images carry. -/
opaque lwKey : List (BitVec 8)

/-- The vendor keys that the management firmware carries, by key index (R541). -/
opaque vendorKey (i : Nat) : List (BitVec 8)

/-- The certificate chain (R543). -/
opaque certChain : List (BitVec 8)

/-- Header, signature and body of the firmware images in the non-volatile store at manufacture: 0 management, 1 core. -/
opaque fwPart (core part : Nat) : List (BitVec 8)

/-- VCORE in mV that sustains a clock in kHz, from fuses (R551). -/
opaque vcoreFor (khz : Nat) : Nat

/-- Laniwaing's JEDEC manufacturer identity (R589). -/
opaque jedecId : Nat

/-- Free values: the codes of the events that the specification records without naming one: 0 a VCORE droop, 1 the clock held limited, 2 a thermal warning (R550, R551, R569). Log entry 33. -/
opaque powerCode (i : Nat) : BitVec 16

/-- Free values: width of the instruction register of the test access port and the code of IDCODE (R589). Log entry 34. -/
opaque tapIrBits : Nat

opaque tapIdcode : Nat

end Sys2Proof.Config
end

