-- ==== Sys2Proof/Machine/Num.lean ====
section
/-! DEFINITION. Number formats, exact arithmetic, rounding and the XA128 format (R132 to R158, R603). -/

namespace Sys2Proof.Machine

/-- A value of a binary format: NaN, an infinity, or plus or minus n times 2 to the q (R132, R134). -/
inductive Num where
  | nan
  | inf (neg : Bool)
  | fin (neg : Bool) (n : Nat) (q : Int)
deriving DecidableEq, Repr

/-- Bits of a positive number; 0 for 0. -/
def bitLen (n : Nat) : Nat := if n = 0 then 0 else Nat.log2 n + 1

/-- Two's-complement reading of the low w bits. -/
def signed (w n : Nat) : Int :=
  let m := n % 2 ^ w
  if 2 * m < 2 ^ w then (m : Int) else (m : Int) - (2 : Int) ^ w

/-- The low w bits of an integer. -/
def unsigned (w : Nat) (i : Int) : Nat := (i % ((2 : Int) ^ w)).toNat

/-- Bits lo to hi of a number. -/
def bits (n hi lo : Nat) : Nat := (n >>> lo) % 2 ^ (hi + 1 - lo)

/-- One bit of a number. -/
def bit (n i : Nat) : Bool := (n >>> i) % 2 == 1

/-- n rounded up to a multiple of m. -/
def roundUp (n m : Nat) : Nat := (n + m - 1) / m * m

/-- Ceiling of a quotient. -/
def ceilDiv (n m : Nat) : Nat := (n + m - 1) / m

/-- Ceiling of the base-2 logarithm. -/
def clog2 (n : Nat) : Nat := if n ≤ 1 then 0 else bitLen (n - 1)

/-! ### Element formats (R132) -/

/-- Shape of a binary floating format: exponent bits, mantissa bits, bias, and its specials: 0 none, 1 the single NaN of E4M3, 2 IEEE. -/
structure FpFmt where
  eb : Nat
  mb : Nat
  bias : Nat
  special : Nat
deriving DecidableEq, Repr

/-- The floating formats of codes 0x2 to 0x9. -/
def fpFmt (c : Nat) : FpFmt :=
  match c with
  | 2 => ⟨2, 1, 1, 0⟩
  | 3 => ⟨2, 3, 1, 0⟩
  | 4 => ⟨3, 2, 3, 0⟩
  | 5 => ⟨4, 3, 7, 1⟩
  | 6 => ⟨5, 2, 15, 2⟩
  | 7 => ⟨8, 7, 127, 2⟩
  | 8 => ⟨5, 10, 15, 2⟩
  | _ => ⟨8, 23, 127, 2⟩

/-- Element width in bits (R132). -/
def fmtBits (c : Nat) : Nat :=
  match c with
  | 0 | 2 => 4
  | 3 | 4 => 6
  | 1 | 5 | 6 => 8
  | 7 | 8 => 16
  | 9 => 32
  | _ => 128

/-- 0 narrow, 1 byte, 2 half, 3 single (R113). -/
def fmtClass (c : Nat) : Nat :=
  match c with
  | 0 | 2 | 3 | 4 => 0
  | 1 | 5 | 6 => 1
  | 7 | 8 => 2
  | _ => 3

/-- k per row of the class (R113). -/
def classK (c : Nat) : Nat := if fmtClass c = 0 then 64 else 32

/-- Row cycles of the class (R113). -/
def classCycles (c : Nat) : Nat :=
  match fmtClass c with
  | 0 | 1 => 1
  | 2 => 2
  | _ => 12

/-- A row bytes (R113). -/
def aRowBytes (c : Nat) : Nat := classK c * fmtBits c / 8

/-- B tile bytes (R113). -/
def bTileBytes (c : Nat) : Nat := classK c * 16 * fmtBits c / 8

/-- Value of an element (R132). -/
def decodeElem (c b : Nat) : Num :=
  if c = 0 ∨ c = 1 then
    let i := signed (fmtBits c) b
    .fin (decide (i < 0)) i.natAbs 0
  else
    let f := fpFmt c
    let m := b % 2 ^ f.mb
    let e := (b >>> f.mb) % 2 ^ f.eb
    let neg := bit b (f.mb + f.eb)
    if f.special = 2 ∧ e = 2 ^ f.eb - 1 then
      if m = 0 then .inf neg else .nan
    else if f.special = 1 ∧ e = 15 ∧ m = 7 then .nan
    else if e = 0 then .fin neg m (1 - (f.bias : Int) - f.mb)
    else .fin neg (m + 2 ^ f.mb) ((e : Int) - f.bias - f.mb)

/-- Exponent of the format's lsb, L (R144). -/
def lsbExp (c : Nat) : Int :=
  if c = 0 ∨ c = 1 then 0 else 1 - ((fpFmt c).bias : Int) - (fpFmt c).mb

/-- Significand and exponent of the largest finite value of a floating format. -/
def maxFinite (c : Nat) : Nat × Int :=
  let f := fpFmt c
  match f.special with
  | 0 => (2 ^ (f.mb + 1) - 1, (2 : Int) ^ f.eb - 1 - f.bias - f.mb)
  | 1 => (2 ^ (f.mb + 1) - 2, (2 : Int) ^ f.eb - 1 - f.bias - f.mb)
  | _ => (2 ^ (f.mb + 1) - 1, (2 : Int) ^ f.eb - 2 - f.bias - f.mb)

/-! ### Exact arithmetic -/

/-- Signed significand. -/
def sig (neg : Bool) (n : Nat) : Int := if neg then -(n : Int) else n

/-- Sign of a value. -/
def Num.neg? : Num → Bool
  | .nan => false
  | .inf s => s
  | .fin s _ _ => s

/-- Negation. -/
def Num.negate : Num → Num
  | .nan => .nan
  | .inf s => .inf (!s)
  | .fin s n q => .fin (!s) n q

/-- Product under IEEE 754 for specials, exact otherwise. -/
def Num.mul : Num → Num → Num
  | .nan, _ | _, .nan => .nan
  | .inf s, .inf t => .inf (xor s t)
  | .inf s, .fin t n _ => if n = 0 then .nan else .inf (xor s t)
  | .fin s n _, .inf t => if n = 0 then .nan else .inf (xor s t)
  | .fin s n q, .fin t m r => .fin (xor s t) (n * m) (q + r)

/-- Exact sum; a zero sum is negative only when both addends are negative zeros. -/
def Num.add : Num → Num → Num
  | .nan, _ | _, .nan => .nan
  | .inf s, .inf t => if s = t then .inf s else .nan
  | .inf s, .fin _ _ _ => .inf s
  | .fin _ _ _, .inf t => .inf t
  | .fin s n q, .fin t m r =>
    let e := min q r
    let v : Int := sig s n * 2 ^ (q - e).toNat + sig t m * 2 ^ (r - e).toNat
    if v = 0 then .fin (s && t && decide (n = 0) && decide (m = 0)) 0 0
    else .fin (decide (v < 0)) v.natAbs e

/-- Whether a is less than b; false when either is NaN. Zeros are equal. -/
def Num.lt (a b : Num) : Bool :=
  match a, b with
  | .nan, _ | _, .nan => false
  | .inf s, .inf t => s && !t
  | .inf s, .fin _ _ _ => s
  | .fin _ _ _, .inf t => !t
  | .fin s n q, .fin t m r =>
    let e := min q r
    decide (sig s n * 2 ^ (q - e).toNat < sig t m * 2 ^ (r - e).toNat)

/-- Whether the value is a zero. -/
def Num.isZero : Num → Bool
  | .fin _ n _ => n == 0
  | _ => false

/-! ### Rounding (R156) -/

/-- n / 2^r rounded: mode 0 nearest-even, 1 toward zero, 2 stochastic with the 32-bit draw. -/
def roundShift (mode draw : Nat) (neg : Bool) (n r : Nat) : Nat :=
  let lo := n >>> r
  let rem := n % 2 ^ r
  if rem = 0 then lo
  else
    match mode with
    | 0 =>
      if 2 * rem > 2 ^ r ∨ (2 * rem = 2 ^ r ∧ lo % 2 = 1) then lo + 1 else lo
    | 1 => lo
    | _ =>
      -- with lo < hi in value: for a negative value lo has the greater magnitude
      let frac := if neg then 2 ^ r - rem else rem
      let up := decide (draw < (2 ^ 32 * frac) / 2 ^ r)
      if neg then (if up then lo else lo + 1) else (if up then lo + 1 else lo)

/-- Rounds n times 2^q to p significant bits with lsb exponent at least qmin: the significand and its exponent. -/
def roundTo (mode draw p : Nat) (qmin : Int) (neg : Bool) (n : Nat) (q : Int) : Nat × Int :=
  if n = 0 then (0, qmin)
  else
    let t := max qmin (q + (bitLen n : Int) - p)
    if t ≤ q then (n * 2 ^ (q - t).toNat, t)
    else (roundShift mode draw neg n (t - q).toNat, t)

/-- Compares n·2^q with m·2^r: whether the first is greater. -/
def magGt (n : Nat) (q : Int) (m : Nat) (r : Int) : Bool :=
  let e := min q r
  decide (n * 2 ^ (q - e).toNat > m * 2 ^ (r - e).toNat)

/-- Encoding of k·2^t in a floating format; the value must be representable. -/
def encodeFin (c : Nat) (neg : Bool) (k : Nat) (t : Int) : Nat :=
  let f := fpFmt c
  let (k, t) := if k ≥ 2 ^ (f.mb + 1) then (k / 2, t + 1) else (k, t)
  let s := if neg then 2 ^ (f.mb + f.eb) else 0
  if k < 2 ^ f.mb then s + k
  else s + (t - lsbExp c + 1).toNat * 2 ^ f.mb + (k - 2 ^ f.mb)

/-- Encoding of the largest finite value. -/
def encodeMax (c : Nat) (neg : Bool) : Nat :=
  let (k, t) := maxFinite c
  encodeFin c neg k t

/-- Encoding of an infinity of an IEEE format. -/
def encodeInf (c : Nat) (neg : Bool) : Nat :=
  let f := fpFmt c
  (if neg then 2 ^ (f.mb + f.eb) else 0) + (2 ^ f.eb - 1) * 2 ^ f.mb

/-- Output conversion of R154: the element's bits and whether arith.saturations counts it. -/
def convertOut (c rnd draw : Nat) (e5sat : Bool) (v : Num) : Nat × Bool :=
  if c = 0 ∨ c = 1 then
    let w := fmtBits c
    let mx : Int := 2 ^ (w - 1) - 1
    let mn : Int := -(2 ^ (w - 1))
    match v with
    | .nan => (0, true)
    | .inf s => (unsigned w (if s then mn else mx), true)
    | .fin s n q =>
      let k := if 0 ≤ q then n * 2 ^ q.toNat else roundShift rnd draw s n (-q).toNat
      let i := sig s k
      -- toward zero and stochastic overflow by the magnitude itself (R154)
      let lim : Nat := if s then 2 ^ (w - 1) else 2 ^ (w - 1) - 1
      let ovr := if rnd = 0 then decide (i > mx ∨ i < mn) else magGt n q lim 0
      (unsigned w (if ovr then (if s then mn else mx) else i), ovr)
  else
    let f := fpFmt c
    let satInf := c < 6 ∨ (c = 6 ∧ e5sat = true)
    match v with
    | .nan =>
      match c with
      | 5 => (0x7F, false)
      | 6 => (0x7E, false)
      | 7 => (0x7FC0, false)
      | 8 => (0x7E00, false)
      | 9 => (0x7FC00000, false)
      | _ => (0, true)
    | .inf s => if satInf then (encodeMax c s, true) else (encodeInf c s, false)
    | .fin s n q =>
      if n = 0 then (0, false)
      else
        let (k, t) := roundTo rnd draw (f.mb + 1) (lsbExp c) s n q
        let (mk, mt) := maxFinite c
        let ovr := if rnd = 0 then magGt k t mk mt else magGt n q mk mt
        if ovr then
          if satInf ∨ rnd = 1 then (encodeMax c s, true) else (encodeInf c s, true)
        else (encodeFin c s k t, false)

/-! ### FP32 (R158) -/

/-- FP32 bits of a value, rounded to nearest-even; every NaN is 0x7FC0_0000. -/
def toF32 (v : Num) : BitVec 32 :=
  match v with
  | .fin s 0 _ => if s then 0x80000000#32 else 0#32
  | _ => BitVec.ofNat 32 (convertOut 9 0 0 false v).1

/-- Value of FP32 bits. -/
def ofF32 (b : BitVec 32) : Num := decodeElem 9 b.toNat

/-- a + b in FP32. -/
def f32Add (a b : BitVec 32) : BitVec 32 := toF32 ((ofF32 a).add (ofF32 b))

/-- a - b in FP32. -/
def f32Sub (a b : BitVec 32) : BitVec 32 := toF32 ((ofF32 a).add (ofF32 b).negate)

/-- a × b in FP32. -/
def f32Mul (a b : BitVec 32) : BitVec 32 := toF32 ((ofF32 a).mul (ofF32 b))

/-- a × b + c in FP32, rounded once. -/
def f32Fma (a b c : BitVec 32) : BitVec 32 := toF32 (((ofF32 a).mul (ofF32 b)).add (ofF32 c))

/-- VMAX and VMIN (R158): the other operand for one NaN, -0 below +0. -/
def f32Pick (wantMax : Bool) (a b : BitVec 32) : BitVec 32 :=
  let x := ofF32 a
  let y := ofF32 b
  match decide (x = .nan), decide (y = .nan) with
  | true, true => 0x7FC00000#32
  | true, false => b
  | false, true => a
  | false, false =>
    let aLess := if x.isZero && y.isZero then x.neg? && !y.neg? else x.lt y
    if wantMax then (if aLess then b else a) else (if aLess then a else b)

/-- INT32 to FP32 (VCVTF). -/
def f32OfInt (a : BitVec 32) : BitVec 32 :=
  let i := a.toInt
  toF32 (.fin (decide (i < 0)) i.natAbs 0)

/-- FP32 to INT32, nearest-even, saturating, NaN to 0 (VCVTI). -/
def f32ToInt (a : BitVec 32) : BitVec 32 :=
  match ofF32 a with
  | .nan => 0#32
  | .inf s => if s then 0x80000000#32 else 0x7FFFFFFF#32
  | .fin s n q =>
    let k := if 0 ≤ q then n * 2 ^ q.toNat else roundShift 0 0 s n (-q).toNat
    let i := sig s k
    if i > 2 ^ 31 - 1 then 0x7FFFFFFF#32
    else if i < -(2 ^ 31) then 0x80000000#32
    else BitVec.ofInt 32 i

/-! ### XA128 (R139, R140) -/

/-- An XA128 value. -/
structure XA where
  s : Int
  e : Int
  count : Nat
  inf : Bool
  nan : Bool
  ovf : Bool
  inx : Bool
deriving DecidableEq, Repr

/-- A finite XA128 value with clear flags. -/
def XA.mk0 (s e : Int) (count : Nat) : XA := ⟨s, e, count, false, false, false, false⟩

/-- Reading of an entry (R139). -/
def XA.ofBits (b : QWord) : XA :=
  let n := b.toNat
  { s := signed 96 (n >>> 32), e := signed 16 (n >>> 16), count := bits n 15 5,
    inf := bit n 3, nan := bit n 2, ovf := bit n 1, inx := bit n 0 }

/-- Layout of an entry (R139). -/
def XA.toBits (x : XA) : QWord :=
  let s : Int := if x.nan then 0 else if x.inf then (if x.s < 0 then -1 else 1) else x.s
  let e : Int := if x.nan then 0 else x.e
  BitVec.ofNat 128 (unsigned 96 s * 2 ^ 32 + unsigned 16 e * 2 ^ 16 + (min x.count 2047) * 2 ^ 5
    + (if x.inf && !x.nan then 8 else 0) + (if x.nan then 4 else 0) + (if x.ovf then 2 else 0)
    + (if x.inx then 1 else 0))

/-- t / 2^h rounded to nearest-even. -/
def rneShift (t : Int) (h : Nat) : Int := sig (decide (t < 0)) (roundShift 0 0 false t.natAbs h)

/-- Whether an integer fits the 96-bit significand. -/
def fits96 (i : Int) : Bool := decide (-(2 ^ 95) ≤ i ∧ i < 2 ^ 95)

/-- The XA128 addition of R140. An infinity is given E = 0 (R139 leaves E ignored; DESIGN CHOICE, log entry 106), and of two zeros the second's E stands, as the pseudocode has it, where the text calls the operation commutative (DEDUCED, log entry 107). -/
def XA.add (a b : XA) : XA :=
  let inx := a.inx || b.inx
  let ovf := a.ovf || b.ovf
  let count := min 2047 (a.count + b.count)
  let aNeg := decide (a.s < 0)
  let bNeg := decide (b.s < 0)
  if a.nan || b.nan || (a.inf && b.inf && (aNeg != bNeg)) then ⟨0, 0, count, false, true, ovf, inx⟩
  else if a.inf || b.inf then
    let neg := if a.inf then aNeg else bNeg
    ⟨if neg then -1 else 1, 0, count, true, false, ovf, inx⟩
  else if a.s = 0 then { b with count := count, inx := inx, ovf := ovf }
  else if b.s = 0 then { a with count := count, inx := inx, ovf := ovf }
  else
    let e := min a.e b.e
    let t : Int := a.s * 2 ^ (a.e - e).toNat + b.s * 2 ^ (b.e - e).toNat
    let h0 := bitLen t.natAbs - 96
    let h := if fits96 (rneShift t h0) then h0
      else if fits96 (rneShift t (h0 + 1)) then h0 + 1 else h0 + 2
    let s := rneShift t h
    let inx := inx || decide (s * 2 ^ h ≠ t)
    let e := e + h
    if e > 32767 then ⟨if t < 0 then -1 else 1, 0, count, true, false, true, inx⟩
    else ⟨s, e, count, false, false, ovf, inx⟩

/-- Value of an XA128 entry. -/
def XA.num (x : XA) : Num :=
  if x.nan then .nan
  else if x.inf then .inf (decide (x.s < 0))
  else .fin (decide (x.s < 0)) x.s.natAbs x.e

/-- A value presented exactly as XA128 (R141, R162, R603); a zero has E = 0, as R603 gives a zero operand q = 0 (DEDUCED, log entry 108). -/
def XA.ofNum (v : Num) (count : Nat) : XA :=
  match v with
  | .nan => ⟨0, 0, count, false, true, false, false⟩
  | .inf s => ⟨if s then -1 else 1, 0, count, true, false, false, false⟩
  | .fin s n q => XA.mk0 (sig s n) (if n = 0 then 0 else q) count

/-- One level of a balanced pairwise adder tree. -/
def xaLevel : List XA → List XA
  | a :: b :: rest => a.add b :: xaLevel rest
  | l => l

/-- Adder tree over a list, `fuel` levels. -/
def xaTree : Nat → List XA → XA
  | _, [] => XA.mk0 0 0 0
  | _, [x] => x
  | 0, x :: _ => x
  | fuel + 1, l => xaTree fuel (xaLevel l)

/-! ### Products (R137, R138, R603) -/

/-- The significand and exponent of R603, a zero having both 0. -/
def Num.sq : Num → Int × Int
  | .fin s n q => if n = 0 then (0, 0) else (sig s n, q)
  | _ => (0, 0)

/-- The product of two elements as an exact IEEE value. -/
def prodNum (ca a cb b : Nat) : Num := (decodeElem ca a).mul (decodeElem cb b)

/-- A half-class product (R603). -/
def halfProd (ca a cb b : Nat) : XA :=
  match prodNum ca a cb b with
  | .fin _ _ _ =>
    let x := (decodeElem ca a).sq
    let y := (decodeElem cb b).sq
    XA.mk0 (x.1 * y.1) (x.2 + y.2) 1
  | v => XA.ofNum v 1

/-- Rounds an integer times 2^q to 8 significant bits, normalised to 2^7 ≤ |m| < 2^8 (R138, R603). -/
def part8 (m q : Int) : Int × Int :=
  if m = 0 then (0, 0)
  else
    let n := m.natAbs
    let l := bitLen n
    if l ≤ 8 then (m * 2 ^ (8 - l), q - (8 - l : Nat))
    else
      let k := roundShift 0 0 false n (l - 8)
      let t := q + (l - 8 : Nat)
      if k = 256 then (sig (decide (m < 0)) 128, t + 1) else (sig (decide (m < 0)) k, t)

/-- Exact difference of m·2^q and the part p. -/
def subPart (m q : Int) (p : Int × Int) : Int × Int :=
  if p.1 = 0 then (m, q)
  else
    let e := min q p.2
    (m * 2 ^ (q - e).toNat - p.1 * 2 ^ (p.2 - e).toNat, e)

/-- The three BF16-precision parts of an FP32 significand (R138). -/
def split3 (v : Num) : (Int × Int) × (Int × Int) × (Int × Int) :=
  let x := v.sq
  let p1 := part8 x.1 x.2
  let r1 := subPart x.1 x.2 p1
  let p2 := part8 r1.1 r1.2
  let r2 := subPart r1.1 r1.2 p2
  (p1, p2, part8 r2.1 r2.2)

/-- A cross product of two parts. -/
def crossXA (a b : Int × Int) : XA := XA.mk0 (a.1 * b.1) (a.2 + b.2) 1

/-- A single-class split product (R138, R603). -/
def singleProd (a b : Nat) : XA :=
  match prodNum 9 a 9 b with
  | .fin _ _ _ =>
    let (a1, a2, a3) := split3 (decodeElem 9 a)
    let (b1, b2, b3) := split3 (decodeElem 9 b)
    let sum := ((((crossXA a1 b1).add (crossXA a1 b2)).add (crossXA a2 b1)).add (crossXA a1 b3)).add
      (crossXA a2 b2) |>.add (crossXA a3 b1)
    { sum with count := 1 }
  | v => XA.ofNum v 1

/-- Exact sum of products on the fixed grid of the two formats (narrow and byte classes, R137). -/
def blockSum (ca cb : Nat) (ps : List (Nat × Nat)) : XA :=
  let g := lsbExp ca + lsbExp cb
  let step (acc : Num) (p : Nat × Nat) : Num := acc.add (prodNum ca p.1 cb p.2)
  match ps.foldl step (.fin false 0 0) with
  | .fin s n q => XA.mk0 (if n = 0 then 0 else sig s n * 2 ^ (q - g).toNat) g 1
  | v => XA.ofNum v 1

/-- An XA128 value times 2^(sA + sB - 254), NaN for a NaN scale (R135). -/
def scaleXA (x : XA) (sA sB : Nat) : XA :=
  if sA = 0xFF ∨ sB = 0xFF then ⟨0, 0, x.count, false, true, false, x.inx⟩
  else if x.nan || x.inf then x
  else { x with e := x.e + sA + sB - 254 }

/-- Tree output of one row segment and one column (R137), one addend with count 1 (R141). The pairs are the products' operands in ascending k; `sc` gives the scale bytes of each block of 32. -/
def rowTree (ca cb : Nat) (mx : Bool) (ps : List (Nat × Nat)) (sc : List (Nat × Nat)) : XA :=
  let out :=
    if fmtClass ca ≤ 1 then
      let b0 := blockSum ca cb (ps.take 32)
      let s0 := sc.getD 0 (127, 127)
      let v0 := if mx then scaleXA b0 s0.1 s0.2 else b0
      if fmtClass ca = 0 then
        let b1 := blockSum ca cb (ps.drop 32)
        let s1 := sc.getD 1 (127, 127)
        v0.add (if mx then scaleXA b1 s1.1 s1.2 else b1)
      else v0
    else if fmtClass ca = 2 then xaTree 6 (ps.map fun p => halfProd ca p.1 cb p.2)
    else xaTree 6 (ps.map fun p => singleProd p.1 p.2)
  { out with count := 1 }

/-! ### Activation (R150, R151) -/

/-- An activation table: its header fields, 64 breakpoints and 64 segments of four coefficients. -/
structure ActTable where
  loMode : Nat
  hiMode : Nat
  loVal : BitVec 32
  hiVal : BitVec 32
  xMax : BitVec 32
  brk : List (BitVec 32)
  coef : List (BitVec 32)
deriving DecidableEq, Repr

/-- Cubic segment i at x (R151). -/
def ActTable.seg (t : ActTable) (i : Nat) (x : BitVec 32) : BitVec 32 :=
  let d := f32Sub x (t.brk.getD i 0#32)
  let c (k : Nat) := t.coef.getD (4 * i + k) 0#32
  f32Fma (f32Fma (f32Fma (c 3) d (c 2)) d (c 1)) d (c 0)

/-- Largest index whose breakpoint is at most x, 0 when there is none. -/
def ActTable.index (t : ActTable) (x : BitVec 32) : Nat :=
  (t.brk.takeWhile fun b => !((ofF32 x).lt (ofF32 b))).length - 1

/-- Evaluation of an activation table (R151). -/
def ActTable.eval (t : ActTable) (x : BitVec 32) : BitVec 32 :=
  let v := ofF32 x
  if v = .nan then 0x7FC00000#32
  else if v.lt (ofF32 (t.brk.getD 0 0#32)) then
    match t.loMode with
    | 0 => t.seg 0 x
    | 1 => t.loVal
    | _ => x
  else if (ofF32 t.xMax).lt v then
    match t.hiMode with
    | 0 => t.seg 63 x
    | 1 => t.hiVal
    | _ => x
  else t.seg (t.index x) x

/-- The default tables of R152: header values as stated, the rest free values. -/
def defaultTable (code : Nat) : ActTable :=
  let b0 : BitVec 32 :=
    match code with
    | 2 => 0xC1000000#32
    | 3 => 0xC1C00000#32
    | 4 => 0xC1100000#32
    | _ => 0xC1800000#32
  let xm : BitVec 32 :=
    match code with
    | 2 => 0x41000000#32
    | 3 => 0x41C00000#32
    | 4 => 0x41100000#32
    | _ => 0x41800000#32
  { loMode := 1, hiMode := if code ≤ 3 then 2 else 1,
    loVal := if code = 4 then 0xBF800000#32 else 0#32,
    hiVal := if code ≤ 3 then 0#32 else 0x3F800000#32,
    xMax := xm,
    brk := (List.range 64).map fun i => if i = 0 then b0 else Config.actBreak code i,
    coef := (List.range 256).map fun j => Config.actCoef code (j / 4) (j % 4) }

/-- Activation code applied to an FP32 input: 1 ReLU, 2 to 5 the default tables, 6 the context's table (R150). -/
def activate (code : Nat) (ctxTable : ActTable) (x : BitVec 32) : BitVec 32 :=
  match code with
  | 0 => if ofF32 x = .nan then 0x7FC00000#32 else x
  | 1 => if ofF32 x = .nan then 0x7FC00000#32 else if (ofF32 x).neg? then 0#32 else x
  | 6 => ctxTable.eval x
  | c => (defaultTable c).eval x

/-! ### Rounding draw (R157) -/

/-- The 32-bit draw of R157. -/
def roundingDraw (key ctx stepNo x y drain row col : Nat) : Nat :=
  let m := 2 ^ 64
  let u := ((stepNo <<< 32) ||| ((drain % 2 ^ 16) <<< 16) ||| (row <<< 8) ||| (col <<< 4)) % m
  let k := (key ^^^ (ctx <<< 48) ^^^ (y <<< 40) ^^^ (x <<< 32)) % m
  let rnd (z : Nat) : Nat := ((z ^^^ (z >>> 29)) * 0xB7E151628AED2A6B) % m
  let z := rnd (rnd (rnd (u ^^^ k)))
  (z ^^^ (z >>> 32)) % 2 ^ 32

end Sys2Proof.Machine
end

