-- ==== Sys2Proof/Machine/Clear.lean ====
section
/-! DEFINITION. The values that cores, contexts and slices hold when nothing runs on them. -/

namespace Sys2Proof.Machine

/-! ### Values of a core's state at context entry, which reset shares (log entry 3) -/

/-- A clear status register (R67). -/
def clearStatus : LastStatus := ⟨0, 0, 0, 0⟩

/-- Registers as the register table and R49 reset them. -/
def clearRegs : Regs :=
  { s := Vector.replicate 32 0#32, p := Vector.replicate 8 false, a := Vector.replicate 16 0#64,
    v := Vector.replicate 32 (Vector.replicate 64 0#32), ready := [], vready := [] }

/-- Core status registers at their resets (R67). -/
def clearStat : CoreStat :=
  { run := .idle, gear := 0, clean := true, programError := false, hardFault := false, throttled := false,
    stepNo := 0, issue := 0, late := 0, throttle := 0, exc := clearStatus, excWhere := 0, excDetail0 := 0,
    excDetail1 := 0, last := Vector.replicate 4 clearStatus, sp := Vector.replicate 4 false, prevIssue := 0,
    prevLate := 0, pc := 0, lastPc := 0, cyc := 0, place := 0, stall := none, ended := false, lastGate := false,
    suspects := [], tensorMark := 0, vectorMark := 0, lates := [], holds := [] }

/-- An idle unit. -/
def clearUnit : CmdUnit := ⟨[], 0, 0, 0, 0, 0, []⟩

/-- A group that has never been opened (R122). -/
def clearGroup : Group := ⟨false, false, 0, 0, []⟩

/-- A sparse plan of a core with no record: hash_en 0 and the defaults (R338, R185). -/
def clearPlan : SparsePlan := ⟨false, 384, 1024, 0, 0, 0⟩

/-- Tensor-unit state at context entry. -/
def clearTensor : Tensor :=
  { acc := [], groups := Vector.replicate 8 clearGroup, gview := Vector.replicate 8 clearGroup,
    bufs := Vector.replicate 2 ⟨false, 0, false, [], []⟩, active := 0,
    bview := Vector.replicate 2 ⟨false, 0, false⟩, viewActive := 0, rowEnd := none, drains := 0,
    plan := clearPlan, tags := [], flushPos := none }

/-- Checker state at the beginning of a step. -/
def clearChecker : Checker :=
  { flags := Vector.replicate 6 false, failed := 0, tensorJudged := 0, vectorJudged := 0, suspect := none,
    pendingV := [], accepted := 0, vops := 0, judged := [], left := (false, 0, []), lanes := [], results := [] }

/-- A stream that the gear does not use. -/
def clearStream : Stream := ⟨false, 0, false, 0, 32, 0, 0, 0, 0⟩

/-- Router state with no gear. -/
def clearRouter : Router :=
  { inq := Vector.replicate 4 [], pairing := Vector.replicate 5 [], sw := 0, left := none,
    ctrs := Vector.replicate 4 0, atEnd := true, inj := Vector.replicate 4 clearStream,
    ej := Vector.replicate 4 clearStream, cycle := 0, flying := [], reads := [], askedTo := 0 }

/-- A packet router with no packet (R239). -/
def clearPktRouter : PktRouter := ⟨[], [], [], [], []⟩

/-- A disabled ring. -/
def clearRing : Ring := ⟨0, 0, 0, 0, 0, 0, 0, 0, 0, 0, 0, [], [], 0⟩

/-- Message-unit state with no gear. -/
def clearMsg : MsgUnit :=
  { rings := Vector.replicate 16 clearRing, chans := [], partials := [], broom := [], carry := false, rot := 0,
    tag := 0, mcastWait := [], heldParts := [], rootWait := [], sentIn := 0, doneIn := 0 }

/-- A DMA queue that has run nothing. -/
def clearDmaQ : DmaQ := ⟨false, 0, 0, 0, 0, 0, 0, 0, 0⟩

/-- An empty gear slot. -/
def clearSlot : Slot := ⟨0, 0, 0, Vector.replicate 8 [], false⟩

/-- The state of a core that runs no context. -/
def clearArch : Arch :=
  { regs := clearRegs, stat := clearStat, handles := [], units := Vector.replicate 4 clearUnit,
    board := ⟨Vector.replicate 16 0, Vector.replicate 16 (0, 0)⟩, tensor := clearTensor,
    checker := clearChecker, router := clearRouter, msg := clearMsg,
    dma := ⟨Vector.replicate 8 clearDmaQ, 0, 0, [], false⟩, verify := [], verified := [], spanGear := 0, spanIdx := 0, shifted := false }

/-- A core that runs no context and holds no gear. -/
def clearCore : Core :=
  { ctx := none, region := 0, arch := clearArch, slots := Vector.replicate 4 clearSlot, slotEpoch := 0,
    usedSlots := [], mem := ⟨[], [], [], [], [], [], [], []⟩, reports := [], shadows := [] }

/-- No long operation requested (R355). -/
def clearOp : LongOp := ⟨0, 0, 0, 0, 0, 0, 0⟩

/-- No image. -/
def clearImage : Image :=
  { horizon := 0, cls := 0, reduceInstM1 := 0, roundKey := 0, holdBytes := 0, msgHoldBytes := 0, reduceUnits := 0,
    imageBytes := 0, regions := [], gears := [], sparse := [], noPlan := clearPlan, segments := [], trees := [], act := [],
    contents := [], segContents := [], marks := [] }

/-- A FREE context (R358). -/
def clearCtx : Ctx :=
  { state := .free, image := clearImage, cls := 0, quantumUs := 0, preemptWaitUs := 2000, blockUs := 10000,
    lastCode := 0, steps := 0, runNs := 0, runSince := none, reservedBytes := 0, reservedFrames := 0, pt := [],
    frames := [], fixed := [], dmaHold := [], msgHold := [], saved := [], savedMem := [], midStep := false,
    contentsInPlace := false, copying := false, entering := false, quantumOver := false, entered := false,
    regions := [], stopReq := false, gateReq := none, reqSince := 0, load := clearOp, gearLoad := clearOp,
    kept := [], migrate := clearOp, reshard := clearOp, nextImage := none, ckpt := clearOp, windows := [], peers := [], peersIn := [], unacked := [],
    delivered := [], fresh := [], lost := [], buddy := 0xFFFF, periodS := 0, ckptStep := 0, adopt := 0xFFFE,
    ckptSeq := 0, claimedAt := 0, lastOp := 0, blockCause := 0 }

/-- A groomer that has tested nothing. -/
def clearGroom : Groom := ⟨[], [], 0, none, [], [], 0, [], []⟩

/-- A defect map without records. -/
def clearKeep : Keep := ⟨Vector.replicate 32 0, none, [], [], 0, [], 0⟩

/-- A slice and bank that hold no contents: off, as near.off_when_idle is 1 (R190, R197, R212). -/
def clearSlice : SliceSt := ⟨2, 2, 0, [], [], Vector.replicate 3 0, 0⟩

/-- A link that is DOWN, with the 32 credits that each receiving buffer grants (R423, R430). -/
def clearLink : LinkSt :=
  { txSeq := 0, rxSeq := 0, held := [], waiting := [], credits := Vector.replicate 6 32, unackedRx := 0, malformedAt := [],
    replaysAt := [], raised := [], staleRaised := [], partnerSerial := 0, partnerEpoch := 0,
    partnerDev := 0xFFFF, epochWait := false, known := false, lastTx := 0, lastRx := 0 }

/-- No membership, leases or relayed fragments. -/
def clearRack : Rack := ⟨[], [], [], [], [], 0, []⟩

/-- A queue pair in RESET with the default configuration (R471, R488). -/
def clearQp : Qp :=
  { state := 0, gid := 0, qpn := 0, mac := 0, params := 0x72EE000000000000, vlan := 0xFFFF, rkey := 0, errors := 0,
    ecnStep := 0, ecnRate := 1024, queue := [], cmdCount := 0, lastTag := 0, lastCode := 0, update := 0, updatedAt := 0, mirror := none }

/-- An Ethernet engine with no rules and every queue pair in RESET. -/
def clearEth : Eth := ⟨[], [], [], [], [], Vector.replicate 2 0, Vector.replicate 2 false, Vector.replicate 2 false⟩

/-- A dictionary server with no session. -/
def clearDop : DopSt :=
  { sessions := [], nextId := 1, keys := [], reasm := [], anonSelects := [], i3cSelects := [], anonSecond := 0, anonCount := 0,
    ops := [], i3cAddr := none, i3cStatic := 0x50, i3cLast := none }

/-- A slot pair that holds one good image in slot A. -/
def factorySlots (core : Nat) : FwSlots :=
  { a := some ⟨Config.fwPart core 0, Config.fwPart core 1, Config.fwPart core 2⟩, b := none, inForce := false, next := false,
    goodA := true, goodB := false }

/-- Fuses as manufacture leaves them: a BX1200 in MANUFACTURE (R38, R525; log entry 31). -/
def factoryFuses : Fuses :=
  { serial := Config.serial % 2 ^ 64, grade := 1, mac := Config.mac % 2 ^ 48, rootSecret := Config.rootSecret % 2 ^ 256,
    lwDigest := Config.lwDigest % 2 ^ 512, lc := 0, returns := 0, svnMgmt := 0, svnCore := 0, svnPolicy := 0 }

/-- A non-volatile store that holds the firmware images and nothing else (log entry 31). -/
def factoryStore : Store :=
  { saved := [], savedKey := 0, savedTime := 0, resets := [], mgmt := factorySlots 0, core := factorySlots 1, policy := [],
    ownerRoot := [], erased := false, tried := none }

/-- Power and reset state at the release of SYS_RESET_N with supplies in regulation (R547, R557). -/
def clearPow : Pow :=
  { pwrGood := true, inReset := false, stopped := false, tripped := false, pcyc := 0, cold := true, lost := false, railBad := false,
    lockFail := false, railFault := false, failed := 0, rowsOut := 0, mgmt := 0, keep2 := false, startAt := 0, cap := 0,
    below := 0, limit := 0, hot := [], hotAll := false, warned := false, warmDies := [], hotPkgs := 0, vcoreMet := false, awaiting := none,
    tapOpen := false, tapState := 0, tapInstr := 0, tapIr := 0, tapDr := 0 }

end Sys2Proof.Machine
end

