-- ==== Sys2Proof/Machine/State.lean ====
section
/-! DEFINITION. The state of the block: plain data, everything the specification gives the machine. -/

namespace Sys2Proof.Machine

/-! ### The whole device -/

/-- Everything that does not outlive a loss of power. -/
structure Dev where
  time : Nat
  cores : NMap Core
  ctxs : NMap Ctx
  /-- Dictionary values that differ from their defaults, by index * 256 + sub-index. -/
  objs : NMap Nat
  log : EventLog
  /-- The device-wide count of CORE cycles from the release of reset, as it stood when cores last began or resumed a step (R565). -/
  coreCount : Nat
  mesh : MeshDev
  slices : NMap SliceSt
  t2 : Tier2
  /-- Exclusion set of each physical cell row in force (R21, R42). -/
  rowMap : Vector Nat 32
  /-- Fenced cells of each row after the most recent gate at which a row map changed, which the shape objects report (R42). -/
  fencesAt : Vector Nat 32
  /-- Ready queues by class, oldest first (R351). -/
  ready : Vector (List Nat) 8
  /-- Cell time used: class, from, to, cells (R351). -/
  usage : List (Nat × Nat × Nat × Nat)
  /-- Scheduling events that the owner policy module has not answered (R353). -/
  schedWait : Nat
  /-- Devices that an order has expelled (R449). -/
  expels : List Nat
  /-- The input log (R453). -/
  inlog : List Released
  /-- Checkpoints held in local tier 2, and buddy copies of other devices (R456, R459). -/
  ckpts : List Ckpt
  buddies : List Ckpt
  /-- TIME has been disciplined since the last start (R486). -/
  disciplined : Bool
  /-- A row whose retirement waits for every context to leave the device (R30). -/
  retiring : Option Nat
  /-- Working copy of what the defect map keeps. -/
  keep : Keep
  groom : Groom
  /-- Map changes that wait for parks, oldest first (R405). -/
  moves : List Move
  fenceWaits : List FenceWait
  /-- Logical cells that the groomer or a stand-in holds (R382, R391). -/
  holds : List (Nat × Nat)
  /-- Long operations of the device: memory test, cell test, recovery, other recover objects (R399, R419). -/
  memtest : LongOp
  groomCell : LongOp
  recover : LongOp
  reinit : LongOp
  /-- Context of the most recent request of a long-operation object that a context number selects, by object key (R355), and the identifier of the next gear load (R280). -/
  lastReq : NMap Nat
  nextLoad : Nat
  /-- Idle logical cores hold the core firmware's idle program in slot 0 (R559). -/
  idleGear : Bool
  /-- Steered messages kept for their receivers, and replies in the send queues, oldest first (R483, R484). -/
  steerBuf : List SteerMsg
  sendq : List ReplyMsg
  /-- Partial-result records not yet read, and the sequence number of the next (R356). -/
  results : List (Nat × Code × Nat)
  resultSeq : Nat
  /-- ALERT_N is asserted, and since which TIME (R414). -/
  alertN : Bool
  alertSince : Nat
  /-- TIME latched at the last PPS_IN edge (R415). -/
  ppsTime : Nat
  links : NMap LinkSt
  rack : Rack
  eth : Eth
  dop : DopSt
  pow : Pow
  /-- Working copy of what fuses and the non-volatile store keep. -/
  sec : Sec
  /-- The model's own counter of free values drawn (log entry 11). -/
  free : Nat
  answer : Code
  out : List Out
  /-- What waits for the end of a pause of its priority on the Ethernet port: the PFC index and the output (R467). -/
  txHeld : List (Nat × Out)
deriving DecidableEq, Repr

/-- What the non-volatile store and the fuses keep. -/
structure Nv where
  keep : Keep
  fuses : Fuses
  store : Store
deriving DecidableEq, Repr

/-- Ways a command could end the run. -/
inductive Fault where
  /-- Raised by no command of this model: every command of the specification has an effect (safe). -/
  | halted
deriving DecidableEq, Repr

/-- Ways a command could be rejected by the model. -/
inductive Refusal where
  /-- A command whose meaning is not written yet; its arm in Dispatch raises it (safe). -/
  | notModelled (mnemonic : String)
deriving DecidableEq, Repr

/-- The state of the block: the commands that wait, what power keeps and what it does not. -/
structure State where
  pending : List Instr
  nv : Nv
  dev : Dev
deriving DecidableEq, Repr

/-- A device at the beginning of a start, with what the non-volatile store and the fuses keep: nothing runs, every row is mapped as if no cell were fenced (R22, R499, R548). -/
def clearDev (keep : Keep) (fuses : Fuses) (store : Store) : Dev :=
  { time := 0, cores := [], ctxs := [], objs := [], log := ⟨[], 0, [], 0⟩, coreCount := 0, mesh := ⟨0, [], [], Vector.replicate 32 0xC0000000, [], [], [], []⟩, slices := []
    t2 := ⟨[], [], [], [], [], 0⟩, rowMap := Vector.replicate 32 0xC0000000, fencesAt := keep.fences, ready := Vector.replicate 8 [], usage := []
    schedWait := 0, expels := [], inlog := [], ckpts := [], buddies := [], disciplined := false, retiring := none, keep := keep
    groom := clearGroom, moves := [], fenceWaits := [], holds := [], memtest := clearOp, groomCell := clearOp, recover := clearOp
    reinit := clearOp, lastReq := [], nextLoad := 0, idleGear := false, steerBuf := [], sendq := [], results := [], resultSeq := 0, alertN := false, alertSince := 0, ppsTime := 0
    links := [], rack := clearRack, eth := clearEth, dop := clearDop, pow := clearPow, sec := ⟨fuses, store, [], 0, 0, 0⟩
    free := 0, answer := 0, out := [], txHeld := [] }

/-- The machine right after reset: SYS_RESET_N of a part fresh from manufacture has been released after a power-up (R547, R557; log entries 31 and 35). -/
def State.reset : State :=
  { pending := [], nv := ⟨clearKeep, factoryFuses, factoryStore⟩, dev := clearDev clearKeep factoryFuses factoryStore }

end Sys2Proof.Machine
end

