-- ==== Sys2Proof/Machine/Ops.lean ====
section
/-! DEFINITION. The named operations over memory, cores, counters and the event log. -/

namespace Sys2Proof.Machine

/-! ### Words -/

/-- Composes a word from values and the bit positions they start at. -/
def pack (l : List (Nat × Nat)) : Nat := (l.map fun p => p.2 * 2 ^ p.1).sum

/-- 1 for true. -/
def b2n (b : Bool) : Nat := if b then 1 else 0

/-! ### Maps, vectors and byte stores -/

/-- The value listed for a key. -/
def nmGet {α : Type} : NMap α → Nat → Option α
  | [], _ => none
  | (k, v) :: rest, i => if k = i then some v else nmGet rest i

/-- Lists a value for a key, keeping keys rising. -/
def nmSet {α : Type} : NMap α → Nat → α → NMap α
  | [], i, a => [(i, a)]
  | (k, v) :: rest, i, a =>
    if i < k then (i, a) :: (k, v) :: rest
    else if i = k then (i, a) :: rest
    else (k, v) :: nmSet rest i a

/-- Unlists a key. -/
def nmErase {α : Type} (m : NMap α) (i : Nat) : NMap α := m.filter fun p => p.1 != i

/-- Element i of a vector, or a default outside it. -/
def vGet {α : Type} {n : Nat} (v : Vector α n) (i : Nat) (d : α) : α := v[i]?.getD d

/-- Vector with element i replaced; unchanged outside it. -/
def vSet {α : Type} {n : Nat} (v : Vector α n) (i : Nat) (a : α) : Vector α n := v.setIfInBounds i a

/-- List with element i changed. -/
def lSet {α : Type} : List α → Nat → α → List α
  | [], _, _ => []
  | _ :: rest, 0, a => a :: rest
  | x :: rest, i + 1, a => x :: lSet rest i a

/-- Byte of a store; an unlisted address reads 0 (R198, R318; log entry 2). -/
def memGet (m : Mem) (a : Nat) : Byte := (nmGet m a).getD 0#8

/-- Writes a byte, keeping the canonical form: a byte equal to the default is unlisted. -/
def memSet (m : Mem) (a : Nat) (b : Byte) : Mem := if b = 0#8 then nmErase m a else nmSet m a b

/-- A byte store in its canonical form: addresses rise strictly and no listed byte reads as an unlisted one does (log entry 2). -/
def Memory.wf (m : Mem) : Bool := decide ((m.map Prod.fst).Pairwise (· < ·)) && m.all fun p => p.2 != 0#8

/-- Consecutive bytes. -/
def memRead (m : Mem) (a n : Nat) : List Byte := (List.range n).map fun i => memGet m (a + i)

/-- Writes consecutive bytes. -/
def memWrite : Mem → Nat → List Byte → Mem
  | m, _, [] => m
  | m, a, b :: rest => memWrite (memSet m a b) (a + 1) rest

/-- Drops every byte of a range. -/
def memClear (m : Mem) (a n : Nat) : Mem := m.filter fun c => !(decide (a ≤ c.1) && decide (c.1 < a + n))

/-- Little-endian value of bytes (R7). -/
def leNat : List Byte → Nat
  | [] => 0
  | b :: rest => b.toNat + 256 * leNat rest

/-- Little-endian bytes of a value (R7). -/
def natLe (n : Nat) : Nat → List Byte
  | 0 => []
  | k + 1 => BitVec.ofNat 8 n :: natLe (n / 256) k

/-- First failing check of an ordered table. -/
def firstFail : List (Bool × Code) → Option Code
  | [] => none
  | (failed, code) :: rest => if failed then some code else firstFail rest

/-- The bytes of a 128-bit unit. -/
def qBytes (q : QWord) : List Byte := natLe q.toNat 16

/-- Splits bytes into 128-bit units, `fuel` of them at most. -/
def unitsOf : Nat → List Byte → List QWord
  | 0, _ => []
  | _, [] => []
  | n + 1, bs => BitVec.ofNat 128 (leNat (bs.take 16)) :: unitsOf n (bs.drop 16)

/-! ### Notifying objects (R517) -/

/-- Whether TIME is uncertain: not disciplined since the start, or a partner in service is beyond the limit (R435, R486). -/
def Dev.uncertain (d : Dev) : Bool := !d.disciplined || ((d.objs.find? fun p => p.1 = 0x2A00 * 256 + 7).any fun p => p.2 = 1)

/-- Value of an object that the map lists, or its default. -/
def Dev.listed (d : Dev) (key dflt : Nat) : Nat := ((d.objs.find? fun p => p.1 = key).map Prod.snd).getD dflt

/-- The notifying objects: index, sub-index and value (R517, R601). -/
def Dev.noteVals (d : Dev) : List (Nat × Nat × Nat) :=
  [(0x2A00, 6, d.listed (0x2A00 * 256 + 6) 0), (0x2A00, 7, if d.uncertain then 1 else 0),
   (0x6200, 1, d.listed (0x6200 * 256 + 1) 0), (0x6104, 1, d.listed (0x6104 * 256 + 1) 0),
   (0x6105, 9, d.keep.replace), (0x2004, 3, d.listed (0x2004 * 256 + 3) 0), (0x2800, 2, d.listed (0x2800 * 256 + 2) 0),
   (0x1800, 2, (d.log.nextSeq + 0xFFFFFFFF) % 2 ^ 32)]

/-- A change of a subscribed object: merged into a record made within the last millisecond, otherwise a record of its own (R517). -/
def Session.change (time : Nat) (unc : Bool) (s : Session) (v : Nat × Nat × Nat) : Session :=
  if !s.isOpen || !(s.subs.any fun r => decide (r.1 ≤ v.1) && decide (v.1 ≤ r.2)) then s
  else
    let same (n : Note) : Bool := n.index = v.1 && n.sub = v.2.1 && decide (time < n.time + 1000000)
    if s.notes.any same then
      { s with notes := s.notes.map fun n => if same n then { n with value := v.2.2, time := time, uncertain := unc } else n }
    else { s with
      nextSeq := s.nextSeq + 1
      notes := s.notes ++ [{ seq := s.nextSeq, index := v.1, sub := v.2.1, value := v.2.2, time := time, uncertain := unc, sent := 1 }] }

/-- Notifications of what a command changed (R517). -/
def Dev.noted (d old : Dev) : Dev :=
  let ch := ((d.noteVals.zip old.noteVals).filter fun p => p.1 != p.2).map Prod.fst
  let l := d.dop.sessions.map fun s => ch.foldl (Session.change d.time d.uncertain) s
  let fresh := (d.dop.sessions.zip l).flatMap fun p =>
    (p.2.notes.filter fun n => !p.1.notes.contains n).map fun n => Out.notify p.2.id n
  { d with dop := { d.dop with sessions := l }, out := d.out ++ fresh }

/-! ### Status blocks (R355, R478) -/

/-- A long-operation status word with a number of unread partial-result records (R355). -/
def LongOp.word (o : LongOp) (partials : Nat) : Nat :=
  pack [(0, o.code), (16, o.progress % 256), (24, min 15 partials), (28, o.state)]

/-- Long operations of a context, in the order of Ctx.lastOp. -/
def Ctx.ops (x : Ctx) : List LongOp := [x.load, x.gearLoad, x.migrate, x.reshard, x.ckpt]

/-- ctx.cur.state (R358). -/
def CtxState.code : CtxState → Nat
  | .free => 0
  | .loaded => 1
  | .ready => 2
  | .resident => 3
  | .running => 4
  | .preempted => 5
  | .blocked => 6
  | .draining => 7
  | .failed => 8

/-- The long-operation status word of a context's most recent operation (R478). -/
def Ctx.opWord (x : Ctx) : Nat := if x.lastOp = 0 then 0 else ((x.ops[x.lastOp - 1]?).map fun o => o.word 0).getD 0

/-- The status block of a context as a 512-bit number (R478). -/
def statusBlock (x : Ctx) (q : Qp) (unc : Bool) : Nat :=
  pack [(0, 0x0100), (16, x.state.code), (32, q.cmdCount), (64, q.lastTag), (96, q.lastCode), (128, x.opWord),
    (160, x.lastCode), (192, x.steps % 2 ^ 64), (256, q.updatedAt % 2 ^ 63 + 2 ^ 63 * b2n unc), (320, q.update)]

/-- The number of the first long operation whose status word changed, or the one that was the most recent. -/
def lastOpOf (old new : Ctx) : Nat :=
  match (List.range 5).find? fun i => (old.ops[i]?).map (fun o => o.word 0) != (new.ops[i]?).map fun o => o.word 0 with
  | some i => i + 1
  | none => new.lastOp

/-- Whether a context's state or a long-operation status word changed (R478). -/
def statusChanged (old new : Ctx) : Bool :=
  old.state != new.state || (List.range 5).any fun i => (old.ops[i]?).map (fun o => o.word 0) != (new.ops[i]?).map fun o => o.word 0

/-- One update of a context's status block, mirrored to its window while the queue pair is in RTS (R478, R479). -/
def Dev.statusUpdate (d : Dev) (n : Nat) : Dev :=
  let q := (nmGet d.eth.qps n).getD clearQp
  let q := { q with update := (q.update + 1) % 2 ^ 32, updatedAt := d.time }
  let x := (nmGet d.ctxs n).getD clearCtx
  let d := { d with eth := { d.eth with qps := nmSet d.eth.qps n q } }
  match q.mirror with
  | some (w, off) =>
    if q.state = 1 then { d with out := d.out ++ [.hostWrite n w off (natLe (statusBlock x q d.uncertain) 64)] } else d
  | none => d

/-- Updates the status block of every context whose state or operations a command changed, while the firmware runs that keeps them (R478). -/
def Dev.statusNoted (d old : Dev) : Dev :=
  let was (n : Nat) : Ctx := (nmGet old.ctxs n).getD clearCtx
  let keys := ((d.ctxs ++ old.ctxs).map Prod.fst).dedup
  let ch := keys.filter fun n => d.pow.mgmt = 2 && statusChanged (was n) ((nmGet d.ctxs n).getD clearCtx)
  let d := { d with ctxs := d.ctxs.map fun p => if ch.contains p.1 then (p.1, { p.2 with lastOp := lastOpOf (was p.1) p.2 }) else p }
  ch.foldl Dev.statusUpdate d

/-- The device as a command finds it: the previous command's answer and outputs are gone. -/
def Dev.cleared (d : Dev) : Dev := { d with out := [], answer := 0 }

/-- The PFC priority on which an output leaves the Ethernet port: 0 for RoCEv2 traffic, 1 for DOP messages of a session that comes by the port; none for all else (R467, R502). -/
def Dev.pfcOf (d : Dev) (o : Out) : Option Nat :=
  let session (id : Nat) : Option Nat := match d.dop.sessions.find? fun s => s.id = id with
    | some s => if s.path.kind ≤ 1 then some 1 else none
    | none => none
  match o with
  | .hostRead .. | .hostWrite .. => some 0
  | .eth tag fields _ => if tag = 7 ∨ tag = 8 ∨ tag = 11 ∨ tag = 13 then some 0
      else if (tag = 1 ∨ tag = 12) ∧ fields.headD 2 ≤ 1 then some 1 else none
  | .dop id .. => session id
  | .notify id _ => session id
  | _ => none

/-- Whether a pause that the port has received holds an output back (R467). -/
def Dev.held (d : Dev) (o : Out) : Bool := (d.pfcOf o).any fun i => vGet d.eth.pauseRx i false

/-- A received pause halts what would leave on its priority (R467). -/
def Dev.txPaused (d : Dev) : Dev :=
  { d with out := d.out.filter fun o => !d.held o, txHeld := d.txHeld ++ (d.out.filter d.held).map fun o => ((d.pfcOf o).getD 0, o) }

/-- The state that a command leaves, given what it made of the device: status blocks and notifications go out for what it changed, a pause holds outputs back, and fuses and non-volatile store follow their working copies (R402, R409, R467, R478, R499, R517). -/
def State.closing (s : State) (d : Dev) : State :=
  let d := ((d.statusNoted s.dev).noted s.dev).txPaused
  { s with dev := d, nv := ⟨d.keep, d.sec.fuses, d.sec.store⟩ }

/-- The outcome of a command that acts on the device, whatever its clocks do. -/
def State.act (s : State) (f : Dev → Dev) : Host.Outcome State Fault Refusal := .next (s.closing (f s.dev.cleared))

/-- The outcome of a command that needs the clocks: while every clock is stopped nothing happens (R549, R550, R570). -/
def State.onDev (s : State) (f : Dev → Dev) : Host.Outcome State Fault Refusal :=
  s.act fun d => if d.pow.stopped then d else f d

/-! ### CRC-64 (R365) -/

/-- One bit of the CRC-64 register. -/
def crcBit (c : BitVec 64) : BitVec 64 :=
  if c.getLsbD 63 then (c <<< 1) ^^^ 0x42F0E1EBA9EA3693#64 else c <<< 1

/-- One byte, most significant bit first. -/
def crcByte (c : BitVec 64) (b : Byte) : BitVec 64 :=
  let c := c ^^^ ((b.setWidth 64) <<< 56)
  crcBit (crcBit (crcBit (crcBit (crcBit (crcBit (crcBit (crcBit c)))))))

/-- CRC-64 of bytes in ascending address order (R365). -/
def crc64 (bs : List Byte) : Nat := ((bs.foldl crcByte (BitVec.allOnes 64)) ^^^ BitVec.allOnes 64).toNat

/-! ### Cores -/

/-- Map key of a logical core. -/
def ckey (c : CoreId) : Nat := c.y * 64 + c.x

/-- Index of the core within its cell (R19). -/
def kIndex (c : CoreId) : Nat := c.x % 2 + 2 * (c.y % 2)

/-- Core k of the same cell (R19). -/
def sibling (c : CoreId) (k : Nat) : CoreId := ⟨c.x / 2 * 2 + k % 2, c.y / 2 * 2 + k / 2⟩

/-- The core of a map key. -/
def coreOfKey (k : Nat) : CoreId := ⟨k % 64, k / 64⟩

/-- A logical core; one the map does not list is clear. -/
def Dev.core (d : Dev) (c : CoreId) : Core := (nmGet d.cores (ckey c)).getD clearCore

/-- Replaces a core. -/
def Dev.setCore (d : Dev) (c : CoreId) (k : Core) : Dev :=
  { d with cores := if k = clearCore then nmErase d.cores (ckey c) else nmSet d.cores (ckey c) k }

/-- Changes a core. -/
def Dev.updCore (d : Dev) (c : CoreId) (f : Core → Core) : Dev := d.setCore c (f (d.core c))

/-- A core's architectural state. -/
def Dev.arch (d : Dev) (c : CoreId) : Arch := (d.core c).arch

/-- Changes a core's architectural state. -/
def Dev.updArch (d : Dev) (c : CoreId) (f : Arch → Arch) : Dev :=
  d.updCore c fun k => { k with arch := f k.arch }

/-- Changes a core's status. -/
def Dev.updStat (d : Dev) (c : CoreId) (f : CoreStat → CoreStat) : Dev :=
  d.updArch c fun a => { a with stat := f a.stat }

/-- Changes a core's message unit. -/
def Dev.updMsg (d : Dev) (c : CoreId) (f : MsgUnit → MsgUnit) : Dev :=
  d.updArch c fun a => { a with msg := f a.msg }

/-- A context; one the map does not list is FREE. -/
def Dev.ctx (d : Dev) (n : Nat) : Ctx := (nmGet d.ctxs n).getD clearCtx

/-- Replaces a context. -/
def Dev.setCtx (d : Dev) (n : Nat) (x : Ctx) : Dev :=
  { d with ctxs := if x = clearCtx then nmErase d.ctxs n else nmSet d.ctxs n x }

/-- Changes a context. -/
def Dev.updCtx (d : Dev) (n : Nat) (f : Ctx → Ctx) : Dev := d.setCtx n (f (d.ctx n))

/-- Adds an output. -/
def Dev.emit (d : Dev) (o : Out) : Dev := { d with out := d.out ++ [o] }

/-! ### Dictionary values and counters -/

/-- Map key of an object. -/
def okey (index sub : Nat) : Nat := index * 256 + sub

/-- Adds to a counter that starts at 0. -/
def Dev.bump (d : Dev) (index sub n : Nat) : Dev :=
  if n = 0 then d
  else { d with objs := nmSet d.objs (okey index sub) ((nmGet d.objs (okey index sub)).getD 0 + n) }

/-- Value of an object, or its default. -/
def Dev.objD (d : Dev) (index sub dflt : Nat) : Nat := (nmGet d.objs (okey index sub)).getD dflt

/-- Sets an object. -/
def Dev.setObj (d : Dev) (index sub v : Nat) : Dev := { d with objs := nmSet d.objs (okey index sub) v }

/-! ### Placement (R17 to R32) -/

/-- The physical cell rows in ascending order without the retired one (R30). -/
def Dev.physRows (d : Dev) : List Nat :=
  (List.range 32).filter fun r => vGet d.rowMap r 0 != 0xFFFFFFFF

/-- Physical row that carries logical cell row cy. -/
def Dev.physRow (d : Dev) (cy : Nat) : Nat := d.physRows.getD cy 0

/-- Physical column of logical cell column cx in a row with the given exclusion set (R21). -/
def mapColumn (excl cx : Nat) : Nat := ((List.range 32).filter fun p => !bit excl p).getD cx 0

/-- Physical cell of a logical cell under the maps in force, or under those that a region still runs (R21, R26). -/
def Dev.physCell (d : Dev) (maps : NMap Nat) (cx cy : Nat) : Nat × Nat :=
  let r := d.physRow cy
  (mapColumn ((nmGet maps r).getD (vGet d.rowMap r 0)) cx, r)

/-- Run-time record of the region that a core belongs to. -/
def Dev.rtOf (d : Dev) (c : CoreId) : Option RegionRt :=
  match (d.core c).ctx with
  | some n => (d.ctx n).regions.find? fun r => r.num = (d.core c).region
  | none => none

/-- Cell whose hardware runs a core: its own, or the one that stands in for it during a replay (R382). -/
def Dev.placedCell (d : Dev) (c : CoreId) : Nat × Nat :=
  let own := (c.x / 2, c.y / 2)
  match (d.core c).ctx, (d.rtOf c).bind (·.replay) with
  | some n, some p =>
    match p.standin, (d.ctx n).image.regions.find? fun r => r.region = (d.core c).region with
    | some (sx, sy), some r => (sx + c.x / 2 - r.cx0, sy + c.y / 2 - r.cy0)
    | _, _ => own
  | _, _ => own

/-- Physical core that runs a logical core (R17, R19). -/
def Dev.physCore (d : Dev) (c : CoreId) : Nat × Nat :=
  let cell := d.placedCell c
  let p := d.physCell (((d.rtOf c).map (·.maps)).getD []) cell.1 cell.2
  (p.1 * 2 + c.x % 2, p.2 * 2 + c.y % 2)

/-- Logical core rows in the shape in force (R30, R41). -/
def Dev.rows (d : Dev) : Nat := d.physRows.length * 2

/-! ### Events (R596 to R600) -/

/-- Raises a code: its class counter rises (R598). -/
def Dev.raised (d : Dev) (code : Code) : Dev := d.bump 0x1801 (code / 256 + 1) 1

/-- A free number, and the device with the counter of free values advanced (log entry 11). -/
def Dev.fresh (d : Dev) : Nat × Dev := (Config.freeNat d.free, { d with free := d.free + 1 })

/-- Answers a status code to the party that asked: a code other than OK and PENDING counts as raised (R598). -/
def Dev.reply (d : Dev) (c : Code) : Dev := { (if c ≤ 1 then d else d.raised c) with answer := c }

/-- Whether a class is never suppressed (R600). -/
def unsuppressed (code : Code) : Bool := code / 256 = 4 || code / 256 = 5 || code / 256 = 9

/-- Records of each code in the second of TIME that is under way: seconds are aligned on whole seconds (R600). -/
def EventLog.counts (l : EventLog) (time : Nat) : NMap Nat := if l.secondNo = time / 1000000000 then l.second else []

/-- Writes an event record under the rate limit (R599, R600). -/
def Dev.record (d : Dev) (code : Code) (unit kind ctx logical physical : Nat) (cell : Bool) (d0 d1 : Nat) : Dev :=
  let n := (nmGet (d.log.counts d.time) code).getD 0
  if !unsuppressed code && decide (n ≥ d.objD 0x1800 8 1000) then d.bump 0x1800 7 1
  else
    let e : EventRec :=
      { time := d.time, uncertain := d.uncertain, code := code, unit := unit, kind := kind, ctx := ctx,
        logical := logical, physical := physical, physCell := cell, detail0 := d0, detail1 := d1,
        seq := d.log.nextSeq }
    let full := decide (d.log.recs.length ≥ 8192)
    let d := if full then d.bump 0x1800 6 1 else d
    let log := { d.log with
      recs := e :: (if full then d.log.recs.take 8191 else d.log.recs)
      nextSeq := (d.log.nextSeq + 1) % 2 ^ 32
      second := nmSet (d.log.counts d.time) code (n + 1), secondNo := d.time / 1000000000 }
    { d with log := log }.emit (.event e)

/-- Raises and records a code that concerns the whole device. -/
def Dev.eventDev (d : Dev) (code : Code) (unit kind d0 d1 : Nat) : Dev :=
  (d.raised code).record code unit kind 0xFFFF 0xFFFF 0xFFFF false d0 d1

/-- Raises and records a code that concerns a core. -/
def Dev.eventCore (d : Dev) (c : CoreId) (code : Code) (unit kind d0 d1 : Nat) : Dev :=
  let p := d.physCore c
  (d.raised code).record code unit kind ((d.core c).ctx.getD 0xFFFF) (c.x + 256 * c.y) (p.1 + 256 * p.2) false d0 d1

/-- Raises and records a code that concerns a context. -/
def Dev.eventCtx (d : Dev) (ctx : Nat) (code : Code) (unit kind d0 d1 : Nat) : Dev :=
  (d.raised code).record code unit kind ctx 0xFFFF 0xFFFF false d0 d1

/-! ### Local addresses (R58, R63) -/

/-- Where a local address lies. -/
inductive Loc where
  | home (c : CoreId) (off : Nat)
  | near (c : CoreId) (off : Nat)
  | acc (off : Nat)
  | ctl (off : Nat)
  | nowhere
deriving DecidableEq, Repr

/-- The local address map of R63. -/
def locate (c : CoreId) (a : Nat) : Loc :=
  if a < 0x40000 then .home c a
  else if 0x100000 ≤ a ∧ a < 0x200000 then
    .home (sibling c ((a - 0x100000) / 0x40000)) ((a - 0x100000) % 0x40000)
  else if 0x200000 ≤ a ∧ a < 0x210000 then .acc (a - 0x200000)
  else if 0x300000 ≤ a ∧ a < 0x310000 then .ctl (a - 0x300000)
  else if 0x40000000 ≤ a ∧ a < 0x46000000 then
    .near (sibling c ((a - 0x40000000) / 0x1800000)) ((a - 0x40000000) % 0x1800000)
  else .nowhere

/-- Nominal latency of an access, CORE cycles (R58, R63). -/
def nominal (c : CoreId) (a : Nat) : Nat :=
  match locate c a with
  | .home o _ => if o = c then 3 else 5
  | .near o _ => if o = c then 64 else 68
  | .acc _ => 4
  | _ => 6

/-- Beats of a transfer of n bytes (R118, R175). -/
def beatsFor (kind n : Nat) : Nat := if kind = 2 then ceilDiv n 16 else ceilDiv n 256

/-! ### Handles (R203 to R206) -/

/-- A handle-table entry that is not installed reads as zero (R203). -/
def noHandle : Handle := ⟨0, 0, 0, false, false, false, false, 0, 0, 0, 0, 0, false⟩

/-- Entry i of the handle table. -/
def Arch.handle (a : Arch) (i : Nat) : Handle := (nmGet a.handles i).getD noHandle

/-- The paired entry through which a write view reaches, or the entry itself (R204). -/
def Arch.paired (a : Arch) (i : Nat) : Nat × Handle :=
  let h := a.handle i
  if h.mode = 2 then (h.link, a.handle h.link) else (i, h)

/-- Local address of an access at offset o (R204). -/
def landing (h p : Handle) (write : Bool) (o : Nat) : Nat :=
  let n := p.copiesM1 + 1
  match h.mode with
  | 0 => h.base + o
  | 1 => if write then h.base + (h.gen + 1) % n * h.length + o else h.base + h.gen * h.length + o
  | _ => p.base + (p.gen + 1) % n * p.length + o

/-- Offset held in an address register (R51). -/
def aOffset (a : DWord) : Nat := a.toNat % 2 ^ 32

/-- Handle index held in an address register (R51). -/
def aHandle (a : DWord) : Nat := a.toNat / 2 ^ 32 % 64

/-- Valid bit of an address register (R51). -/
def aValid (a : DWord) : Bool := a.getLsbD 63

/-- The check of R205 for an access of s bytes, in its order; `kinds` are the kinds the instruction accepts and `align` its alignment. -/
def Arch.resolve (a : Arch) (reg : DWord) (write : Bool) (kinds : List Nat) (align disp s : Nat) :
    Except Code Res :=
  let i := aHandle reg
  let h := a.handle i
  let p := (a.paired i).2
  let o := (aOffset reg + disp) % 2 ^ 32
  let len := if h.mode = 2 then p.length else h.length
  match firstFail [
    (!aValid reg || i = 63 || !h.valid || (h.mode = 2 && !(p.valid && p.mode = 1)), cBadArgument),
    (!kinds.contains h.kind || (landing h p write o) % align != 0, cBadArgument),
    ((!write && !h.r) || (write && !h.w), cBadArgument),
    (write && decide (h.mode ≠ 0) && (p.gen + 1) % (p.copiesM1 + 1) = p.cgen, cBadArgument),
    (s != 0 && decide (o + s > len), cBounds)] with
  | some code => .error code
  | none => .ok { handle := i, kind := h.kind, bc := h.bc, addr := landing h p write o, room := len - o }

/-- Marks a paired entry dirty when a write goes through it or a view of it (R206). -/
def Arch.touch (a : Arch) (i : Nat) : Arch :=
  let (j, p) := a.paired i
  if p.valid && p.mode = 1 && (a.handle i).mode != 0 then
    { a with handles := nmSet a.handles j { p with dirty := true } }
  else a

/-! ### Local memory (R188, R189, R201) -/

/-- Bytes of accumulator memory as entries (R142). -/
def accByte (t : Tensor) (off : Nat) : Byte :=
  BitVec.ofNat 8 (((nmGet t.acc (off / 16)).getD 0#128).toNat >>> (8 * (off % 16)))

/-- Writes an accumulator entry, keeping zero entries unlisted. -/
def accSet (t : Tensor) (i : Nat) (v : QWord) : Tensor :=
  { t with acc := if v = 0#128 then nmErase t.acc i else nmSet t.acc i v }

/-- An accumulator entry. -/
def accGet (t : Tensor) (i : Nat) : QWord := (nmGet t.acc i).getD 0#128

/-- Writes bytes into accumulator memory. -/
def accWrite : Tensor → Nat → List Byte → Tensor
  | t, _, [] => t
  | t, off, b :: rest =>
    let v := (accGet t (off / 16)).toNat
    let sh := 8 * (off % 16)
    let v' := v - (v / 2 ^ sh % 256) * 2 ^ sh + b.toNat * 2 ^ sh
    accWrite (accSet t (off / 16) (BitVec.ofNat 128 v')) (off + 1) rest

/-- Whether any 16-byte quarter of a range is listed as uncorrectable. -/
def touchesBad (bad : List Nat) (off n : Nat) : Bool :=
  n != 0 && bad.any fun q => decide (off / 16 ≤ q) && decide (q ≤ (off + n - 1) / 16)

/-- A write's effect on the quarters listed uncorrectable: none when it fails, else the list without the quarters it covers whole (R189). -/
def writeBad (bad : List Nat) (off n : Nat) : Option (List Nat) :=
  if n = 0 then some bad
  else
    let firstPart := off % 16 != 0 && bad.contains (off / 16)
    let lastPart := (off + n) % 16 != 0 && bad.contains ((off + n) / 16)
    if firstPart || lastPart then none
    else some (bad.filter fun q => !(decide (off ≤ q * 16) && decide (q * 16 + 16 ≤ off + n)))

/-- A read of a home bank or a slice; none when a quarter is uncorrectable (R189). -/
def LocalMem.read (m : LocalMem) (near : Bool) (off n : Nat) : Option (List Byte) :=
  if near then (if touchesBad m.badNear off n then none else some (memRead m.near off n))
  else if touchesBad m.badHome off n then none else some (memRead m.home off n)

/-- Reads local bytes; none when a quarter is uncorrectable (R189). Control space reads are `ctlRead`'s. -/
def Dev.localRead (d : Dev) (c : CoreId) (addr n : Nat) : Option (List Byte) :=
  match locate c addr with
  | .home o off => (d.core o).mem.read false off n
  | .near o off => (d.core o).mem.read true off n
  | .acc off => some ((List.range n).map fun i => accByte (d.arch c).tensor (off + i))
  | _ => some (List.replicate n 0#8)

/-- Numbers of the 4 KiB blocks that a range touches (R200). -/
def blockNums (off n : Nat) : List Nat :=
  if n = 0 then [] else (List.range ((off + n - 1) / 4096 - off / 4096 + 1)).map fun i => off / 4096 + i

/-- Write counts after a write of n bytes. -/
def counted (cnt : NMap Nat) (off n : Nat) : NMap Nat :=
  (blockNums off n).foldl (fun m b => nmSet m b ((nmGet m b).getD 0 + 1)) cnt

/-- What check words differ by after a write of n bytes: a block written whole agrees again, others differ as before (R200; log entry 97). -/
def rechecked (chk : NMap Nat) (off n : Nat) : NMap Nat :=
  chk.filter fun p => !(decide (off ≤ p.1 * 4096) && decide (p.1 * 4096 + 4096 ≤ off + n))

/-- A write into a home bank or a slice with its codes and check words (R188, R189, R200); none when part of an uncorrectable quarter would have to be merged. -/
def LocalMem.write (m : LocalMem) (near : Bool) (off : Nat) (bs : List Byte) : Option LocalMem :=
  if near then
    (writeBad m.badNear off bs.length).map fun bad => { m with
      near := memWrite m.near off bs, badNear := bad, chkNear := rechecked m.chkNear off bs.length
      cntNear := counted m.cntNear off bs.length }
  else
    (writeBad m.badHome off bs.length).map fun bad => { m with
      home := memWrite m.home off bs, badHome := bad, chkHome := rechecked m.chkHome off bs.length
      cntHome := counted m.cntHome off bs.length }

/-- The check word of a block (R200, R365). -/
def LocalMem.checkWord (m : LocalMem) (near : Bool) (blk : Nat) : Nat :=
  if near then crc64 (memRead m.near (blk * 4096) 4096) ^^^ (nmGet m.chkNear blk).getD 0
  else crc64 (memRead m.home (blk * 4096) 4096) ^^^ (nmGet m.chkHome blk).getD 0

/-- Writes local bytes; none when part of an uncorrectable quarter would have to be merged (R189). -/
def Dev.localWrite (d : Dev) (c : CoreId) (addr : Nat) (bs : List Byte) : Option Dev :=
  match locate c addr with
  | .home o off => ((d.core o).mem.write false off bs).map fun m => d.updCore o fun k => { k with mem := m }
  | .near o off => ((d.core o).mem.write true off bs).map fun m => d.updCore o fun k => { k with mem := m }
  | .acc off => some (d.updArch c fun a => { a with tensor := accWrite a.tensor off bs })
  | _ => some d

/-- The 4 KiB blocks of a range: bank 0 home or 1 near, with the owner's key and the block number (R200). -/
def blocksOf (c : CoreId) (addr n : Nat) : List (Nat × Nat) :=
  match locate c addr with
  | .home o off => (blockNums off n).map fun b => (ckey o * 2, b)
  | .near o off => (blockNums off n).map fun b => (ckey o * 2 + 1, b)
  | _ => []

/-- Writes made to a block, by any core of the cell or from outside it (R200). -/
def Dev.writesOf (d : Dev) (b : Nat × Nat) : Nat :=
  let m := (d.core (coreOfKey (b.1 / 2))).mem
  (nmGet (if b.1 % 2 = 0 then m.cntHome else m.cntNear) b.2).getD 0

/-- The blocks of a read that are neither listed nor verified in the current step and unwritten since (R201). -/
def Dev.newBlocks (d : Dev) (c : CoreId) (bl : List (Nat × Nat)) : List (Nat × Nat) :=
  let a := d.arch c
  (bl.filter fun b => !(a.verified.any fun v => v.1 = b.1 && v.2.1 = b.2 && v.2.2 = d.writesOf b)
    && !(a.verify.any fun v => v.bank = b.1 && v.blk = b.2)).dedup

/-- Adds blocks that a read through a handle with bc touches to the verify set, for an instruction or command: unit, scoreboard bit, index and gear (R201). -/
def Dev.listBlocks (d : Dev) (c : CoreId) (unit sb pc gear : Nat) (bl : List (Nat × Nat)) : Dev :=
  d.updArch c fun a => { a with verify := a.verify ++ (d.newBlocks c bl).map fun b => ⟨b.1, b.2, unit, sb, pc, gear⟩ }

/-- Whether the verify set has room for the blocks of a read, or, for a command that alone reads more than 64, is empty (R202; log entry 92). -/
def Dev.verifyRoom (d : Dev) (c : CoreId) (bl : List (Nat × Nat)) : Bool :=
  decide ((d.arch c).verify.length + (d.newBlocks c bl).length ≤ 64) || (d.arch c).verify.isEmpty

/-! ### Stops and statuses (R74 to R81) -/

/-- Whether a queue entry survives a stop (R80): a command in progress, except a SEND that waits for credits. -/
def QEntry.survives (e : QEntry) : Bool := e.started && !e.creditWait

/-- A unit after a stop: queued commands are discarded (R80). -/
def CmdUnit.cut (u : CmdUnit) : CmdUnit := { u with queue := u.queue.filter QEntry.survives }

/-- Scoreboard counts that the remaining queues leave (R50). -/
def Arch.recount (a : Arch) : Arch :=
  let count (b : Nat) : Nat :=
    ((vGet a.units (b / 4) clearUnit).queue.filter fun e => e.sb = b % 4 + 1).length
  { a with board := { a.board with count := Vector.ofFn fun i : Fin 16 => count i.val } }

/-- The report of a core at a gate (R109, R79). -/
def Arch.report (a : Arch) (stopped : Bool) : GateRep :=
  { step := a.stat.stepNo, clean := a.stat.clean && !stopped, issue := a.stat.issue, late := a.stat.late,
    throttle := a.stat.throttle, programError := a.stat.programError, hardFault := a.stat.hardFault,
    code := a.stat.exc.code, suspect := a.checker.suspect, suspects := a.stat.suspects, results := a.checker.results, stopped := stopped,
    ended := false }

/-- A stop reaches the gate network (R79): it spoils the report of a gate not yet settled, or reports for the current step. -/
def Core.reportStop (k : Core) : Core :=
  let r := k.arch.report true
  if k.arch.stat.stepNo ≠ 0 ∧ k.reports.any (fun p => p.step + 1 = k.arch.stat.stepNo) then
    { k with reports := k.reports.map fun p =>
        if p.step + 1 = k.arch.stat.stepNo then { r with step := p.step } else p }
  else if k.reports.any (fun p => p.step = k.arch.stat.stepNo) then k
  else { k with reports := k.reports ++ [r] }

/-- Kind of a code that stops a core: 1 refusal, 3 suspect (R74). -/
def stopKind (code : Code) : Nat :=
  if code = cCheckMismatch ∨ code = cBlockCheckFail ∨ code = cSteerSkew ∨ code = cSpillExhausted ∨
      code = cCadenceDeviation then 3 else 1

/-- A core stops after a refusal or a suspect result (R74 to R80). -/
def Dev.stop (d : Dev) (c : CoreId) (code : Code) (unit sb pc gear d0 d1 : Nat) : Dev :=
  let k := d.core c
  if k.arch.stat.run = .stopped then d
  else
    let refusal := decide (stopKind code = 1)
    let d := d.updArch c fun a =>
      { a with
        stat := { a.stat with
          run := .stopped, clean := false, programError := refusal, hardFault := false,
          exc := ⟨code, unit, sb, 0⟩, excWhere := pc + 4096 * gear, excDetail0 := d0, excDetail1 := d1,
          stall := none,
          suspects := if refusal then a.stat.suspects
            else ⟨code, 0, pc + 4096 * gear + 2 ^ 16 * unit, d0⟩ :: a.stat.suspects }
        units := a.units.map CmdUnit.cut }
    let d := d.updArch c Arch.recount
    let d := d.updCore c Core.reportStop
    d.eventCore c code unit (stopKind code) d0 d1

/-- Says of a core's latest suspect result where the bad block lay: 1 tier 2, 2 near store (R384). -/
def Core.markSuspect (k : Core) (n : Nat) : Core :=
  let mark (l : List SusRec) : List SusRec := match l with
    | [] => []
    | r :: rest => { r with detail := n } :: rest
  { k with
    arch := { k.arch with stat := { k.arch.stat with suspects := mark k.arch.stat.suspects } }
    reports := k.reports.map fun r => if r.stopped then { r with suspects := mark r.suspects } else r }

/-! ### Uncorrectable words and near-store rows (R189, R195) -/

/-- The slice and bank of a physical core. -/
def Dev.slice (d : Dev) (p : Nat) : SliceSt := (nmGet d.slices p).getD clearSlice

/-- Changes a slice. -/
def Dev.updSlice (d : Dev) (p : Nat) (f : SliceSt → SliceSt) : Dev :=
  { d with slices := nmSet d.slices p (f (d.slice p)) }

/-- Key of the physical core under a logical core. -/
def Dev.physKey (d : Dev) (c : CoreId) : Nat := (d.physCore c).2 * 64 + (d.physCore c).1

/-- Row of a slice that holds an offset, as die * 8192 + row: each die holds 6,144 rows of 1 KiB, in ascending order (R191; DESIGN CHOICE, log entry 104). -/
def nearRow (off : Nat) : Nat := off / 0x600000 * 8192 + off % 0x600000 / 1024

/-- A row is to be mapped out (R195). -/
def Dev.rowDue (d : Dev) (c : CoreId) (row : Nat) : Dev :=
  d.updSlice (d.physKey c) fun x => { x with due := if x.due.contains row then x.due else x.due ++ [row] }

/-- Where a piece of local memory holds an uncorrectable word (R189). -/
inductive BadAt where
  | home
  | near (c : CoreId) (row : Nat)
deriving DecidableEq, Repr

/-- The first uncorrectable quarter of a piece of local memory, address and length. -/
def Dev.badAt (d : Dev) (c : CoreId) (p : Nat × Nat) : Option BadAt :=
  let hit (off : Nat) (q : Nat) : Bool := decide (off / 16 ≤ q) && decide (q ≤ (off + p.2 - 1) / 16)
  if p.2 = 0 then none
  else
    match locate c p.1 with
    | .home o off => ((d.core o).mem.badHome.find? (hit off)).map fun _ => .home
    | .near o off => ((d.core o).mem.badNear.find? (hit off)).map fun q => .near o (nearRow (16 * q))
    | _ => none

/-- An uncorrectable word is counted where it lies, and its near-store row is to be mapped out (R189, R195). -/
def Dev.badCounted (d : Dev) (w : BadAt) : Dev :=
  match w with
  | .home => d.bump 0x3001 2 1
  | .near o row => (d.bump 0x3000 9 1).rowDue o row

/-- An uncorrectable word stops a core against an instruction or command (R189, R384). -/
def Dev.badWord (d : Dev) (c : CoreId) (w : BadAt) (unit sb pc gear : Nat) : Dev :=
  let d := (d.badCounted w).stop c cBlockCheckFail unit sb pc gear 0 0
  match w with
  | .home => d
  | .near _ _ => d.updCore c fun k => k.markSuspect 2

/-- A status of a unit that does not stop the core (R76): the first since the register was read counts 1 (DEDUCED: R67 counts the statuses since then; log entry 98). -/
def Arch.status (a : Arch) (code : Code) (unit sb : Nat) : Arch :=
  let l := vGet a.stat.last (unit - 1) clearStatus
  let l' : LastStatus := ⟨code, unit, sb, min 511 (l.count + 1)⟩
  { a with stat := { a.stat with
      last := vSet a.stat.last (unit - 1) l', sp := vSet a.stat.sp (unit - 1) true } }

end Sys2Proof.Machine
end

