-- ==== Sys2Proof/Machine/Checker.lean ====
section
/-! DEFINITION. The core's checker: residues, tolerance sums and the checking lanes (R359 to R364, R383). -/

namespace Sys2Proof.Machine

/-! ### Exact numbers n times 2 to the q -/

/-- The sum of two numbers, each an integer and its exponent. -/
def scAdd (a b : Int × Int) : Int × Int :=
  if a.1 = 0 then b
  else if b.1 = 0 then a
  else
    let e := min a.2 b.2
    (a.1 * 2 ^ (a.2 - e).toNat + b.1 * 2 ^ (b.2 - e).toNat, e)

/-- The sum of a list. -/
def scSum (l : List (Int × Int)) : Int × Int := l.foldl scAdd (0, 0)

/-- The product of two numbers. -/
def scMul (a b : Int × Int) : Int × Int := (a.1 * b.1, a.2 + b.2)

/-- The magnitude of a number. -/
def scAbs (a : Int × Int) : Int × Int := ((a.1.natAbs : Int), a.2)

/-- The integer of a number at an exponent that is at most its own. -/
def scAt (a : Int × Int) (e : Int) : Int := if a.1 = 0 then 0 else a.1 * 2 ^ (a.2 - e).toNat

/-- An XA128 entry as such a number. -/
def XA.scaled (x : XA) : Int × Int := (x.s, x.e)

/-! ### Residues (R360) -/

/-- The modulus p of R360. -/
def residueP : Nat := 2 ^ 61 - 1

/-- The residue of a finite value (R360). -/
def rho (x : Int × Int) : Nat := (x.1 % (residueP : Int)).toNat * 2 ^ (x.2 % 61).toNat % residueP

/-- The residue of a sum of residues. -/
def sumP (l : List Nat) : Nat := l.sum % residueP

/-! ### The checks of a tensor command (R359 to R361) -/

/-- A row that a command fed: its number, the elements of A in it by k, and the 16 entries that it fed, before and after. -/
structure FedRow where
  row : Nat
  elems : List (Nat × Nat)
  before : List XA
  after : List XA

/-- What the checker reads of the operands in the same read as the tensor unit: formats, the elements of B, and the scale bytes of A and B by block of 32 k (R177, R135, R360). -/
structure Fed where
  fmtA : Nat
  fmtB : Nat
  mx : Bool
  b : Nat → Nat → Nat
  scaleA : Nat → Nat → Nat
  scaleB : Nat → Nat → Nat
  rows : List FedRow

/-- A finite element with its block scale applied; a special value counts as 0, as no line that it reaches is checked. -/
def hat (fmt : Nat) (mx : Bool) (scale elem : Nat) : Int × Int :=
  let x := (decodeElem fmt elem).sq
  if mx then (x.1, x.2 + scale - 127) else x

/-- Â of an element of a row. -/
def Fed.a (s : Fed) (r : FedRow) (e : Nat × Nat) : Int × Int := hat s.fmtA s.mx (s.scaleA r.row (e.1 / 32)) e.2

/-- B̂ at k and column j. -/
def Fed.bHat (s : Fed) (k j : Nat) : Int × Int := hat s.fmtB s.mx (s.scaleB (k / 32) j) (s.b k j)

/-- What the command added to the entry of a row in column j. -/
def FedRow.delta (r : FedRow) (j : Nat) : Int × Int :=
  let x := (r.before.getD j (XA.mk0 0 0 0)).scaled
  scAdd (r.after.getD j (XA.mk0 0 0 0)).scaled (-x.1, x.2)

/-- The magnitudes of that entry before and after the command. -/
def FedRow.weight (r : FedRow) (j : Nat) : Int × Int :=
  scAdd (scAbs (r.before.getD j (XA.mk0 0 0 0)).scaled) (scAbs (r.after.getD j (XA.mk0 0 0 0)).scaled)

/-- Whether an entry is one that the checker does not check (R361). -/
def XA.special (x : XA) : Bool := x.nan || x.inf || x.ovf

/-- The k that the fed rows have elements of. -/
def Fed.ks (s : Fed) : List Nat := (s.rows.flatMap fun r => r.elems.map Prod.fst).dedup

/-- The exact check of a row or of a column: the residue of its sum, and that of the reference (R360). -/
def exactCheck (column : Bool) (index observed expected : Nat) : Check :=
  { kind := 1, column := column, index := index, modulus := 0, width := 61, obs := observed, exp := expected, mag := 0, q := 0 }

/-- Exact check of a row (R360). -/
def Fed.exactRow (s : Fed) (r : FedRow) : Check :=
  exactCheck false r.row (sumP ((List.range 16).map fun j => rho (r.delta j)))
    (sumP (r.elems.map fun e => rho (s.a r e) * rho (scSum ((List.range 16).map fun j => s.bHat e.1 j))))

/-- The elements of A at k, of every fed row, with their scales. -/
def Fed.aColumn (s : Fed) (k : Nat) : List (Int × Int) :=
  s.rows.flatMap fun r => (r.elems.filter fun e => e.1 = k).map fun e => s.a r e

/-- Exact check of a column (R360). -/
def Fed.exactColumn (s : Fed) (j : Nat) : Check :=
  exactCheck true j (sumP (s.rows.map fun r => rho (r.delta j)))
    (sumP (s.ks.map fun k => rho (scSum (s.aColumn k)) * rho (s.bHat k j)))

/-- A sum under R140, in the order of the list. -/
def xaSum (l : List (Int × Int)) : Int × Int := ((l.map fun x => XA.mk0 x.1 x.2 0).foldl XA.add (XA.mk0 0 0 0)).scaled

/-- The product of an element of a row and one of B: for FP32 the split product (R138, R361). -/
def Fed.product (s : Fed) (r : FedRow) (e : Nat × Nat) (j : Nat) : Int × Int :=
  if fmtClass s.fmtA = 3 then (singleProd e.2 (s.b e.1 j)).scaled else scMul (s.a r e) (s.bHat e.1 j)

/-- The tolerance check of a row or of a column: D, R and M at a common exponent (R361). -/
def toleranceCheck (column : Bool) (index : Nat) (D R M : Int × Int) : Check :=
  let q := min D.2 (min R.2 M.2)
  { kind := 2, column := column, index := index, modulus := 0, width := 0, obs := scAt D q, exp := scAt R q, mag := scAt M q, q := q }

/-- Tolerance check of a row (R361). -/
def Fed.toleranceRow (s : Fed) (r : FedRow) : Check :=
  let js := List.range 16
  toleranceCheck false r.row (scSum (js.map r.delta))
    (xaSum (r.elems.map fun e =>
      if fmtClass s.fmtA = 3 then xaSum (js.map (s.product r e)) else scMul (s.a r e) (xaSum (js.map fun j => s.bHat e.1 j))))
    (scAdd (scSum (r.elems.flatMap fun e => js.map fun j => scAbs (s.product r e j))) (scSum (js.map r.weight)))

/-- Tolerance check of a column (R361). -/
def Fed.toleranceColumn (s : Fed) (j : Nat) : Check :=
  toleranceCheck true j (scSum (s.rows.map fun r => r.delta j))
    (if fmtClass s.fmtA = 3 then xaSum (s.rows.flatMap fun r => r.elems.map fun e => s.product r e j)
      else xaSum (s.ks.map fun k => scMul (xaSum (s.aColumn k)) (s.bHat k j)))
    (scAdd (scSum (s.rows.flatMap fun r => r.elems.map fun e => scAbs (s.product r e j)))
      (scSum (s.rows.map fun r => r.weight j)))

/-- What the checker forms for a TMUL or TMULS: whether an exact check became one within tolerance, how many rows and columns are not checked, and the checks, rows before columns, each ascending (R359 to R361; log entry 94). -/
def Fed.taken (s : Fed) : Bool × Nat × List Check :=
  let narrow := decide (fmtClass s.fmtA ≤ 1)
  let inexact := s.rows.any fun r => r.after.any (·.inx)
  let exact := narrow && !inexact
  let rows := s.rows.filter fun r => !r.after.any XA.special
  let cols := (List.range 16).filter fun j => !s.rows.any fun r => (r.after[j]?).any XA.special
  (narrow && inexact, (s.rows.length - rows.length) + (16 - cols.length),
    rows.map (if exact then s.exactRow else s.toleranceRow)
      ++ cols.map (if exact then s.exactColumn else s.toleranceColumn))

/-! ### Checking lanes (R359, R362) -/

/-- The check of a lane: the main lane's output and the checking lane's, bit for bit or modulo `modulus`. -/
def laneCheck (index modulus width observed expected : Nat) : Check :=
  { kind := 3, column := false, index := index, modulus := modulus, width := width, obs := observed, exp := expected, mag := 0, q := 0 }

/-! ### Judging -/

/-- What a check compares once hardware has failed: the sums of rows and columns (`rows`, `cols`) and their references (`refRows`, `refCols`) have the listed integers times 2 to the q added to them; the outputs of lanes have the listed bits changed. -/
def Check.upset (k : Check) (rows cols refRows refCols : NMap Int) (q : Int) : Check :=
  let x := (nmGet (if k.column then cols else rows) k.index).getD 0
  let y := (nmGet (if k.column then refCols else refRows) k.index).getD 0
  if x = 0 ∧ y = 0 then k
  else
    match k.kind with
    | 1 => { k with obs := (k.obs + rho (x, q)) % residueP, exp := (k.exp + rho (y, q)) % residueP }
    | 2 =>
      let e := min k.q q
      { k with q := e, mag := scAt (k.mag, k.q) e, obs := scAt (k.obs, k.q) e + scAt (x, q) e, exp := scAt (k.exp, k.q) e + scAt (y, q) e }
    | _ => { k with obs := (k.obs.toNat ^^^ x.natAbs : Nat), exp := (k.exp.toNat ^^^ y.natAbs : Nat) }

/-- Whether an observed value, at the check's exponent, passes the check (R360 to R362). -/
def Check.passesWith (k : Check) (obs : Int) : Bool :=
  if k.kind = 2 then decide (((obs - k.exp).natAbs : Int) * 2 ^ 80 ≤ k.mag)
  else if k.modulus = 0 then decide (obs = k.exp)
  else decide (obs % k.modulus = k.exp % k.modulus)

/-- Whether a check passes. -/
def Check.passes (k : Check) : Bool := k.passesWith k.obs

/-- Whether a replay's check observes what the original's did, bit for bit (R383). -/
def Check.sameObserved (k r : Check) : Bool :=
  let e := min k.q r.q
  decide (k.kind = r.kind) && decide (scAt (k.obs, k.q) e = scAt (r.obs, r.q) e) && decide (scAt (k.mag, k.q) e = scAt (r.mag, r.q) e)

/-- Whether a replay's check passes the original one against the original's expected value and M (R383). -/
def Check.passesAs (k r : Check) : Bool :=
  let e := min k.q r.q
  decide (k.kind = r.kind)
    && { k with q := e, exp := scAt (k.exp, k.q) e, mag := scAt (k.mag, k.q) e }.passesWith (scAt (r.obs, r.q) e)

/-- Whether two checks are of one row, column or lane. -/
def Check.at_ (k r : Check) : Bool := decide (k.index = r.index) && k.column == r.column

/-- The observed value as integ.last shows it: the CRC-64 of it when it is wider than 64 bits; the form in which D and M enter it is not stated (R364, R388; DESIGN CHOICE, log entry 119). -/
def Check.observedWord (k : Check) : Nat :=
  if k.kind = 2 then (Config.toleranceWord k.obs k.mag k.q).toNat
  else if k.width ≤ 64 then k.obs.toNat else crc64 (natLe k.obs.toNat (k.width / 8))

/-- The expected value in the same form (R388). -/
def Check.expectedWord (k : Check) : Nat :=
  if k.kind = 2 then (Config.toleranceWord k.exp 0 k.q).toNat
  else if k.width ≤ 64 then k.exp.toNat else crc64 (natLe k.exp.toNat (k.width / 8))

end Sys2Proof.Machine
end

