-- ==== Sys2Proof/Machine/Throttle.lean ====
section
/-! DEFINITION. Throttle levels and withheld cycles (R61, R564 to R567, R569). -/

namespace Sys2Proof.Machine

/-- The region record of a core. -/
def Dev.coreRegion (d : Dev) (c : CoreId) : Option RegionRec :=
  match (d.core c).ctx with
  | some n => (d.ctx n).image.regions.find? fun r => r.region = (d.core c).region
  | none => none

/-- Whether any level is in force. -/
def Pow.throttles (p : Pow) : Bool := p.cap != 0 || p.limit != 0 || p.hotAll || !p.hot.isEmpty

/-- Classes of resident contexts below a class. -/
def Dev.classesBelow (d : Dev) (cls : Nat) : Nat :=
  ((List.range cls).filter fun k => d.ctxs.any fun p => p.2.cls = k && (p.2.state = .resident || p.2.state = .running
    || p.2.state = .blocked || p.2.state = .draining)).length

/-- The level that R564 gives a context (R566; log entry 32). -/
def Dev.capLevel (d : Dev) (cls : Nat) : Nat :=
  if d.objD 0x2100 6 0 = 1 then min 15 (d.pow.cap - 15 * d.classesBelow cls) else min 15 d.pow.cap

/-- Sensors over a region: those of its cells, and the four dies (R191, R568). -/
def Dev.sensorsOver (d : Dev) (maps : NMap Nat) (r : RegionRec) : List Nat :=
  ((List.range r.ch).flatMap fun j => (List.range r.cw).map fun i =>
    let p := d.physCell maps (r.cx0 + i) (r.cy0 + j)
    p.2 / 4 * 8 + p.1 / 4) ++ [64, 65, 66, 67]

/-- The highest level of the sensors over a region (R569). -/
def Dev.hotLevel (d : Dev) (maps : NMap Nat) (r : RegionRec) : Nat :=
  if d.pow.hot.isEmpty then 0
  else (d.sensorsOver maps r).foldl (fun m s => max m ((nmGet d.pow.hot s).getD (0, 0)).1) 0

/-- The level of the region that a core belongs to: the highest of all sources (R566, R567, R569). -/
def Dev.throttleLevel (d : Dev) (c : CoreId) : Nat :=
  if !d.pow.throttles then 0
  else
    match (d.core c).ctx, d.coreRegion c with
    | some n, some r =>
      if d.pow.hotAll then 15
      else max (max (d.capLevel (d.ctx n).cls) d.pow.limit) (d.hotLevel (((d.rtOf c).map (·.maps)).getD []) r)
    | _, _ => 0

/-- Cycles withheld before n enabled cycles have passed, from place `w` of the device-wide count, whose groups of 16 start at its multiples of 16, at level l (R565). -/
def withheldIn (l w n : Nat) : Nat :=
  if l = 0 ∨ n = 0 then 0
  else
    let before := w - w * l / 16
    (16 * (before + n - 1) / (16 - l) + 1) - w - n

/-- A core's enabled cycles up to `past`, at a level (R565). -/
def CoreStat.holdTo (s : CoreStat) (level past : Nat) : Hold := ⟨s.cyc, past, level, s.place⟩

/-- Cycles withheld in a stretch. -/
def Hold.count (h : Hold) : Nat := withheldIn h.level h.place (h.past - h.first)

/-- Cycles withheld in the part of a stretch between two cycles. -/
def Hold.between (h : Hold) (a b : Nat) : Nat :=
  let upTo (x : Nat) := withheldIn h.level h.place (min x h.past - h.first)
  upTo b - upTo a

/-- The stretch in which a core spends its cycles up to `past`. -/
def Dev.hold (d : Dev) (c : CoreId) (past : Nat) : Hold := (d.arch c).stat.holdTo (d.throttleLevel c) past

/-- Throttle stalls are counted apart from the issue count (R61, R62). -/
def CoreStat.withhold (s : CoreStat) (h : Hold) : CoreStat :=
  { s with
    place := s.place + h.count, throttle := s.throttle + h.count, throttled := s.throttled || h.count != 0
    holds := if h.count = 0 then s.holds else s.holds ++ [h] }

/-- Cycles withheld between two cycles of a core that is at the level now (R100, R565). -/
def CoreStat.heldBetween (s : CoreStat) (level a b : Nat) : Nat :=
  ((s.holds ++ [s.holdTo level (max s.cyc b)]).map fun h => h.between a b).sum

/-- power.throttle_cycles rises once per region cycle: with the region's first core (R565). -/
def Dev.throttled (d : Dev) (c : CoreId) (k : Nat) : Dev :=
  if k != 0 && (d.coreRegion c).any fun r => c = (⟨2 * r.cx0, 2 * r.cy0⟩ : CoreId) then d.bump 0x2100 9 k else d

/-! ### The CORE clock (R551) -/

/-- Maximum CORE clock of the grade, kHz (R38, R41). -/
def Dev.gradeClock (d : Dev) : Nat :=
  match d.sec.fuses.grade with
  | 1 => 1900000
  | 2 => 1550000
  | _ => 950000

/-- Whether no context is RESIDENT, RUNNING, BLOCKED or DRAINING (R551, R552). -/
def Dev.noneResident (d : Dev) : Bool := d.ctxs.all fun p => !(p.2.state = .resident || p.2.state = .running
  || p.2.state = .blocked || p.2.state = .draining)

/-- Requested CORE clock. -/
def Dev.askedClock (d : Dev) : Nat := d.objD 0x2100 1 d.gradeClock

/-- The clock rises to the requested one at the first moment that VCORE meets its target and no context is resident (R551). -/
def Dev.clockRise (d : Dev) : Dev :=
  if d.objD 0x2100 0xB 0 = 1 && d.pow.vcoreMet && d.noneResident then (d.setObj 0x2103 1 d.askedClock).setObj 0x2100 0xB 0 else d

end Sys2Proof.Machine
end

