-- ==== Sys2Proof/Machine/Operands.lean ====
section
/-! DEFINITION. Operand forms of the core's instructions: registers, immediates, waits and issue (R43 to R47, R85 to R97). -/

namespace Sys2Proof.Machine

/-! ### Registers (R47, R51) -/

/-- Scalar register; s0 reads 0. -/
def Regs.sGet (r : Regs) (i : Nat) : Word := if i = 0 then 0#32 else vGet r.s i 0#32

/-- Writes a scalar register; a write to s0 is discarded. -/
def Regs.sSet (r : Regs) (i : Nat) (w : Word) : Regs := if i = 0 then r else { r with s := vSet r.s i w }

/-- Address register. -/
def Regs.aGet (r : Regs) (i : Nat) : DWord := vGet r.a i 0#64

/-- Writes an address register. -/
def Regs.aSet (r : Regs) (i : Nat) (w : DWord) : Regs := { r with a := vSet r.a i w }

/-- Vector register. -/
def Regs.vRead (r : Regs) (i : Nat) : Vector Word 64 := vGet r.v i (Vector.replicate 64 0#32)

/-- Writes a vector register. -/
def Regs.vWrite (r : Regs) (i : Nat) (x : Vector Word 64) : Regs := { r with v := vSet r.v i x }

/-- Register identifiers for the interlock: scalar, predicate, address (R96). -/
abbrev sId (i : Nat) : Nat := i
abbrev pId (i : Nat) : Nat := 32 + i
abbrev aId (i : Nat) : Nat := 48 + i

/-- Marks a register usable from cycle `nom`, or `act` when late (R96). s0 and p0 are never awaited. -/
def Regs.busy (r : Regs) (id nom act : Nat) : Regs :=
  if id = 0 ∨ id = 32 then r else { r with ready := nmSet r.ready id (nom, act) }

/-- An address register with another offset. -/
def withOffset (a : DWord) (o : Nat) : DWord := BitVec.ofNat 64 (a.toNat / 2 ^ 32 * 2 ^ 32 + o % 2 ^ 32)

/-- An address register with another handle. -/
def withHandle (a : DWord) (h : Nat) : DWord :=
  BitVec.ofNat 64 (a.toNat / 2 ^ 38 * 2 ^ 38 + h % 64 * 2 ^ 32 + a.toNat % 2 ^ 32)

/-- An address register with another valid bit. -/
def withValid (a : DWord) (v : Bool) : DWord :=
  BitVec.ofNat 64 (a.toNat % 2 ^ 63 + if v then 2 ^ 63 else 0)

/-! ### The predicate file (R49, R50) -/

/-- A scoreboard bit as it reads in cycle t: no command outstanding and the last release not later than t. -/
def Board.reads (b : Board) (i t : Nat) : Bool := vGet b.count i 0 = 0 && decide ((vGet b.rel i (0, 0)).1 ≤ t)

/-- Bit i of the predicate file in cycle t (R49). -/
def Arch.predBit (a : Arch) (i t : Nat) : Bool :=
  if i = 0 then true
  else if i < 8 then vGet a.regs.p i false
  else if i < 24 then a.board.reads (i - 8) t
  else if i < 28 then vGet a.stat.sp (i - 24) false
  else false

/-- The predicate file as a word (R49, R67 pred_view). -/
def Arch.predWord (a : Arch) (t : Nat) : Nat :=
  ((List.range 28).map fun i => if a.predBit i t then 2 ^ i else 0).sum

/-! ### Waits (R58 to R60, R96) -/

/-- A point in time reached by waiting, with the late-arrival cycles among those waited: their number, the marks up to which the tensor and the vector unit's lateness is among them, and where they lie. -/
structure At where
  cyc : Nat
  late : Nat
  tensor : Nat
  vector : Nat
  spans : List (Nat × Nat)
deriving DecidableEq, Repr

/-- The cycle in which a core presents its next instruction. -/
def CoreStat.now (s : CoreStat) : At := ⟨s.cyc, 0, s.tensorMark, s.vectorMark, []⟩

/-- Waits until `until_`, of which `lateMax` cycles at most are late. -/
def At.waitFor (w : At) (until_ lateMax : Nat) : At :=
  if until_ ≤ w.cyc then w
  else
    let n := min lateMax (until_ - w.cyc)
    { w with cyc := until_, late := w.late + n, spans := if n = 0 then w.spans else w.spans ++ [(until_ - n, until_)] }

/-- Waits for the tensor (0) or the vector unit (1) until `until_`: left out of the count are the late cycles up to `mark` of the busy stretch from `chain` that no earlier wait has left out (R60; log entry 89). -/
def At.waitUnit (w : At) (unit until_ chain mark : Nat) : At :=
  if until_ ≤ w.cyc then w
  else
    let from_ := max chain (if unit = 0 then w.tensor else w.vector)
    let n := min (mark - from_) (until_ - w.cyc)
    let x := w.waitFor until_ n
    if unit = 0 then { x with tensor := from_ + n } else { x with vector := from_ + n }

/-- Waits for a register: cycles beyond its nominal latency are late (R58, R96). -/
def At.waitReg (w : At) (r : Regs) (id : Nat) : At :=
  match nmGet r.ready id with
  | none => w
  | some (nom, act) => w.waitFor act (act - max nom w.cyc)

/-- Waits for several registers. -/
def At.waitRegs (w : At) (r : Regs) (ids : List Nat) : At := ids.foldl (fun w i => w.waitReg r i) w

/-- Waits for a scoreboard bit (R59, R60); none while a command that names it is outstanding. -/
def At.waitBit (w : At) (a : Arch) (i : Nat) : Option At :=
  if vGet a.board.count i 0 ≠ 0 then none
  else
    let r := vGet a.board.rel i (0, 0)
    some (if i < 8 then w.waitUnit (i / 4) r.1 (vGet a.units (i / 4) clearUnit).chain r.2 else w.waitFor r.1 r.1)

/-- Waits for unit 0 tensor, 1 vector, 2 message or 3 DMA until a completion; a wait on the last two is late for every cycle (R59, R60). -/
def At.waitEnd (w : At) (u : CmdUnit) (unit until_ mark : Nat) : At :=
  if unit ≤ 1 then w.waitUnit unit until_ u.chain mark else w.waitFor until_ until_

/-- Waits for a unit to be idle: its queue empty and its last completion passed (R85). -/
def At.waitIdle (w : At) (u : CmdUnit) (unit : Nat) : Option At :=
  if u.queue ≠ [] then none else some (w.waitEnd u unit u.lastEnd u.mark)

/-- Waits for verdicts that have a cycle; each counts as a wait on its unit (R112, R363). -/
def At.waitVerdicts (w : At) (l : List Verdict) : At :=
  l.foldl (fun w v => w.waitUnit (if v.tensor then 0 else 1) v.due v.chain v.mark) w

/-- Entries of a unit's queue occupied in cycle t (R45). -/
def CmdUnit.occupied (u : CmdUnit) (t : Nat) : Nat :=
  u.queue.length + (u.freed.filter fun c => decide (t ≤ c.1)).length

/-- First cycle from t in which the queue can accept, looking past at most `fuel` completions, and the mark of the completion that frees the entry (R45). -/
def CmdUnit.acceptFrom (u : CmdUnit) : Nat → Nat → Nat → Nat × Nat
  | 0, t, m => (t, m)
  | fuel + 1, t, m =>
    if u.occupied t < 8 then (t, m)
    else
      match (u.freed.filter fun c => decide (t ≤ c.1)) with
      | [] => (t, m)
      | c :: rest =>
        let c := rest.foldl (fun a b => if b.1 < a.1 then b else a) c
        u.acceptFrom fuel (c.1 + 1) c.2

/-- Waits for a free queue entry; none while all eight hold commands that have not completed (R45, R59, R60). -/
def At.waitQueue (w : At) (u : CmdUnit) (unit : Nat) : Option At :=
  if u.queue.length ≥ 8 then none
  else
    let t := u.acceptFrom 9 w.cyc 0
    some (w.waitEnd u unit t.1 t.2)

/-! ### Code ranges (R88, R276) -/

/-- A field of the gear header held in a slot (R276). -/
def Slot.hdr (s : Slot) (hi lo : Nat) : Nat := bits (leNat (memRead (vGet s.parts 0 []) 0 32)) hi lo

/-- First instruction index of a slot's code. -/
def Slot.codeBase (s : Slot) : Nat := s.hdr 35 24
/-- Number of instructions of a slot's code. -/
def Slot.codeLen (s : Slot) : Nat := s.hdr 48 36
/-- First switch-program entry of a slot. -/
def Slot.swBase (s : Slot) : Nat := s.hdr 58 49
/-- Number of switch-program entries of a slot. -/
def Slot.swLen (s : Slot) : Nat := s.hdr 69 59
/-- Switch-program entry after a SHIFT into the slot. -/
def Slot.swEntry (s : Slot) : Nat := s.hdr 79 70
/-- Instruction index at which a context enters. -/
def Slot.startIdx (s : Slot) : Nat := s.hdr 91 80

/-- Slot s of a core. -/
def Core.slot (k : Core) (s : Nat) : Slot := vGet k.slots s clearSlot

/-- Whether an instruction index lies in the code range of a resident slot (R88, R278). -/
def Core.inCode (k : Core) (slot i : Nat) : Bool :=
  let s := k.slot slot
  decide (s.codeBase ≤ i) && decide (i < s.codeBase + s.codeLen)

/-! ### Presenting an instruction (R88 to R96) -/

/-- What an instruction needs of the scalar unit. -/
structure Need where
  /-- Unit code for a refusal (R91). -/
  unit : Nat
  /-- Whether it must be unguarded: GATE and SHIFT (R108). -/
  unguarded : Bool
  /-- Registers read or written, for the interlock (R96). -/
  regs : List Nat
deriving DecidableEq, Repr

/-- The core's clocks after an instruction that issued in `w.cyc` and took n issue cycles (R57, R95). -/
def CoreStat.spent (s : CoreStat) (w : At) (n : Nat) : CoreStat :=
  { s with cyc := w.cyc + n, place := s.place + (w.cyc + n - s.cyc), issue := s.issue + (w.cyc - s.cyc - w.late) + n, late := s.late + w.late, stall := none,
           tensorMark := w.tensor, vectorMark := w.vector, lates := s.lates ++ w.spans }

/-- Drops completions that lie behind the core's cycle. -/
def Arch.prune (a : Arch) : Arch :=
  { a with units := a.units.map fun u => { u with freed := u.freed.filter fun c => decide (a.stat.cyc ≤ c.1) } }

/-- Whether the guard encoding is reserved (R90). -/
def guardReserved (g : Common) : Bool := decide (28 ≤ g.guardIdx) || (g.guardNeg && decide (8 ≤ g.guardIdx) && decide (g.guardIdx < 24))

/-- The wait for an instruction's guard (R90): none while a scoreboard bit is outstanding. -/
def Arch.guardWait (a : Arch) (g : Common) : Option At :=
  let w := a.stat.now
  if 8 ≤ g.guardIdx ∧ g.guardIdx < 24 then w.waitBit a (g.guardIdx - 8)
  else if g.guardIdx < 8 then some (w.waitReg a.regs (pId g.guardIdx))
  else some w

/-- Whether the guard lets the instruction execute (R90). -/
def Arch.guardTrue (a : Arch) (g : Common) (t : Nat) : Bool := a.predBit g.guardIdx t != g.guardNeg

/-- A core spends the cycles up to w.cyc and n issue cycles, with those withheld among them (R57, R61, R565). -/
def Dev.spend (d : Dev) (c : CoreId) (w : At) (n : Nat) : Dev :=
  let h := d.hold c (w.cyc + n)
  (d.updStat c fun s => (s.spent w n).withhold h).throttled c h.count

/-- Records why the instruction presented did not issue. -/
def Dev.stalled (d : Dev) (c : CoreId) (why : Stall) : Dev := d.updStat c fun s => { s with stall := some why }

/-- Whether a stall is a late-arrival stall for every cycle it lasts: not the waits for the tensor and the vector unit and for verdicts, which R60 and R112 count, nor the router's lag, whose cycles its own holds count (R59, R111, R202, R219, R226, R342). -/
def Stall.late : Stall → Bool
  | .guard unit | .queueFull unit | .unitsBusy unit => decide (2 ≤ unit)
  | .verdictHold | .routerBehind => false
  | _ => true

/-- A late-arrival stall of a core's scalar unit, of n cycles (R58, R61). -/
def Dev.stallLate (d : Dev) (c : CoreId) (n : Nat) : Dev :=
  let w := (d.arch c).stat.now
  d.spend c (w.waitFor (w.cyc + n) n) 0

/-- An instruction that waits from w on without an end in sight: presented again it has spent the waits before, and one cycle more when the stall is late (R59; log entry 99). -/
def Dev.waits (d : Dev) (c : CoreId) (why : Stall) (w : At) : Dev :=
  (if why.late then d.spend c (w.waitFor (w.cyc + 1) 1) 0 else d).stalled c why

/-- Refuses the instruction at the program counter (R75, R92). -/
def Dev.refuse (d : Dev) (c : CoreId) (g : Common) (unit : Nat) (w : At) (code : Code) : Dev :=
  let d := d.spend c w 0
  let s := (d.arch c).stat
  d.stop c code unit (if 1 ≤ unit ∧ unit ≤ 4 then g.sb else 0) s.pc s.gear 0 0

/-- An instruction's own part: a further wait, the checks of rows 4 to 8 of R92, and its effect with the issue cycle. The effect finds the program counter on the next instruction and the clocks advanced by one cycle. -/
structure Body where
  wait : Dev → At → Except (Stall × At) At
  check : Dev → At → Option Code
  effect : Dev → At → Dev

/-- Whether the router has step cycles to execute that the issue count has passed: the core issues no further until it has (R217, R219). At END it has none but the first one of a step with a steered eject stream, whose count word it clears (R216, R233). -/
def Arch.routerBehind (a : Arch) : Bool :=
  decide (a.router.cycle < a.stat.issue) &&
    (!a.router.atEnd || (a.router.cycle = 0 && a.router.ej.toList.any fun s => s.present && s.steered))

/-- Whether the router has executed the step cycle in which a command was accepted, whose eject writes that command sees (R217, R222). -/
def Arch.routerPast (a : Arch) (e : QEntry) : Bool :=
  e.step != a.stat.stepNo || a.router.atEnd || decide (e.counted < a.router.cycle)

/-- Presents an instruction to a core (R88 to R96): nothing happens on a core that is not running; otherwise it stalls, is refused, is passed over by its guard, or issues. The guard comes before the waits for the instruction's own registers (DEDUCED; log entry 100). -/
def Dev.present (d : Dev) (c : CoreId) (g : Common) (n : Need) (b : Body) : Dev :=
  let k := d.core c
  let a := k.arch
  if a.stat.run ≠ .running then d
  else if a.routerBehind then d.stalled c .routerBehind
  else if !k.inCode a.stat.gear a.stat.pc then
    (d.stop c cBounds 0 0 a.stat.lastPc a.stat.gear 0 0)
  else if guardReserved g then d.refuse c g n.unit a.stat.now cReservedNonzero
  else if n.unguarded && !(g.guardIdx = 0 && !g.guardNeg) then d.refuse c g n.unit a.stat.now cBadArgument
  else
    match a.guardWait g with
    | none => d.waits c (.guard ((g.guardIdx - 8) / 4)) a.stat.now
    | some w =>
      if !a.guardTrue g w.cyc then
        (d.spend c w 1).updArch c fun a => ({ a with stat := { a.stat with pc := a.stat.pc + 1, lastPc := a.stat.pc } }).prune
      else
        match b.wait d (w.waitRegs a.regs n.regs) with
        | .error (why, w) => d.waits c why w
        | .ok w =>
          match b.check d w with
          | some code => d.refuse c g n.unit w code
          | none =>
            let d := (d.spend c w 1).updArch c fun a =>
              ({ a with stat := { a.stat with pc := a.stat.pc + 1, lastPc := a.stat.pc } }).prune
            b.effect d w

/-- A wait that adds nothing. -/
def noWait (_ : Dev) (w : At) : Except (Stall × At) At := .ok w

/-- Checks that never fail. -/
def noCheck (_ : Dev) (_ : At) : Option Code := none

/-- Writes a scalar result with latency L (R96). -/
def Arch.putS (a : Arch) (i : Nat) (w : Word) (t latency : Nat) : Arch :=
  { a with regs := (a.regs.sSet i w).busy (sId i) (t + latency) (t + latency) }

/-- Writes a predicate with latency 1. -/
def Arch.putP (a : Arch) (i : Nat) (v : Bool) (t : Nat) : Arch :=
  { a with regs := { a.regs with p := vSet a.regs.p i v }.busy (pId i) (t + 1) (t + 1) }

/-- Writes an address register with latency 1. -/
def Arch.putA (a : Arch) (i : Nat) (v : DWord) (t : Nat) : Arch :=
  { a with regs := (a.regs.aSet i v).busy (aId i) (t + 1) (t + 1) }

/-- A wait for room in a unit's queue, and for the scalar stores ahead, which are granted at issue in this model (R45, R53). -/
def queueWait (c : CoreId) (unit : Nat) (d : Dev) (w : At) : Except (Stall × At) At :=
  match w.waitQueue (vGet (d.arch c).units unit clearUnit) unit with
  | none => .error (.queueFull unit, w)
  | some w => .ok w

/-- Accepts a command into a unit's queue (R43, R45, R50). `unit` is 0 tensor, 1 vector, 2 message, 3 DMA. -/
def Arch.accept (a : Arch) (unit sb : Nat) (cmd : UnitCmd) (t : Nat) : Arch :=
  let u := vGet a.units unit clearUnit
  let e : QEntry :=
    { cmd := cmd, sb := sb, pc := a.stat.lastPc, gear := a.stat.gear, accepted := t, started := false, start := 0,
      dur := 0, late := 0, creditWait := false, step := a.stat.stepNo, counted := a.stat.issue - 1, ordinal := a.checker.accepted, tail := none }
  let u' := { u with
    queue := u.queue ++ [e]
    chain := if u.queue = [] ∧ u.lastEnd ≤ t then t else u.chain
    mark := if u.queue = [] ∧ u.lastEnd ≤ t then t else u.mark }
  let board := if sb = 0 then a.board
    else { a.board with count := vSet a.board.count (unit * 4 + sb - 1) (vGet a.board.count (unit * 4 + sb - 1) 0 + 1) }
  let checker := if unit ≤ 1 then { a.checker with accepted := a.checker.accepted + 1 } else a.checker
  { a with units := vSet a.units unit u', board := board, checker := checker }

/-- Completes the head command of a unit in cycle `fin`, which without lateness would be `nom`: frees its entry and releases its scoreboard count (R45, R50, R98). -/
def Arch.finish (a : Arch) (unit fin nom : Nat) : Arch :=
  let u := vGet a.units unit clearUnit
  match u.queue with
  | [] => a
  | e :: rest =>
    let mark := u.chain + (fin - nom)
    let u' := { u with queue := rest, lastEnd := fin, nomEnd := nom, mark := mark, freed := (fin, mark) :: u.freed }
    let i := unit * 4 + e.sb - 1
    let n := vGet a.board.count i 0 - 1
    let board := if e.sb = 0 then a.board
      else { count := vSet a.board.count i n
             rel := if n = 0 then vSet a.board.rel i (fin, mark) else a.board.rel }
    { a with units := vSet a.units unit u', board := board }

/-- Changes the head entry of a unit's queue. -/
def Arch.updHead (a : Arch) (unit : Nat) (f : QEntry → QEntry) : Arch :=
  let u := vGet a.units unit clearUnit
  match u.queue with
  | [] => a
  | e :: rest => { a with units := vSet a.units unit { u with queue := f e :: rest } }

end Sys2Proof.Machine
end

