-- ==== Sys2Proof/Machine/Flags.lean ====
section
/-! DEFINITION. Arithmetic of ALU, the conditions of CMP and the operations of PLOG (R102 to R104). -/

namespace Sys2Proof.Machine

/-- Whether an ALU function code is reserved. -/
def aluReserved (fn : Nat) : Bool := decide (0x0F ≤ fn)

/-- Result of an ALU function (R102). -/
def aluFn (fn : Nat) (a b : Word) : Word :=
  let sh := b.toNat % 32
  match fn with
  | 0x00 => a + b
  | 0x01 => a - b
  | 0x02 => a &&& b
  | 0x03 => a ||| b
  | 0x04 => a ^^^ b
  | 0x05 => a <<< sh
  | 0x06 => a >>> sh
  | 0x07 => a.sshiftRight sh
  | 0x08 => a * b
  | 0x09 => BitVec.ofInt 32 ((a.toInt * b.toInt) / 2 ^ 32)
  | 0x0A => BitVec.ofNat 32 (a.toNat * b.toNat / 2 ^ 32)
  | 0x0B => if a.toInt ≤ b.toInt then a else b
  | 0x0C => if a.toInt ≤ b.toInt then b else a
  | 0x0D => if a.toNat ≤ b.toNat then a else b
  | _ => if a.toNat ≤ b.toNat then b else a

/-- Latency of an ALU function (R102). -/
def aluLatency (fn : Nat) : Nat := if 0x08 ≤ fn ∧ fn ≤ 0x0A then 3 else 1

/-- A CMP condition (R103). -/
def cmpCond (cond : Nat) (a b : Word) : Bool :=
  match cond with
  | 0 => a == b
  | 1 => a != b
  | 2 => decide (a.toInt < b.toInt)
  | 3 => decide (b.toInt ≤ a.toInt)
  | 4 => decide (a.toNat < b.toNat)
  | _ => decide (b.toNat ≤ a.toNat)

/-- A PLOG operation (R104). -/
def plogOp (op : Nat) (a b : Bool) : Bool :=
  match op with
  | 0 => a && b
  | 1 => a || b
  | 2 => xor a b
  | 3 => a && !b
  | _ => a

end Sys2Proof.Machine
end

