-- ==== Sys2Proof/Machine/Scalar.lean ====
section
/-! DEFINITION. Scalar instructions of the core: arithmetic, branches, loads and stores, address registers, WAITQ, DMA.WAIT, CHK.READ, STEER (R101 to R112, R128, R130). -/

namespace Sys2Proof.Machine

/-! ### Shared bodies -/

/-- A body that only changes the core's own state. -/
def pureBody (c : CoreId) (check : Arch → Option Code) (f : Arch → Nat → Arch) : Body :=
  { wait := noWait, check := fun d _ => check (d.arch c), effect := fun d w => d.updArch c fun a => f a w.cyc }

/-- The meaning of NOP (R101). -/
def execNop (c : CoreId) (g : Common) (s : State) : Host.Outcome State Fault Refusal :=
  s.onDev fun d => d.present c g ⟨0, false, []⟩ ⟨noWait, noCheck, fun d _ => d⟩

/-- The meaning of ALU (R102). -/
def execAlu (c : CoreId) (g : Common) (sD sA fn sB : Nat) (s : State) : Host.Outcome State Fault Refusal :=
  s.onDev fun d => d.present c g ⟨0, false, [sId sA, sId sB, sId sD]⟩
    (pureBody c (fun _ => if aluReserved fn then some cReservedNonzero else none)
      fun a t => a.putS sD (aluFn fn (a.regs.sGet sA) (a.regs.sGet sB)) t (aluLatency fn))

/-- The meaning of ALUI (R102). -/
def execAlui (c : CoreId) (g : Common) (sD sA fn : Nat) (imm : Word) (s : State) :
    Host.Outcome State Fault Refusal :=
  s.onDev fun d => d.present c g ⟨0, false, [sId sA, sId sD]⟩
    (pureBody c (fun _ => if aluReserved fn then some cReservedNonzero else none)
      fun a t => a.putS sD (aluFn fn (a.regs.sGet sA) imm) t (aluLatency fn))

/-- The check of CMP and CMPI (R103). -/
def cmpCheck (pD cond : Nat) : Option Code :=
  firstFail [(decide (6 ≤ cond), cReservedNonzero), (pD = 0, cBadArgument)]

/-- The meaning of CMP (R103). -/
def execCmp (c : CoreId) (g : Common) (pD sA sB cond : Nat) (s : State) : Host.Outcome State Fault Refusal :=
  s.onDev fun d => d.present c g ⟨0, false, [sId sA, sId sB, pId pD]⟩
    (pureBody c (fun _ => cmpCheck pD cond)
      fun a t => a.putP pD (cmpCond cond (a.regs.sGet sA) (a.regs.sGet sB)) t)

/-- The meaning of CMPI (R103). -/
def execCmpi (c : CoreId) (g : Common) (pD sA cond : Nat) (imm : Word) (s : State) :
    Host.Outcome State Fault Refusal :=
  s.onDev fun d => d.present c g ⟨0, false, [sId sA, pId pD]⟩
    (pureBody c (fun _ => cmpCheck pD cond) fun a t => a.putP pD (cmpCond cond (a.regs.sGet sA) imm) t)

/-- The meaning of PLOG (R104): scoreboard and status-pending bits are sampled in the cycle of issue. -/
def execPlog (c : CoreId) (g : Common) (pD srcA srcB op : Nat) (inv : Bool) (s : State) :
    Host.Outcome State Fault Refusal :=
  let ids := ([srcA, srcB].filter fun i => decide (i < 8)).map pId
  s.onDev fun d => d.present c g ⟨0, false, pId pD :: ids⟩
    (pureBody c
      (fun _ => firstFail [(decide (28 ≤ srcA) || decide (28 ≤ srcB) || decide (5 ≤ op), cReservedNonzero),
        (pD = 0, cBadArgument)])
      fun a t => a.putP pD (xor inv (plogOp op (a.predBit srcA t) (a.predBit srcB t))) t)

/-- Takes a branch: link register, target, and the issue cycles beyond the first (R95, R105). -/
def Dev.branch (d : Dev) (c : CoreId) (sLink target extra t : Nat) : Dev :=
  (d.spend c (d.arch c).stat.now extra).updArch c fun a =>
    let a := a.putS sLink (BitVec.ofNat 32 a.stat.pc) t 1
    { a with stat := { a.stat with pc := target } }

/-- The meaning of BR (R105). -/
def execBr (c : CoreId) (g : Common) (sLink target : Nat) (s : State) : Host.Outcome State Fault Refusal :=
  s.onDev fun d => d.present c g ⟨0, false, [sId sLink]⟩
    { wait := noWait
      check := fun d _ => if (d.core c).inCode (d.arch c).stat.gear target then none else some cBounds
      effect := fun d w => d.branch c sLink target 1 w.cyc }

/-- The meaning of BRR (R105). -/
def execBrr (c : CoreId) (g : Common) (sLink sT : Nat) (s : State) : Host.Outcome State Fault Refusal :=
  s.onDev fun d => d.present c g ⟨0, false, [sId sT, sId sLink]⟩
    { wait := noWait
      check := fun d _ =>
        let t := ((d.arch c).regs.sGet sT).toNat
        firstFail [(decide (4096 ≤ t), cBadArgument),
          (!(d.core c).inCode (d.arch c).stat.gear t, cBounds)]
      effect := fun d w => d.branch c sLink (((d.arch c).regs.sGet sT).toNat % 4096) 2 w.cyc }

/-! ### Core control space (R65 to R67, R203, R249, R327) -/

/-- First message record of a ring, past any pads (R249). -/
def Ring.first (r : Ring) : Option RingRec := r.recs.find? fun x => !x.pad

/-- Position of the first message, or the write pointer (R249). -/
def Ring.head (r : Ring) : Nat :=
  match r.first with
  | some x => x.pos
  | none => r.wp

/-- Whether the first message is complete (R249). -/
def Ring.ready (r : Ring) : Bool :=
  match r.first with
  | some x => x.complete
  | none => false

/-- A ring descriptor as a 512-bit number (R249). -/
def Ring.word (r : Ring) : Nat :=
  pack [(0, r.base), (18, r.sizeCode), (22, r.prio), (24, r.state), (32, r.inc), (64, r.wp), (96, r.rp),
    (128, r.head), (140, b2n r.ready), (160, r.occ), (173, r.held), (192, r.delivered % 2 ^ 32),
    (224, r.discarded % 2 ^ 32), (256, (r.recs.filter fun x => !x.pad && x.complete).length)]

/-- A handle-table entry as a 128-bit number; an entry not installed reads as zero (R203). -/
def Handle.word (h : Handle) : Nat :=
  if !h.valid then 0
  else pack [(0, h.base), (32, h.length), (64, h.kind), (66, b2n h.r), (67, b2n h.w), (68, b2n h.bc), (69, 1),
    (70, h.mode), (72, h.copiesM1), (74, h.link), (80, h.gen), (82, h.cgen), (84, b2n h.dirty)]

/-- The control handle as the view shows it (R65). -/
def controlHandle : Handle := ⟨0x300000, 0x10000, 0, true, true, false, true, 0, 0, 0, 0, 0, false⟩

/-- A status register as a 32-bit number (R67). -/
def LastStatus.word (l : LastStatus) : Nat := pack [(0, l.code), (16, l.unit), (19, l.sb), (23, l.count)]

/-- core_state.state (R67). -/
def CoreRun.code : CoreRun → Nat
  | .idle => 0
  | .running => 1
  | .atGate => 2
  | .stopped => 3
  | .scanning => 4

/-- DMA queue of a command in the DMA unit. -/
def UnitCmd.dmaQueue : UnitCmd → Nat
  | .dma _ q _ _ _ _ => q
  | _ => 8

/-- Resume offset of a DMA command (R327). -/
def UnitCmd.dmaResume : UnitCmd → Nat
  | .dma _ _ _ _ _ off => off
  | _ => 0

/-- A DMA queue status entry as a 256-bit number (R327). -/
def Arch.dmaWord (a : Arch) (i : Nat) : Nat :=
  let q := vGet a.dma.queues i clearDmaQ
  let l := (vGet a.units 3 clearUnit).queue
  let resume := match l.find? fun e => e.started && e.cmd.dmaQueue = i with
    | some e => e.cmd.dmaResume
    | none => q.resume
  pack [(0, (l.filter fun e => e.cmd.dmaQueue = i).length), (4, b2n (l.any fun e => e.started && e.cmd.dmaQueue = i)),
    (5, b2n q.faultWait), (16, q.lastCode), (32, resume), (64, q.completed % 2 ^ 32), (96, q.faults % 2 ^ 32),
    (128, q.bytes % 2 ^ 64)]

/-- Core status register at byte offset off (a multiple of 4) from 0x0030_0800, read in cycle t (R67). issue_count is that of the cycles before the reading instruction's own (DEDUCED; log entry 101). -/
def Arch.statusReg (a : Arch) (c : CoreId) (off t : Nat) : Nat :=
  let s := a.stat
  let qlen (u : Nat) := (vGet a.units u clearUnit).occupied t
  match off / 4 with
  | 0 => pack [(0, c.x), (8, c.y), (16, kIndex c)]
  | 1 => pack [(0, s.run.code), (3, s.gear), (5, b2n s.clean), (6, b2n s.programError), (7, b2n s.hardFault),
      (8, b2n s.throttled)]
  | 2 => s.stepNo % 2 ^ 32
  | 3 => (s.issue - 1) % 2 ^ 32
  | 4 => s.late % 2 ^ 32
  | 5 => s.throttle % 2 ^ 32
  | 6 => pack [(0, qlen 0), (4, qlen 1), (8, qlen 2), (12, qlen 3)]
  | 7 => a.predWord t
  | 8 => s.exc.word
  | 9 => s.excWhere
  | 10 => s.excDetail0
  | 11 => s.excDetail1
  | 12 => (vGet s.last 0 clearStatus).word
  | 13 => (vGet s.last 1 clearStatus).word
  | 14 => (vGet s.last 2 clearStatus).word
  | 15 => (vGet s.last 3 clearStatus).word
  | 16 => s.prevIssue % 2 ^ 32
  | 17 => s.prevLate % 2 ^ 32
  | _ => 0

/-- Byte of the control space at an offset, read in cycle t (R65). -/
def Arch.ctlByte (a : Arch) (c : CoreId) (t off : Nat) : Nat :=
  if off < 0x400 then (vGet a.msg.rings (off / 64) clearRing).word >>> (8 * (off % 64)) % 256
  else if off < 0x800 then
    let i := (off - 0x400) / 16
    (if i = 63 then controlHandle.word else (a.handle i).word) >>> (8 * (off % 16)) % 256
  else if off < 0x900 then (a.statusReg c ((off - 0x800) / 4 * 4) t) >>> (8 * (off % 4)) % 256
  else a.dmaWord ((off - 0x900) / 32) >>> (8 * (off % 32)) % 256

/-- Reads n bytes of the control space. -/
def Arch.ctlRead (a : Arch) (c : CoreId) (t off n : Nat) : Nat :=
  ((List.range n).map fun i => a.ctlByte c t (off + i) * 256 ^ i).sum

/-- Reading a unit's last-status register clears its status-pending bit and restarts its count (R67). -/
def Arch.readLast (a : Arch) (unit : Nat) : Arch :=
  let l := vGet a.stat.last unit clearStatus
  { a with stat := { a.stat with
      sp := vSet a.stat.sp unit false, last := vSet a.stat.last unit { l with count := 0 } } }

/-- The last-status registers among the bytes of a control read. -/
def Arch.readLasts (a : Arch) (off n : Nat) : Arch :=
  if 0x830 ≤ off ∧ off < 0x840 ∧ n ≠ 0 then a.readLast ((off - 0x830) / 4) else a

/-- The event that a last-status register is read (R67): its value goes out and its status-pending bit clears. -/
def execLastStatusRead (c : CoreId) (unit : Nat) (s : State) : Host.Outcome State Fault Refusal :=
  s.onDev fun d =>
    (d.emit (.words 1 [(vGet (d.arch c).stat.last unit clearStatus).word])).updArch c fun a => a.readLast unit

/-! ### LD and ST (R64, R106) -/

/-- Whether an address register names the control handle. -/
def isControl (r : DWord) : Bool := aHandle r == 63

/-- Checks of an LD or ST through the control handle (R64 to R66, R205, R259). -/
def ctlCheck (r : DWord) (write : Bool) (disp n : Nat) : Option Code :=
  let o := (aOffset r + disp) % 2 ^ 32
  firstFail [(!aValid r, cBadArgument), (o % n != 0, cBadArgument),
    (write && !(decide (o < 0x400) && o % 64 = 12 && n = 4), cBadArgument),
    (decide (o + n > 0x10000) || decide (0xA00 ≤ o), cBounds)]

/-- Sign or zero extension of the low n bytes (R106). -/
def extend (sext : Bool) (n v : Nat) : Word := if sext then BitVec.ofInt 32 (signed (8 * n) v) else BitVec.ofNat 32 v

/-- A local access of n bytes that met an uncorrectable error: counted, and the core stops with BLOCK_CHECK_FAIL (R189). -/
def Dev.readFailed (d : Dev) (c : CoreId) (addr n unit sb pc gear : Nat) : Dev :=
  d.badWord c ((d.badAt c (addr, n)).getD .home) unit sb pc gear

/-- The meaning of LD (R106). `late` is how many cycles beyond the nominal latency the data took. -/
def execLd (c : CoreId) (g : Common) (sR aR size : Nat) (sext postInc : Bool) (imm : Word) (late : Nat)
    (s : State) : Host.Outcome State Fault Refusal :=
  let n := 2 ^ size
  s.onDev fun d => d.present c g ⟨0, false, [aId aR, sId sR]⟩
    { wait := fun d w =>
        let a := d.arch c
        let r := a.regs.aGet aR
        match a.resolve r false [0, 1, 2, 3] n imm.toNat n with
        | .ok res => if res.bc && !d.verifyRoom c (blocksOf c res.addr n) && size < 3 then .error (.verifySet, w) else .ok w
        | .error _ => .ok w
      check := fun d _ =>
        let a := d.arch c
        let r := a.regs.aGet aR
        if size = 3 then some cReservedNonzero
        else if isControl r then ctlCheck r false imm.toNat n
        else
          match a.resolve r false [0, 1, 2, 3] n imm.toNat n with
          | .error code => some code
          | .ok _ => none
      effect := fun d w =>
        let a := d.arch c
        let r := a.regs.aGet aR
        let o := (aOffset r + imm.toNat) % 2 ^ 32
        let inc (a : Arch) : Arch :=
          if postInc then a.putA aR (withOffset (a.regs.aGet aR) (aOffset r + n)) w.cyc else a
        let put (v L : Nat) (a : Arch) : Arch :=
          { a with regs := (a.regs.sSet sR (extend sext n v)).busy (sId sR) (w.cyc + L) (w.cyc + L + late) }
        if isControl r then
          d.updArch c fun a => inc ((put (a.ctlRead c w.cyc o n) 6 a).readLasts o n)
        else
          match a.resolve r false [0, 1, 2, 3] n imm.toNat n with
          | .error _ => d
          | .ok res =>
            match d.localRead c res.addr n with
            | none => d.readFailed c res.addr n 0 0 a.stat.lastPc a.stat.gear
            | some bs =>
              let d := if res.bc then d.listBlocks c 0 0 a.stat.lastPc a.stat.gear (blocksOf c res.addr n) else d
              d.updArch c fun a => inc (put (leNat bs) (nominal c res.addr) a) }

/-- The meaning of ST (R106); a store to a ring's read pointer becomes a command of the message unit (R259). -/
def execSt (c : CoreId) (g : Common) (sR aR size : Nat) (postInc : Bool) (imm : Word) (s : State) :
    Host.Outcome State Fault Refusal :=
  let n := 2 ^ size
  s.onDev fun d => d.present c g ⟨0, false, [aId aR, sId sR]⟩
    { wait := fun d w =>
        if isControl ((d.arch c).regs.aGet aR) then
          match ctlCheck ((d.arch c).regs.aGet aR) true imm.toNat n with
          | some _ => .ok w
          | none => queueWait c 2 d w
        else .ok w
      check := fun d _ =>
        let a := d.arch c
        let r := a.regs.aGet aR
        if size = 3 then some cReservedNonzero
        else if isControl r then ctlCheck r true imm.toNat n
        else
          match a.resolve r true [0, 1, 2, 3] n imm.toNat n with
          | .error code => some code
          | .ok _ => none
      effect := fun d w =>
        let a := d.arch c
        let r := a.regs.aGet aR
        let o := (aOffset r + imm.toNat) % 2 ^ 32
        let v := (a.regs.sGet sR).toNat
        let inc (a : Arch) : Arch :=
          if postInc then a.putA aR (withOffset (a.regs.aGet aR) (aOffset r + n)) w.cyc else a
        if isControl r then d.updArch c fun a => inc (a.accept 2 0 (.rpStore (o / 64) (v % 4096)) w.cyc)
        else
          match a.resolve r true [0, 1, 2, 3] n imm.toNat n with
          | .error _ => d
          | .ok res =>
            match d.localWrite c res.addr (natLe v n) with
            | none => d.readFailed c res.addr n 0 0 a.stat.lastPc a.stat.gear
            | some d => d.updArch c fun a => inc (a.touch res.handle) }

/-! ### AOP (R107) -/

/-- The meaning of ASET. -/
def execAset (c : CoreId) (g : Common) (aD sX : Nat) (imm : Word) (s : State) : Host.Outcome State Fault Refusal :=
  s.onDev fun d => d.present c g ⟨0, false, [sId sX, aId aD]⟩
    (pureBody c (fun _ => none) fun a t =>
      a.putA aD (withValid (withOffset (withHandle (a.regs.aGet aD) imm.toNat) (a.regs.sGet sX).toNat) true) t)

/-- The meaning of AOFF. -/
def execAoff (c : CoreId) (g : Common) (aD sX : Nat) (imm : Word) (s : State) : Host.Outcome State Fault Refusal :=
  s.onDev fun d => d.present c g ⟨0, false, [sId sX, aId aD]⟩
    (pureBody c (fun _ => none) fun a t =>
      a.putA aD (withOffset (a.regs.aGet aD) (a.regs.sGet sX + imm).toNat) t)

/-- The meaning of AADD. -/
def execAadd (c : CoreId) (g : Common) (aD sX : Nat) (imm : Word) (s : State) : Host.Outcome State Fault Refusal :=
  s.onDev fun d => d.present c g ⟨0, false, [sId sX, aId aD]⟩
    (pureBody c (fun a => if aValid (a.regs.aGet aD) then none else some cBadArgument) fun a t =>
      a.putA aD (withOffset (a.regs.aGet aD)
        (aOffset (a.regs.aGet aD) + (a.regs.sGet sX).toNat + imm.toNat)) t)

/-- The meaning of AMOV. -/
def execAmov (c : CoreId) (g : Common) (aD aS : Nat) (s : State) : Host.Outcome State Fault Refusal :=
  s.onDev fun d => d.present c g ⟨0, false, [aId aS, aId aD]⟩
    (pureBody c (fun _ => none) fun a t => a.putA aD (a.regs.aGet aS) t)

/-- The meaning of AGET. -/
def execAget (c : CoreId) (g : Common) (sX aS : Nat) (s : State) : Host.Outcome State Fault Refusal :=
  s.onDev fun d => d.present c g ⟨0, false, [aId aS, sId sX]⟩
    (pureBody c (fun a => if aValid (a.regs.aGet aS) then none else some cBadArgument) fun a t =>
      a.putS sX (BitVec.ofNat 32 (aOffset (a.regs.aGet aS))) t 1)

/-- The meaning of AINV. -/
def execAinv (c : CoreId) (g : Common) (aD : Nat) (s : State) : Host.Outcome State Fault Refusal :=
  s.onDev fun d => d.present c g ⟨0, false, [aId aD]⟩
    (pureBody c (fun _ => none) fun a t => a.putA aD (withValid (a.regs.aGet aD) false) t)

/-! ### STEER, CHK.READ, WAITQ, DMA.WAIT -/

/-- Steering number of what a pairing buffer holds (R228, R229). -/
def PairItem.seq : PairItem → Nat
  | .token t => t.toNat % 256
  | .beat b => b.seq
  | .pair _ b => b.seq

/-- A token joins a pairing buffer, pairing with the beat of equal number (R230). -/
def pairToken (l : List PairEnt) (t : Word) : List PairEnt :=
  let rec go : List PairEnt → Option (List PairEnt)
    | [] => none
    | e :: rest =>
      match e.item with
      | .beat b => if b.seq = t.toNat % 256 then some ({ e with item := .pair t b } :: rest)
        else (go rest).map (e :: ·)
      | _ => (go rest).map (e :: ·)
  (go l).getD (l ++ [⟨.token t, 0⟩])

/-- A beat joins a pairing buffer, pairing with the token of equal number (R230). -/
def pairBeat (l : List PairEnt) (b : Beat) : List PairEnt :=
  let rec go : List PairEnt → Option (List PairEnt)
    | [] => none
    | e :: rest =>
      match e.item with
      | .token t => if t.toNat % 256 = b.seq then some ({ e with item := .pair t b } :: rest)
        else (go rest).map (e :: ·)
      | _ => (go rest).map (e :: ·)
  (go l).getD (l ++ [⟨.beat b, 0⟩])

/-- Items a pairing buffer holds: a complete pair counts as its token and its beat (R230). -/
def pairFill (l : List PairEnt) : Nat :=
  (l.map fun e => match e.item with
    | .pair _ _ => 2
    | _ => 1).sum

/-- The meaning of STEER (R111): it stalls while the port's pairing buffer is full. -/
def execSteer (c : CoreId) (g : Common) (sTok port : Nat) (s : State) : Host.Outcome State Fault Refusal :=
  s.onDev fun d => d.present c g ⟨0, false, [sId sTok]⟩
    { wait := fun d w =>
        if port < 5 ∧ 4 ≤ pairFill (vGet (d.arch c).router.pairing port []) then .error (.pairingFull, w) else .ok w
      check := fun _ _ => if 5 ≤ port then some cReservedNonzero else none
      effect := fun d _ => d.updArch c fun a =>
        { a with router := { a.router with
            pairing := vSet a.router.pairing port
              (pairToken (vGet a.router.pairing port []) (a.regs.sGet sTok)) } } }

/-- The checker word that sel selects (R364). -/
def Arch.checkerWord (a : Arch) (sel : Nat) : Nat :=
  let k := a.checker
  match sel with
  | 0 => pack [(0, b2n a.stat.clean), (1, b2n (vGet k.flags 1 false)), (2, b2n (vGet k.flags 2 false)),
      (3, b2n (vGet k.flags 3 false)), (4, b2n (vGet k.flags 4 false)), (5, b2n (vGet k.flags 5 false)),
      (8, min 255 k.failed)]
  | 1 => k.tensorJudged % 2 ^ 32
  | 2 => k.vectorJudged % 2 ^ 32
  | _ => match k.suspect with
    | some r => r.ordinal
    | none => 0xFFFFFFFF

/-- The meaning of CHK.READ (R112): held until the verdicts on commands completed before its cycle are in. -/
def execChkRead (c : CoreId) (g : Common) (sD sel : Nat) (s : State) : Host.Outcome State Fault Refusal :=
  s.onDev fun d => d.present c g ⟨0, false, [sId sD]⟩
    { wait := fun d w =>
        let k := (d.arch c).checker
        if 4 ≤ sel then .ok w
        else if k.pendingV.any fun v => decide (v.due < w.cyc + 32) then .error (.verdictHold, w)
        else .ok (w.waitVerdicts (k.judged.filter fun v => decide (v.due < w.cyc + 32)))
      check := fun _ _ => if 4 ≤ sel then some cReservedNonzero else none
      effect := fun d w => d.updArch c fun a => a.putS sD (BitVec.ofNat 32 (a.checkerWord sel)) w.cyc 2 }

/-- Rings of a mask that are open and hold a complete message at their head (R258). -/
def MsgUnit.readyRings (m : MsgUnit) (mask : Nat) : List Nat :=
  (List.range 16).filter fun q =>
    let r := vGet m.rings q clearRing
    bit mask q && r.state = 1 && r.ready

/-- The ring WAITQ chooses: with mode 0 of highest priority, rotating among equals; with mode 1 by rotation (R128). -/
def MsgUnit.choose (m : MsgUnit) (mode mask : Nat) : Option Nat :=
  let l := m.readyRings mask
  let top := (l.map fun q => (vGet m.rings q clearRing).prio).foldl max 0
  let l := if mode = 0 then l.filter fun q => (vGet m.rings q clearRing).prio = top else l
  match l.find? fun q => decide (m.rot ≤ q) with
  | some q => some q
  | none => l.head?

/-- The meaning of WAITQ (R128): with no ring ready it stalls, or with poll writes 0xFFFF_FFFF. -/
def execWaitq (c : CoreId) (g : Common) (sD mode : Nat) (poll : Bool) (qmask : Nat) (s : State) :
    Host.Outcome State Fault Refusal :=
  s.onDev fun d => d.present c g ⟨0, false, [sId sD]⟩
    { wait := fun d w =>
        if qmask ≠ 0 ∧ !poll ∧ (d.arch c).msg.choose mode qmask = none then .error (.waitq, w) else .ok w
      check := fun _ _ => if qmask = 0 then some cBadArgument else none
      effect := fun d w => d.updArch c fun a =>
        match a.msg.choose mode qmask with
        | some q => { a.putS sD (BitVec.ofNat 32 q) w.cyc 2 with msg := { a.msg with rot := (q + 1) % 16 } }
        | none => a.putS sD 0xFFFFFFFF#32 w.cyc 2 }

/-- DMA queues of a mask. -/
def maskQueues (mask : Nat) : List Nat := (List.range 8).filter fun q => bit mask q

/-- Whether a queued command is a DMA command of a queue in the mask. -/
def QEntry.inQueues (e : QEntry) (mask : Nat) : Bool :=
  match e.cmd with
  | .dma _ q _ _ _ _ => bit mask q
  | _ => false

/-- The wait code whose command completed latest among the queues of a mask, 0 when all read OK (R130). -/
def DmaEng.waitCode (e : DmaEng) (mask : Nat) : Code :=
  ((maskQueues mask).foldl (fun (best : Nat × Code) q =>
    let x := vGet e.queues q clearDmaQ
    if x.waitCode ≠ 0 ∧ best.1 ≤ x.waitOrder then (x.waitOrder, x.waitCode) else best) (0, 0)).2

/-- The meaning of DMA.WAIT (R130). -/
def execDmaWait (c : CoreId) (g : Common) (sD qmask : Nat) (s : State) : Host.Outcome State Fault Refusal :=
  s.onDev fun d => d.present c g ⟨0, false, [sId sD]⟩
    { wait := fun d w =>
        let a := d.arch c
        if (vGet a.units 3 clearUnit).queue.any fun e => e.inQueues qmask then .error (.dmaWait, w)
        else
          let t := ((maskQueues qmask).map fun q => (vGet a.dma.queues q clearDmaQ).lastEnd).foldl max 0
          .ok (w.waitFor t t)
      check := fun _ _ => if qmask = 0 then some cBadArgument else none
      effect := fun d w => d.updArch c fun a =>
        let queues := (maskQueues qmask).foldl (fun v q =>
          vSet v q { vGet v q clearDmaQ with waitCode := 0 }) a.dma.queues
        { a.putS sD (BitVec.ofNat 32 (a.dma.waitCode qmask)) w.cyc 1 with dma := { a.dma with queues := queues } } }

end Sys2Proof.Machine
end

