-- ==== Sys2Proof/Machine/Tensor.lean ====
section
/-! DEFINITION. Dense tensor commands: ACC.OPEN, ACC.CLOSE, TMUL, ACC.DRAIN, their checks, durations and effects (R113 to R122, R135 to R163). -/

namespace Sys2Proof.Machine

/-! ### Elements in memory (R133) -/

/-- Element e of packed bytes read as one little-endian number. -/
def elemAt (fmt whole e : Nat) : Nat := whole >>> (e * fmtBits fmt) % 2 ^ fmtBits fmt

/-- Packs elements of a format into bytes (R133). -/
def packElems (fmt : Nat) (es : List Nat) : List Byte :=
  let whole := (es.zipIdx.map fun p => p.1 * 2 ^ (p.2 * fmtBits fmt)).sum
  natLe whole (ceilDiv (es.length * fmtBits fmt) 8)

/-- Whether two operand formats may be multiplied (R113). -/
def pairable (fa fb : Nat) : Bool := fmtClass fa = fmtClass fb && (decide (fa ≤ 1) == decide (fb ≤ 1))

/-- Whether a format may carry block scales (R113). -/
def mxFmt (f : Nat) : Bool := decide (2 ≤ f) && decide (f ≤ 6)

/-- The context of a core. -/
def Dev.ctxOf (d : Dev) (c : CoreId) : Ctx :=
  match (d.core c).ctx with
  | some n => d.ctx n
  | none => clearCtx

/-- Value of a Gate-class object that the current step of a core's region uses (R496). -/
def Dev.gateVal (d : Dev) (c : CoreId) (index sub dflt : Nat) : Nat :=
  match (d.ctxOf c).regions.find? fun r => r.num = (d.core c).region with
  | some r => (nmGet r.gateVals (okey index sub)).getD dflt
  | none => d.objD index sub dflt

/-- Draws n free bytes (log entry 11). -/
def Dev.drawFree (d : Dev) (n : Nat) : Dev × List Byte :=
  ({ d with free := d.free + n }, (List.range n).map fun i => Config.freeByte (d.free + i))

/-! ### Groups (R114, R143) -/

/-- Whether two row ranges meet. -/
def rowsMeet (b1 m1 b2 m2 : Nat) : Bool := decide (b1 ≤ b2 + m2) && decide (b2 ≤ b1 + m1)

/-- Group i of a vector of groups. -/
def grpOf (v : Vector Group 8) (i : Nat) : Group := vGet v i clearGroup

/-- Whether an open group other than `but` meets a row range. -/
def openMeets (v : Vector Group 8) (but base m1 : Nat) : Bool :=
  (List.range 8).any fun i => i != but && (grpOf v i).opened && rowsMeet (grpOf v i).base (grpOf v i).rowsM1 base m1

/-- A resolved operand, or the code that refuses it. -/
def optRes (r : Except Code Res) : Option Res :=
  match r with
  | .ok x => some x
  | .error _ => none

/-- The code of a refused operand. -/
def resCode (r : Except Code Res) : Option Code :=
  match r with
  | .ok _ => none
  | .error c => some c

/-- First refusal of two checks: every BAD_ARGUMENT comes before every BOUNDS (R92). -/
def orderCodes (l : List (Option Code)) : Option Code :=
  match l.find? fun c => c.isSome && c != some cBounds with
  | some c => c
  | none => (l.find? fun c => c.isSome).getD none

/-- A conditional refusal. -/
def whenBad (b : Bool) (code : Code) : Option Code := if b then some code else none

/-- Checks of ACC.OPEN at issue (R114). -/
def accOpenCheck (a : Arch) (grp base rowsM1 init aBias : Nat) : Option Code :=
  if 2 ≤ init then some cReservedNonzero
  else orderCodes [
    whenBad ((grpOf a.tensor.gview grp).opened || openMeets a.tensor.gview grp base rowsM1
      || (a.tensor.plan.hashEn && rowsMeet base rowsM1 128 127)) cBadArgument,
    if init = 1 then resCode (a.resolve (a.regs.aGet aBias) false [0, 1] 64 0 64) else none,
    whenBad (decide (255 < base + rowsM1)) cBounds]

/-- The meaning of ACC.OPEN (R114). -/
def execAccOpen (c : CoreId) (g : Common) (grp base rowsM1 init aBias : Nat) (s : State) :
    Host.Outcome State Fault Refusal :=
  s.onDev fun d => d.present c g ⟨1, false, if init = 1 then [aId aBias] else []⟩
    { wait := queueWait c 0
      check := fun d _ => if 5 ≤ g.sb then some cReservedNonzero
        else accOpenCheck (d.arch c) grp base rowsM1 init aBias
      effect := fun d w => d.updArch c fun a =>
        let bias := if init = 1 then optRes (a.resolve (a.regs.aGet aBias) false [0, 1] 64 0 64) else none
        let a := a.accept 0 g.sb (.accOpen grp base rowsM1 bias) w.cyc
        { a with tensor := { a.tensor with gview := vSet a.tensor.gview grp ⟨true, true, base, rowsM1, []⟩ } } }

/-- The meaning of ACC.CLOSE (R115). -/
def execAccClose (c : CoreId) (g : Common) (grp : Nat) (s : State) : Host.Outcome State Fault Refusal :=
  s.onDev fun d => d.present c g ⟨1, false, []⟩
    { wait := queueWait c 0
      check := fun d _ => if 5 ≤ g.sb then some cReservedNonzero
        else whenBad (!(grpOf (d.arch c).tensor.gview grp).opened) cBadArgument
      effect := fun d w => d.updArch c fun a =>
        let a := a.accept 0 g.sb (.accClose grp) w.cyc
        { a with tensor := { a.tensor with
            gview := vSet a.tensor.gview grp { grpOf a.tensor.gview grp with opened := false } } } }

/-! ### TMUL (R116 to R118, R135, R136) -/

/-- Bytes of scales for m rows (R135). -/
def scaleBytes (fmt m : Nat) : Nat := 32 + m * (classK fmt / 32)

/-- Buffer view b. -/
def bufView (v : Vector BView 2) (i : Nat) : BView := vGet v i ⟨false, 0, false⟩

/-- The operands of a TMUL resolved (R117). -/
def tmulRes (a : Arch) (f : TmulF) : Except Code Res × Except Code Res × Except Code Res :=
  let stride := (a.regs.sGet f.sStride).toNat
  (a.resolve (a.regs.aGet f.aA) false [0, 1, 2] 16 0 (f.rowsM1 * stride + aRowBytes f.fmtA),
   a.resolve (a.regs.aGet f.aB) false [0, 1, 2] 64 0 (bTileBytes f.fmtB),
   a.resolve (a.regs.aGet f.aS) false [0, 1] 1 0 (scaleBytes f.fmtA (f.rowsM1 + 1)))

/-- Checks of TMUL at issue (R113, R117, R136). -/
def tmulCheck (a : Arch) (f : TmulF) : Option Code :=
  let stride := (a.regs.sGet f.sStride).toNat
  let (ra, rb, rs) := tmulRes a f
  let loads := f.bmode = 1 ∨ f.bmode = 2
  let at_ := if f.bmode = 3 then 1 - a.tensor.viewActive else a.tensor.viewActive
  let v := bufView a.tensor.bview at_
  let gr := grpOf a.tensor.gview f.grp
  if 11 ≤ f.fmtA ∨ 11 ≤ f.fmtB then some cReservedNonzero
  else orderCodes [
    whenBad (f.fmtA = 10 || f.fmtB = 10 || !pairable f.fmtA f.fmtB || (f.mx && !(mxFmt f.fmtA && mxFmt f.fmtB)))
      cBadArgument,
    whenBad (!gr.opened) cBadArgument,
    resCode ra,
    whenBad (stride % 16 != 0) cBadArgument,
    if loads then resCode rb else none,
    if f.mx then resCode rs else none,
    whenBad ((f.bmode = 0 || f.bmode = 3) && !(v.loaded && v.fmt = f.fmtB && v.mx == f.mx)) cBadArgument,
    whenBad (f.bmode = 2 && (a.handle (aHandle (a.regs.aGet f.aA))).kind = 2
      && (a.handle (aHandle (a.regs.aGet f.aB))).kind = 2) cBadArgument,
    whenBad (decide (gr.rowsM1 < f.row + f.rowsM1)) cBounds]

/-- Buffer views after a TMUL is accepted (R93). -/
def Tensor.viewTmul (t : Tensor) (f : TmulF) : Tensor :=
  match f.bmode with
  | 1 => { t with bview := vSet t.bview t.viewActive ⟨true, f.fmtB, f.mx⟩ }
  | 2 => { t with bview := vSet t.bview (1 - t.viewActive) ⟨true, f.fmtB, f.mx⟩ }
  | 3 => { t with viewActive := 1 - t.viewActive }
  | _ => t

/-- The meaning of TMUL (R116, R117). -/
def execTmul (c : CoreId) (g : Common) (f : TmulF) (s : State) : Host.Outcome State Fault Refusal :=
  let loads := f.bmode = 1 ∨ f.bmode = 2
  s.onDev fun d => d.present c g
    ⟨1, false, [aId f.aA, sId f.sStride] ++ (if loads then [aId f.aB] else []) ++ (if f.mx then [aId f.aS] else [])⟩
    { wait := queueWait c 0
      check := fun d _ => if 5 ≤ g.sb then some cReservedNonzero else tmulCheck (d.arch c) f
      effect := fun d w => d.updArch c fun a =>
        let (ra, rb, rs) := tmulRes a f
        match ra with
        | .error _ => a
        | .ok ra =>
          let a := a.accept 0 g.sb (.tmul f ra (if loads then optRes rb else none)
            (if f.mx then optRes rs else none) (a.regs.sGet f.sStride).toNat) w.cyc
          { a with tensor := a.tensor.viewTmul f } }

/-! ### ACC.DRAIN (R121, R122) -/

/-- Output row bytes (R121). -/
def outRowBytes (fmt : Nat) : Nat := 16 * fmtBits fmt / 8

/-- The operands of an ACC.DRAIN resolved (R122, R155). -/
def drainRes (a : Arch) (f : DrainF) : Except Code Res × Except Code Res × Except Code Res :=
  let m := f.rowsM1 + 1
  (a.resolve (a.regs.aGet f.aD) true [0, 1, 2] 1 0 (m * outRowBytes f.fmtOut + if f.mx then m / 2 else 0),
   a.resolve (a.regs.aGet f.aScale) false [0, 1] 1 0
     (if f.scaleMode = 1 then 4 else if f.scaleMode = 2 then 4 * m else 64),
   a.resolve (a.regs.aGet f.aBias) false [0, 1] 1 0 64)

/-- Checks of ACC.DRAIN at issue (R122). -/
def drainCheck (a : Arch) (f : DrainF) : Option Code :=
  let (rd, rs, rb) := drainRes a f
  let gr := grpOf a.tensor.gview f.grp
  if 11 ≤ f.fmtOut ∨ f.act = 7 ∨ f.rnd = 3 then some cReservedNonzero
  else orderCodes [
    whenBad (gr.opened || !gr.used || openMeets a.tensor.gview f.grp (gr.base + f.row) f.rowsM1) cBadArgument,
    whenBad (f.fmtOut = 10 && (f.scaleMode != 0 || f.biasEn || f.act != 0 || f.mx)) cBadArgument,
    whenBad (f.mx && (!mxFmt f.fmtOut || f.rowsM1 % 2 = 0)) cBadArgument,
    resCode rd,
    if f.scaleMode ≠ 0 then resCode rs else none,
    if f.biasEn then resCode rb else none,
    whenBad (decide (gr.rowsM1 < f.row + f.rowsM1)) cBounds]

/-- The meaning of ACC.DRAIN (R121, R122). -/
def execAccDrain (c : CoreId) (g : Common) (f : DrainF) (s : State) : Host.Outcome State Fault Refusal :=
  s.onDev fun d => d.present c g
    ⟨1, false, [aId f.aD] ++ (if f.scaleMode ≠ 0 then [aId f.aScale] else []) ++ (if f.biasEn then [aId f.aBias] else [])⟩
    { wait := queueWait c 0
      check := fun d _ => if 5 ≤ g.sb then some cReservedNonzero else drainCheck (d.arch c) f
      effect := fun d w => d.updArch c fun a =>
        let (rd, rs, rb) := drainRes a f
        match rd with
        | .error _ => a
        | .ok rd =>
          let n := a.tensor.drains
          let a := (a.accept 0 g.sb (.drain f rd (if f.scaleMode ≠ 0 then optRes rs else none)
            (if f.biasEn then optRes rb else none) (n % 2 ^ 16)) w.cyc).touch rd.handle
          { a with tensor := { a.tensor with drains := n + 1 } } }

/-! ### Running a dense command -/

/-- Late cycles, from cycle `fin` in which the last row left the pipeline, before the command at the head of the tensor queue starts: the core's own up to its acceptance, and those of the commands it was queued behind (R100; log entry 89). -/
def Arch.lateSince (a : Arch) (fin mark : Nat) : Nat :=
  let u := vGet a.units 0 clearUnit
  match u.queue with
  | [] => 0
  | e :: _ =>
    (a.stat.lates.map fun s => min s.2 e.accepted - max s.1 fin).sum
      + (if e.accepted < u.lastEnd then u.mark - max u.chain mark else 0)

/-- Ramp of the TMUL or TMULS at the head of the queue whose first row enters in cycle `first`, on a core at a throttle level (R100): cycles counted and cycles late. -/
def Arch.ramp (a : Arch) (level first w : Nat) : Nat × Nat :=
  let n := min 32 w
  match a.tensor.rowEnd with
  | none => (n, 0)
  | some (fin, mark) =>
    if first + a.stat.heldBetween level fin first ≤ fin + 16 then (0, 0)
    else if first - fin - a.lateSince fin mark ≤ 16 then (0, n)
    else (n, 0)

/-- Adds one addend to an accumulator entry (R141). -/
def Tensor.accumulate (t : Tensor) (i : Nat) (x : XA) : Tensor :=
  accSet t i ((XA.ofBits (accGet t i)).add x).toBits

/-- Rows of a TMUL added in ascending order (R116, R141). -/
def tmulRows (t : Tensor) (f : TmulF) (base : Nat) (rows : List (List Byte)) (tile : Nat) (scales : List Byte)
    (bScales : List Byte) : Tensor :=
  let k := classK f.fmtA
  let nb := k / 32
  (rows.zipIdx).foldl (fun t p =>
    let whole := leNat p.1
    (List.range 16).foldl (fun t j =>
      let ps := (List.range k).map fun i => (elemAt f.fmtA whole i, elemAt f.fmtB tile (16 * i + j))
      let sc := (List.range nb).map fun b =>
        ((scales.getD (32 + p.2 * nb + b) 0#8).toNat, (bScales.getD (16 * b + j) 0#8).toNat)
      t.accumulate ((base + f.row + p.2) * 16 + j) (rowTree f.fmtA f.fmtB f.mx ps sc)) t) t

/-- The entries of a row of the accumulator memory. -/
def accRow (t : Tensor) (row : Nat) : List XA := (List.range 16).map fun j => XA.ofBits (accGet t (row * 16 + j))

/-- What the checker takes of a TMUL: its rows with their entries before and after, and its operands (R135, R360). -/
def tmulFed (before after : Tensor) (f : TmulF) (base : Nat) (rows : List (List Byte)) (tile : Nat) (scales bScales : List Byte) : Fed :=
  let nb := classK f.fmtA / 32
  { fmtA := f.fmtA, fmtB := f.fmtB, mx := f.mx
    b := fun k j => elemAt f.fmtB tile (16 * k + j)
    scaleA := fun i b => (scales.getD (32 + i * nb + b) 0#8).toNat
    scaleB := fun b j => (bScales.getD (16 * b + j) 0#8).toNat
    rows := rows.zipIdx.map fun p =>
      let whole := leNat p.1
      { row := p.2, elems := (List.range (classK f.fmtA)).map fun k => (k, elemAt f.fmtA whole k)
        before := accRow before (base + f.row + p.2), after := accRow after (base + f.row + p.2) } }

/-- Reads the rows of an A operand; none on an uncorrectable word. -/
def Dev.readRows (d : Dev) (c : CoreId) (addr stride bytes : Nat) : Nat → Option (List (List Byte))
  | 0 => some []
  | n + 1 =>
    match d.localRead c addr bytes with
    | none => none
    | some r => (d.readRows c (addr + stride) stride bytes n).map (r :: ·)

/-- Bytes of a B buffer that no tile of the command's format and mx has been loaded into are free values: the checks at issue refuse bmode 0 and 3 there, not bmode 2 (R117, R136; DESIGN CHOICE, log entries 11 and 102). -/
def Dev.tileOf (d : Dev) (c : CoreId) (which fmt : Nat) (mx : Bool) : Dev × List Byte × List Byte :=
  let b := vGet (d.arch c).tensor.bufs which ⟨false, 0, false, [], []⟩
  if b.loaded && b.fmt = fmt && b.mx == mx then (d, b.tile, b.scales)
  else
    let (d, t) := d.drawFree (bTileBytes fmt)
    let (d, s) := d.drawFree 32
    (d, t, s)

/-- What a command at its start gives back: the device, the duration, late cycles of its own, and the cycles after its last row has left the pipeline where it has rows (R100). -/
structure Started where
  dev : Dev
  dur : Nat
  late : Nat
  tail : Option Nat

/-- Row cycles r of R118. -/
def rowCycles (fmt kind : Nat) : Nat :=
  if kind = 2 then max (classCycles fmt) (ceilDiv (aRowBytes fmt) 16) else classCycles fmt

/-- Runs a TMUL that starts in cycle `start` (R116, R118, R135, R136); none on an uncorrectable word. -/
def Dev.runTmul (d : Dev) (c : CoreId) (f : TmulF) (ra : Res) (rb rs : Option Res) (stride start : Nat) :
    Option Started :=
  let m := f.rowsM1 + 1
  let nb := classK f.fmtA / 32
  let a := d.arch c
  -- the B scales are read only for a tile that the command loads (R135)
  let scales : Option (List Byte) := match rs with
    | some r =>
      if f.bmode = 1 ∨ f.bmode = 2 then d.localRead c r.addr (scaleBytes f.fmtA m)
      else (d.localRead c (r.addr + 32) (scaleBytes f.fmtA m - 32)).map fun l => List.replicate 32 0#8 ++ l
    | none => some []
  let tile : Option (List Byte) := match rb with
    | some r => d.localRead c r.addr (bTileBytes f.fmtB)
    | none => some []
  match scales, tile, d.readRows c ra.addr stride (aRowBytes f.fmtA) m with
  | some scales, some tile, some rows =>
    let active := if f.bmode = 3 then 1 - a.tensor.active else a.tensor.active
    let loaded : BBuf := ⟨true, f.fmtB, f.mx, tile, scales.take (16 * nb)⟩
    let d := if f.bmode = 1 then
        d.updArch c fun a => { a with tensor := { a.tensor with bufs := vSet a.tensor.bufs active loaded } }
      else d
    let (d, t, bs) := d.tileOf c active f.fmtB f.mx
    let d := d.updArch c fun a =>
      let tn := tmulRows a.tensor f (grpOf a.tensor.groups f.grp).base rows (leNat t) scales bs
      let bufs := if f.bmode = 2 then vSet tn.bufs (1 - active) loaded else tn.bufs
      { a with
        tensor := { tn with bufs := bufs, active := active }
        checker := { a.checker with
          left := (tmulFed a.tensor tn f (grpOf a.tensor.groups f.grp).base rows (leNat t) scales bs).taken } }
    let r := rowCycles f.fmtA ra.kind
    let w := m * r
    let load := match rb with
      | some b => nominal c b.addr + beatsFor b.kind (bTileBytes f.fmtB)
      | none => 0
    let first := if f.bmode = 1 then start + load else start
    let (rc, rl) := a.ramp (d.throttleLevel c) first w
    if f.bmode = 2 then
      let dur := max (rc + w + 24) load
      let whole := max (rc + rl + w + 24) load
      some ⟨d, dur, whole - dur, some (whole - (rc + rl + w + 24))⟩
    else some ⟨d, (if f.bmode = 1 then load else 0) + rc + w + 24, rl, some 0⟩
  | _, _, _ => none

/-- Runs an ACC.OPEN (R114, R141). -/
def Dev.runAccOpen (d : Dev) (c : CoreId) (grp base rowsM1 : Nat) (bias : Option Res) : Option Started :=
  let fill (b : List Word) : Started :=
    ⟨d.updArch c fun a =>
      let t := (List.range ((rowsM1 + 1) * 16)).foldl (fun t i =>
        accSet t (base * 16 + i) (match bias with
          | none => 0#128
          | some _ => (XA.ofNum (ofF32 (b.getD (i % 16) 0#32)) 1).toBits)) a.tensor
      { a with tensor := { t with groups := vSet t.groups grp ⟨true, true, base, rowsM1, b⟩ } },
     match bias with
     | none => 2
     | some r => 3 + nominal c r.addr, 0, none⟩
  match bias with
  | none => some (fill [])
  | some r =>
    match d.localRead c r.addr 64 with
    | none => none
    | some bs => some (fill ((List.range 16).map fun j => BitVec.ofNat 32 (leNat ((bs.drop (4 * j)).take 4))))

/-! ### The fused epilogue (R149 to R157) -/

/-- FP32 word i of bytes. -/
def f32At (bs : List Byte) (i : Nat) : Word := BitVec.ofNat 32 (leNat ((bs.drop (4 * i)).take 4))

/-- v3 of an element (R149, steps 1 to 4). -/
def epilogueValue (f : DrainF) (tbl : ActTable) (x : XA) (scale bias : Word) : Num :=
  let v0 := x.num
  let v1 := if f.scaleMode = 0 then v0 else v0.mul (ofF32 scale)
  let v2 := if f.biasEn then v1.add (ofF32 bias) else v1
  if f.act = 0 then v2
  else ofF32 (activate f.act tbl (toF32 (if v2.isZero then .fin false 0 0 else v2)))

/-- floor(log2) of a nonzero magnitude n·2^q. -/
def log2Floor (n : Nat) (q : Int) : Int := (bitLen n : Int) - 1 + q

/-- emax of an MX output format (R155). -/
def mxEmax (fmt : Nat) : Int :=
  match fmt with
  | 4 => 4
  | 5 => 8
  | 6 => 15
  | _ => 2

/-- The scale byte of a block of values (R155). -/
def mxScale (fmt : Nat) (vs : List Num) : Nat :=
  if vs.any (fun v => decide (v = .nan)) then 0xFF
  else if vs.all Num.isZero then 0x7F
  else if vs.any (fun v => match v with
    | .inf _ => true
    | _ => false) then 0xFE
  else
    let top := (vs.filterMap fun v => match v with
      | .fin _ n q => if n = 0 then none else some (log2Floor n q)
      | _ => none).foldl max (-100000)
    ((max (-127) (min 127 (top - mxEmax fmt))) + 127).toNat

/-- A value divided by the block scale (R155). -/
def unscale (v : Num) (scale : Nat) : Num :=
  match v with
  | .fin s n q => .fin s n (q - ((scale : Int) - 127))
  | v => v

/-- An output element under MX (R155): its bits and whether it counts as a saturation. -/
def mxElem (f : DrainF) (e5 : Bool) (scale draw : Nat) (v : Num) : Nat × Bool :=
  if scale = 0xFF then (0, decide (v = .nan))
  else if scale = 0x7F ∧ v.isZero then (0, false)
  else
    match v with
    | .inf s => (encodeMax f.fmtOut s, true)
    | v => convertOut f.fmtOut f.rnd draw e5 (unscale v scale)

/-- Runs an ACC.DRAIN (R149 to R157); none when part of an operand or of the destination is uncorrectable. -/
def Dev.runDrain (d : Dev) (c : CoreId) (f : DrainF) (rd : Res) (rs rb : Option Res) (index : Nat) (step : Nat) :
    Option Started :=
  let m := f.rowsM1 + 1
  let a := d.arch c
  let x := d.ctxOf c
  let ctxNum := (d.core c).ctx.getD 0
  let gr := grpOf a.tensor.groups f.grp
  let entry (i j : Nat) : QWord := accGet a.tensor ((gr.base + f.row + i) * 16 + j)
  let scales : Option (List Byte) := match rs with
    | some r => d.localRead c r.addr (if f.scaleMode = 1 then 4 else if f.scaleMode = 2 then 4 * m else 64)
    | none => some []
  let biases : Option (List Byte) := match rb with
    | some r => d.localRead c r.addr 64
    | none => some []
  match scales, biases with
  | some sc, some bi =>
    let tbl : ActTable := actTableOf x.image.act
    let e5 := decide (d.gateVal c 0x4000 3 0 = 1)
    let value (i j : Nat) : Num := epilogueValue f tbl (XA.ofBits (entry i j))
      (f32At sc (match f.scaleMode with
        | 2 => i
        | 3 => j
        | _ => 0)) (f32At bi j)
    let draw (i j : Nat) : Nat := if f.rnd = 2 then roundingDraw x.image.roundKey ctxNum step c.x c.y index i j else 0
    let blockScale (p : Nat) : Nat :=
      mxScale f.fmtOut ((List.range 32).map fun e => value (2 * p + e / 16) (e % 16))
    let row (i : Nat) : List (Nat × Bool) :=
      (List.range 16).map fun j =>
        if f.mx then mxElem f e5 (blockScale (i / 2)) (draw i j) (value i j)
        else convertOut f.fmtOut f.rnd (draw i j) e5 (value i j)
    let outRows : List (List (Nat × Bool)) := if f.fmtOut = 10 then [] else (List.range m).map row
    let bytes : List Byte :=
      if f.fmtOut = 10 then (List.range (m * 16)).flatMap fun e => qBytes (entry (e / 16) (e % 16))
      else (outRows.flatMap fun r => packElems f.fmtOut (r.map Prod.fst)) ++
        (if f.mx then (List.range (m / 2)).map fun p => BitVec.ofNat 8 (blockScale p) else [])
    let sat := (outRows.map fun r => (r.filter Prod.snd).length).sum
    let flagRows (p : XA → Bool) : Nat :=
      ((List.range m).filter fun i => (List.range 16).any fun j => p (XA.ofBits (entry i j))).length
    -- the checking lane goes through the same epilogue in one column of each row (R362)
    let lanes : List Check := (List.range m).map fun i =>
      let j := (i + index) % 16
      let out := if f.fmtOut = 10 then (entry i j).toNat else ((row i).getD j (0, false)).1
      laneCheck i 0 (fmtBits f.fmtOut) out out
    match d.localWrite c rd.addr bytes with
    | none => none
    | some d =>
      let d := d.updArch c fun a => { a with checker := { a.checker with left := (false, 0, lanes) } }
      let d := d.bump 0x4000 6 sat
      let d := d.bump 0x4000 4 (flagRows fun e => e.inx)
      let d := d.bump 0x4000 5 (flagRows fun e => e.nan || e.inf || e.ovf)
      let rOut := if rd.kind = 2 then ceilDiv (outRowBytes f.fmtOut) 16 else 1
      some ⟨d, 16 + m * rOut, 0, none⟩
  | _, _ => none
where
  /-- The context's programmable table (R150). -/
  actTableOf (bs : List Byte) : ActTable :=
    { loMode := bits (leNat (bs.take 32)) 23 16, hiMode := bits (leNat (bs.take 32)) 31 24,
      loVal := f32At bs 1, hiVal := f32At bs 2, xMax := f32At bs 3,
      brk := (List.range 64).map fun i => f32At bs (8 + i),
      coef := (List.range 256).map fun i => f32At bs (72 + i) }

end Sys2Proof.Machine
end

