-- ==== Sys2Proof/Machine/Sparse.lean ====
section
/-! DEFINITION. TMULS: the tile, its checks at start, both paths, the hash-indexed accumulator and its flush (R119, R120, R165 to R186). -/

namespace Sys2Proof.Machine

/-! ### TMULS at issue (R119) -/

/-- Checks of TMULS at issue (R113, R117, R119). -/
def tmulsCheck (a : Arch) (f : TmulsF) : Option Code :=
  let gr := grpOf a.tensor.gview f.grp
  let rb := a.resolve (a.regs.aGet f.aB) false [0, 1, 2] 1 0 0
  let rw := a.resolve (a.regs.aGet f.aB) true [0, 1, 2] 1 0 0
  if 11 ≤ f.fmtB then some cReservedNonzero
  else orderCodes [
    whenBad (f.fmtB = 10 || (f.mx && !mxFmt f.fmtB)) cBadArgument,
    whenBad (f.hash && !a.tensor.plan.hashEn) cBadArgument,
    whenBad (!f.hash && !gr.opened) cBadArgument,
    resCode (a.resolve (a.regs.aGet f.aA) false [0, 1, 2] 1 0 0),
    -- with hash = 1 the header decides at start whether a_b is read or written
    if f.hash then (match rb with
      | .ok _ => none
      | .error _ => resCode rw) else resCode rb,
    if f.mx then resCode (a.resolve (a.regs.aGet f.aS) false [0, 1] 1 0 0) else none]

/-- The meaning of TMULS (R119); it leaves both B buffers not loaded (R173). -/
def execTmuls (c : CoreId) (g : Common) (f : TmulsF) (s : State) : Host.Outcome State Fault Refusal :=
  s.onDev fun d => d.present c g
    ⟨1, false, [aId f.aA, aId f.aB, sId f.sStride] ++ (if f.mx then [aId f.aS] else [])⟩
    { wait := queueWait c 0
      check := fun d _ => if 5 ≤ g.sb then some cReservedNonzero else tmulsCheck (d.arch c) f
      effect := fun d w => d.updArch c fun a =>
        match a.resolve (a.regs.aGet f.aA) false [0, 1, 2] 1 0 0 with
        | .error _ => a
        | .ok ra =>
          let rb := optRes (a.resolve (a.regs.aGet f.aB) false [0, 1, 2] 1 0 0)
          let rw := optRes (a.resolve (a.regs.aGet f.aB) true [0, 1, 2] 1 0 0)
          let rs := if f.mx then optRes (a.resolve (a.regs.aGet f.aS) false [0, 1] 1 0 0) else none
          let a := a.accept 0 g.sb (.tmuls f ra rb rw rs (a.regs.sGet f.sStride).toNat) w.cyc
          { a with tensor := { a.tensor with bview := Vector.replicate 2 ⟨false, 0, false⟩ } } }

/-! ### The tile header (R165) -/

/-- A tile header. -/
structure TileHdr where
  version : Nat
  form : Nat
  fmt : Nat
  rows : Nat
  k : Nat
  nnz : Nat
  byteLen : Nat
  outRow : Nat
  outCol : Nat
  maxRow : Nat
  check : Nat
deriving DecidableEq, Repr

/-- Reads a tile header from 32 bytes (R165). -/
def tileHdr (bs : List Byte) : TileHdr :=
  let n := leNat bs
  { version := bits n 15 0, form := bits n 19 16, fmt := bits n 23 20, rows := bits n 47 32,
    k := bits n 63 48 + 1, nnz := bits n 95 64, byteLen := bits n 127 96, outRow := bits n 159 128,
    outCol := bits n 175 160, maxRow := bits n 191 176, check := bits n 255 192 }

/-- n rounded up to a multiple of 16 (R167). -/
def pad16 (n : Nat) : Nat := roundUp n 16

/-- Row stride of a dense body (R167). -/
def TileHdr.rs (h : TileHdr) : Nat := pad16 (ceilDiv (h.k * fmtBits h.fmt) 8)

/-- Body bytes of the dense form (R167). -/
def TileHdr.denseLen (h : TileHdr) : Nat := h.rows * h.rs

/-- Body bytes of the CSR form (R167). -/
def TileHdr.csrLen (h : TileHdr) : Nat :=
  pad16 (2 * (h.rows + 1)) + pad16 (2 * h.nnz) + pad16 (ceilDiv (h.nnz * fmtBits h.fmt) 8)

/-- Whether a CSR tile takes the sparse path (R172). -/
def TileHdr.sparsePath (h : TileHdr) (q : Nat) : Bool := h.form = 1 && decide (h.nnz * 1024 ≤ q * h.rows * h.k)

/-- 16-bit word i of bytes. -/
def u16At (bs : List Byte) (i : Nat) : Nat := leNat ((bs.drop (2 * i)).take 2)

/-- Cycles of the header read, Hs (R175). -/
def headerCycles (c : CoreId) (ra : Res) (h : TileHdr) : Nat :=
  nominal c ra.addr + beatsFor ra.kind (32 + if h.form = 1 then 2 * (h.rows + 1) else 0)

/-- The work W of a TMULS without its ramp, and the row or group cycles w (R175). -/
def TileHdr.work (c : CoreId) (h : TileHdr) (ra rb : Res) (fmtB q : Nat) : Nat × Nat :=
  let hs := headerCycles c ra h
  let cyc := classCycles h.fmt
  if h.sparsePath q then
    let gc := if ra.kind = 2 then max cyc (2 + ceilDiv (fmtBits h.fmt) 8) else cyc
    let w := gc * ceilDiv h.nnz 16
    (hs + w + 24, w)
  else
    let kc := classK h.fmt
    let r := rowCycles h.fmt ra.kind
    let p := nominal c rb.addr + kc * (if rb.kind = 2 then ceilDiv (2 * fmtBits fmtB) 16 else 1)
    let nch := ceilDiv h.k kc
    (hs + p + (nch - 1) * max (h.rows * r) p + h.rows * r + 24, nch * h.rows * r)

/-- Cycles from the start of a TMULS until its first row enters the array: the header read, and on the dense path the first read of B (R175). -/
def TileHdr.lead (c : CoreId) (h : TileHdr) (ra rb : Res) (fmtB q : Nat) : Nat :=
  headerCycles c ra h
    + if h.sparsePath q then 0 else nominal c rb.addr + classK h.fmt * (if rb.kind = 2 then ceilDiv (2 * fmtBits fmtB) 16 else 1)

/-- Bytes of scales of a TMULS (R177). -/
def TileHdr.scaleLen (h : TileHdr) : Nat := 16 * ceilDiv h.k 32 + h.rows * ceilDiv h.k 32

/-- Lengths of consecutive rows given by row_ptr. -/
def rowLens : List Nat → List Nat
  | a :: b :: rest => (b - a) :: rowLens (b :: rest)
  | _ => []

/-- Whether a list never falls. -/
def ascending : List Nat → Bool
  | a :: b :: rest => decide (a ≤ b) && ascending (b :: rest)
  | _ => true

/-- Checks of TMULS at start (R170): a code of row 1 is a suspect result, the others are refusals. -/
def tmulsStartCheck (c : CoreId) (a : Arch) (f : TmulsF) (ra : Res) (bR bW s : Option Res) (stride : Nat)
    (hdr : List Byte) (rowPtr : List Nat) (level start : Nat) : Option Code :=
  let h := tileHdr hdr
  let gr := grpOf a.tensor.groups f.grp
  let q := a.tensor.plan.crossover
  let flush := h.form = 2
  let b := (if flush then bW else bR).getD ⟨0, 9, false, 0, 0⟩
  let bMissing := (if flush then bW else bR) = none
  let bHome := b.kind = 0
  let (w0, w) := h.work c ra b f.fmtB q
  let ramp := (a.ramp level (start + h.lead c ra b f.fmtB q) w).1
  firstFail [
    (h.check != crc64 (hdr.take 24), cBlockCheckFail),
    (h.version / 256 != 1, cUnsupportedVersion),
    (decide (3 ≤ h.form) || (!flush && decide (11 ≤ h.fmt)), cReservedNonzero),
    (!flush && (decide (256 < h.rows) || (h.form = 1 && decide (65535 < h.nnz))
      || (h.form = 0 && decide (16777216 < h.nnz))), cLengthTooLarge),
    (!flush && (h.rows = 0 || h.fmt = 10 || !pairable h.fmt f.fmtB || (f.mx && !mxFmt h.fmt)
      || (h.form = 0 && h.byteLen != h.denseLen) || (h.form = 1 && h.byteLen != h.csrLen)
      || (h.form = 1 && decide (h.denseLen ≤ h.byteLen))), cBadArgument),
    (flush && (h.byteLen != 0 || !f.hash || !(b.kind = 0 || b.kind = 1)), cBadArgument),
    (bMissing, cBadArgument),
    (!flush && f.hash && a.tensor.flushPos.isSome, cBadArgument),
    (h.form = 1 && (!ascending rowPtr || rowPtr.getD 0 0 != 0 || rowPtr.getD h.rows 0 != h.nnz
      || (rowLens rowPtr).foldl max 0 != h.maxRow || decide (a.tensor.plan.split < h.maxRow)), cBadArgument),
    (h.form = 0 && f.hash, cBadArgument),
    (h.sparsePath q && !bHome, cBadArgument),
    (!flush && f.hash && (decide (0xFFFFFFFF < h.outRow + h.rows - 1) || decide (0xFFFF < h.outCol + 15)),
      cBadArgument),
    (!flush && decide (4096 < w0 + ramp), cBadArgument),
    (decide (ra.room < 32 + h.byteLen), cBounds),
    (!flush && decide (b.room < (h.k - 1) * stride + 2 * fmtBits f.fmtB), cBounds),
    (!flush && f.mx && decide ((s.map (·.room)).getD 0 < h.scaleLen), cBounds),
    (!flush && !f.hash && decide (gr.rowsM1 + 1 < f.row + h.rows), cBounds),
    (flush && decide (b.room < 64), cBounds)]

/-! ### The hash-indexed accumulator (R179 to R184) -/

/-- Hash of a key (R180). -/
def hashZ (row col : Nat) : Nat := (row * 0x9E3779B1 + col * 0x85EBCA6B) % 2 ^ 32

/-- A spill or flush record (R184). -/
def spillRecord (row col : Nat) (spilled more valid : Bool) (v : QWord) : List Byte :=
  natLe (pack [(0, row), (32, col), (48, b2n valid), (49, b2n more), (50, b2n spilled)]) 16 ++ qBytes v

/-- Where an addend for a key goes among the slots: the slot that holds the key, or the one it takes (R180). -/
def hashSlot (t : Tensor) (row col : Nat) : Option Nat :=
  let h := hashZ row col / 2 ^ 21
  let probes := (List.range 8).map fun p => (h + p) % 2048
  match probes.find? fun s => nmGet t.tags s = some ⟨row, col⟩ with
  | some s => some s
  | none =>
    if t.tags.length < 1792 then probes.find? fun s => nmGet t.tags s = none else none

/-- What a search of the spill table comes to: a record, no record, or an uncorrectable word (R181, R189). -/
inductive SpillAt where
  | found (r : Nat)
  | full
  | bad

/-- First record of the spill table that holds a key or is empty, from position i, `fuel` records on (R181). -/
def spillFind (m : LocalMem) (base log2 row col : Nat) : Nat → Nat → SpillAt
  | 0, _ => .full
  | fuel + 1, i =>
    match m.read true (base + 32 * (i % 2 ^ log2)) 16 with
    | none => .bad
    | some bs =>
      let n := leNat bs
      if !bit n 48 then .found (i % 2 ^ log2)
      else if bits n 31 0 = row ∧ bits n 47 32 = col then .found (i % 2 ^ log2)
      else spillFind m base log2 row col fuel (i + 1)

/-- State of hash accumulation: tensor, local memory with the spill table, placements in that table, and whether the table was full or a word of it uncorrectable. -/
structure HashAcc where
  t : Tensor
  mem : LocalMem
  spills : Nat
  exhausted : Bool
  bad : Bool

/-- Adds an addend for a key (R180, R181). -/
def HashAcc.addTo (s : HashAcc) (row col : Nat) (x : XA) : HashAcc :=
  if s.exhausted || s.bad then s
  else
    match hashSlot s.t row col with
    | some slot =>
      let i := 2048 + slot
      if nmGet s.t.tags slot = none then
        { s with t := { accSet s.t i x.toBits with tags := nmSet s.t.tags slot ⟨row, col⟩ } }
      else { s with t := s.t.accumulate i x }
    | none =>
      let p := s.t.plan
      if p.spillLog2 = 0 then { s with exhausted := true }
      else
        match spillFind s.mem p.spillBase p.spillLog2 row col (2 ^ p.spillLog2) (hashZ row col) with
        | .full => { s with exhausted := true }
        | .bad => { s with bad := true }
        | .found r =>
          let at_ := p.spillBase + 32 * r
          let held := bit (leNat (memRead s.mem.near at_ 7)) 48
          -- the entry of a record that holds the key is read and added to; an empty record is written whole
          match if held then s.mem.read true (at_ + 16) 16 else some [] with
          | none => { s with bad := true }
          | some e =>
            let v := if held then ((XA.ofBits (BitVec.ofNat 128 (leNat e))).add x).toBits else x.toBits
            { s with mem := (s.mem.write true at_ (spillRecord row col false false true v)).getD s.mem
                     spills := s.spills + if held then 0 else 1 }

/-- An addend of a TMULS for entry (i, j) of its target (R176). -/
def HashAcc.target (s : HashAcc) (f : TmulsF) (h : TileHdr) (base i j : Nat) (x : XA) : HashAcc :=
  if f.hash then s.addTo (h.outRow + i) (h.outCol + j) x
  else { s with t := s.t.accumulate ((base + f.row + i) * 16 + j) x }

/-- The entry that a key has, in the slots or in the spill table (R180, R181). -/
def HashAcc.held (s : HashAcc) (row col : Nat) : XA :=
  match hashSlot s.t row col with
  | some slot => if nmGet s.t.tags slot = some ⟨row, col⟩ then XA.ofBits (accGet s.t (2048 + slot)) else XA.ofBits 0#128
  | none =>
    let p := s.t.plan
    match spillFind s.mem p.spillBase p.spillLog2 row col (2 ^ p.spillLog2) (hashZ row col) with
    | .found r => XA.ofBits (BitVec.ofNat 128 (leNat (memRead s.mem.near (p.spillBase + 32 * r) 32) / 2 ^ 128))
    | _ => XA.ofBits 0#128

/-- The entries of row i of the target of a TMULS (R176, R360). -/
def HashAcc.targetRow (s : HashAcc) (f : TmulsF) (h : TileHdr) (base i : Nat) : List XA :=
  if f.hash then (List.range 16).map fun j => s.held (h.outRow + i) (h.outCol + j)
  else accRow s.t (base + f.row + i)

/-! ### The two paths (R172 to R177) -/

/-- A nonzero: its row, its column and its element. -/
structure Nz where
  row : Nat
  col : Nat
  v : Nat

/-- Nonzeros of a CSR body in stored order (R167). -/
def csrNonzeros (h : TileHdr) (rowPtr : List Nat) (body : List Byte) : List Nz :=
  let cols := body.drop (pad16 (2 * (h.rows + 1)))
  let vals := leNat (body.drop (pad16 (2 * (h.rows + 1)) + pad16 (2 * h.nnz)))
  (List.range h.nnz).map fun e =>
    { row := (rowPtr.takeWhile fun p => decide (p ≤ e)).length - 1, col := u16At cols e, v := elemAt h.fmt vals e }

/-- The scale of a block of a TMULS (R177). -/
def sScale (h : TileHdr) (scales : List Byte) (i j b : Nat) : Nat × Nat :=
  let nbk := ceilDiv h.k 32
  ((scales.getD (16 * nbk + i * nbk + b) 0#8).toNat, (scales.getD (16 * b + j) 0#8).toNat)

/-- What the checker takes of a TMULS: the rows that it fed, their elements and the entries of their targets, by keys with the hash target (R177, R360). -/
def tmulsFed (before after : HashAcc) (f : TmulsF) (h : TileHdr) (base : Nat) (bElem : Nat → Nat → Nat) (scales : List Byte)
    (rows : List (Nat × List Nz)) : Fed :=
  { fmtA := h.fmt, fmtB := f.fmtB, mx := f.mx, b := bElem
    scaleA := fun i b => (sScale h scales i 0 b).1
    scaleB := fun b j => (sScale h scales 0 j b).2
    rows := rows.map fun r =>
      { row := r.1, elems := r.2.map fun z => (z.col, z.v)
        before := before.targetRow f h base r.1, after := after.targetRow f h base r.1 } }

/-- Splits a list into groups of 16 (R176). -/
def groups16 {α : Type} : Nat → List α → List (List α)
  | 0, _ => []
  | _, [] => []
  | n + 1, l => l.take 16 :: groups16 n (l.drop 16)

/-- One row's addend of a group for column j: the pairwise tree over group positions, exact for narrow and byte classes (R176). With mx, products of one block of k are summed, scaled and added in ascending block order. -/
def groupAddend (f : TmulsF) (h : TileHdr) (bElem : Nat → Nat → Nat) (scales : List Byte) (g : List Nz) (i j : Nat) : XA :=
  let out :=
    if fmtClass h.fmt ≤ 1 then
      let mine := g.filter fun z => z.row = i
      let blocks := (List.range (ceilDiv h.k 32)).filter fun b => mine.any fun z => z.col / 32 = b
      if f.mx then
        (blocks.map fun b =>
          scaleXA (blockSum h.fmt f.fmtB ((mine.filter fun z => z.col / 32 = b).map fun z => (z.v, bElem z.col j)))
            (sScale h scales i j b).1 (sScale h scales i j b).2).foldl XA.add (XA.mk0 0 0 0)
      else blockSum h.fmt f.fmtB (mine.map fun z => (z.v, bElem z.col j))
    else
      xaTree 5 (g.map fun z =>
        if z.row = i then
          (if fmtClass h.fmt = 2 then halfProd h.fmt z.v f.fmtB (bElem z.col j) else singleProd z.v (bElem z.col j))
        else XA.mk0 0 0 0)
  { out with count := 1 }

/-- The sparse path (R176). -/
def sparseRun (f : TmulsF) (h : TileHdr) (base : Nat) (nz : List Nz) (bElem : Nat → Nat → Nat) (scales : List Byte)
    (s : HashAcc) : HashAcc :=
  (groups16 (nz.length + 1) nz).foldl (fun s g =>
    let rows := (List.range h.rows).filter fun i => g.any fun z => z.row = i
    rows.foldl (fun s i =>
      (List.range 16).foldl (fun s j => s.target f h base i j (groupAddend f h bElem scales g i j)) s) s) s

/-- One row's addend of a chunk for column j on the dense path, from the row's elements in the chunk (R137, R176). Elements of one k add before the tree. -/
def chunkAddend (f : TmulsF) (h : TileHdr) (bElem : Nat → Nat → Nat) (scales : List Byte) (ch : Nat) (row : List Nz)
    (i j : Nat) : XA :=
  let kc := classK h.fmt
  let out :=
    if fmtClass h.fmt ≤ 1 then
      ((List.range (kc / 32)).map fun hb =>
        let b := ch * (kc / 32) + hb
        let v := blockSum h.fmt f.fmtB ((row.filter fun z => z.col / 32 = b).map fun z => (z.v, bElem z.col j))
        if f.mx && decide (b < ceilDiv h.k 32) then scaleXA v (sScale h scales i j b).1 (sScale h scales i j b).2
        else v).foldl XA.add (XA.mk0 0 0 0)
    else
      xaTree 6 ((List.range kc).map fun p =>
        ((row.filter fun z => z.col = ch * kc + p).map fun z =>
          if fmtClass h.fmt = 2 then halfProd h.fmt z.v f.fmtB (bElem z.col j) else singleProd z.v (bElem z.col j)).foldl
          XA.add (XA.mk0 0 0 0))
  { out with count := 1 }

/-- The dense path over rows given as their elements (R176). -/
def denseRun (f : TmulsF) (h : TileHdr) (base : Nat) (rows : List (List Nz)) (bElem : Nat → Nat → Nat)
    (scales : List Byte) (s : HashAcc) : HashAcc :=
  let kc := classK h.fmt
  (List.range (ceilDiv h.k kc)).foldl (fun s ch =>
    rows.zipIdx.foldl (fun s p =>
      if f.hash && p.1.isEmpty then s
      else
        let row := p.1.filter fun z => z.col / kc = ch
        (List.range 16).foldl (fun s j => s.target f h base p.2 j (chunkAddend f h bElem scales ch row p.2 j)) s) s) s

/-! ### The flush (R183) -/

/-- Progress of a flush: tensor, local memory with the spill table, records written, visit position, eighths of a cycle spent, and whether a word of the table was uncorrectable. -/
structure Flush where
  t : Tensor
  mem : LocalMem
  recs : List (List Byte)
  pos : Nat
  half : Nat
  bad : Bool

/-- Visits positions from `pos`: slots 0 to 2047 at four a cycle, then spill records at half a record a cycle, until the end, the room for records less one, or the budget in eighths of a cycle (R183). -/
def flushVisit (room limit last : Nat) : Nat → Flush → Flush
  | 0, s => s
  | fuel + 1, s =>
    if s.pos ≥ last ∨ s.recs.length + 1 ≥ room ∨ s.half ≥ limit ∨ s.bad = true then s
    else if s.pos < 2048 then
      let t := match nmGet s.t.tags s.pos with
        | none => { s with pos := s.pos + 1, half := s.half + 2 }
        | some tag =>
          { s with
            t := { accSet s.t (2048 + s.pos) 0#128 with tags := nmErase s.t.tags s.pos }
            recs := s.recs ++ [spillRecord tag.row tag.col false false true (accGet s.t (2048 + s.pos))]
            pos := s.pos + 1, half := s.half + 2 }
      flushVisit room limit last fuel t
    else
      let at_ := s.t.plan.spillBase + 32 * (s.pos - 2048)
      let t := match s.mem.read true at_ 32 with
        | none => { s with bad := true }
        | some bs =>
          let n := leNat bs
          if bit n 48 then
            { s with mem := (s.mem.write true at_ (List.replicate 32 0#8)).getD s.mem
                     recs := s.recs ++ [spillRecord (bits n 31 0) (bits n 47 32) true false true
                       (BitVec.ofNat 128 (n / 2 ^ 128))]
                     pos := s.pos + 1, half := s.half + 16 }
          else { s with pos := s.pos + 1, half := s.half + 16 }
      flushVisit room limit last fuel t

/-- Whether any entry remains from a visit position on. -/
def flushMore (t : Tensor) (near : Mem) (pos last : Nat) : Bool :=
  t.tags.any (fun p => decide (pos ≤ p.1)) ||
    (List.range (last - max pos 2048)).any fun i =>
      bit (leNat (memRead near (t.plan.spillBase + 32 * (max pos 2048 - 2048 + i)) 7)) 48

/-- Runs a flush (R183); the first component of an error says whether an uncorrectable word lies in the spill table. -/
def Dev.runFlush (d : Dev) (c : CoreId) (f : TmulsF) (h : TileHdr) (ra b : Res) : Except Bool Started :=
  let budget := (f.budgetM1 + 1) * 16
  let k := d.core c
  let t := k.arch.tensor
  let last := 2048 + if t.plan.spillLog2 = 0 then 0 else 2 ^ t.plan.spillLog2
  let s0 : Flush := ⟨t, k.mem, [], t.flushPos.getD 0, 8 * headerCycles c ra h, false⟩
  let s := flushVisit (b.room / 32) (8 * (budget - 24)) last (last + 1) s0
  let more := flushMore s.t s.mem.near s.pos last
  let bytes := s.recs.flatMap id ++ spillRecord 0 0 false more false 0#128
  let d := d.updCore c fun k =>
    { k with
      mem := s.mem
      arch := ({ k.arch with tensor := { s.t with flushPos := if s.pos ≥ last then none else some s.pos } }).touch b.handle }
  if s.bad then .error true
  else
    match d.localWrite c b.addr bytes with
    | none => .error false
    | some d => .ok ⟨d.bump 0x4100 7 1, budget, 0, none⟩

/-! ### Running TMULS -/

/-- What the start of a TMULS comes to: done, a code that stops the core, or an uncorrectable word among its operands or in the spill table. -/
inductive TmulsEnd where
  | ran (s : Started)
  | ranThenStop (d : Dev) (code : Code)
  | stop (code : Code)
  | unreadable
  | spillBad (d : Dev)

/-- Runs a TMULS that starts in cycle `start` (R119, R120, R170 to R183). -/
def Dev.runTmuls (d : Dev) (c : CoreId) (f : TmulsF) (ra : Res) (bR bW rs : Option Res) (stride start : Nat) : TmulsEnd :=
  match d.localRead c ra.addr 32 with
  | none => .unreadable
  | some hdr =>
    let h := tileHdr hdr
    let a := d.arch c
    let ptrBytes := if h.form = 1 ∧ h.rows ≤ 256 then d.localRead c (ra.addr + 32) (2 * (h.rows + 1)) else some []
    match ptrBytes with
    | none => .unreadable
    | some ptrBytes =>
      let rowPtr := (List.range (ptrBytes.length / 2)).map fun i => u16At ptrBytes i
      match tmulsStartCheck c a f ra bR bW rs stride hdr rowPtr (d.throttleLevel c) start with
      | some code => .stop code
      | none =>
        let b := (if h.form = 2 then bW else bR).getD ⟨0, 0, false, 0, 0⟩
        let unload (d : Dev) : Dev := d.updArch c fun a =>
          { a with tensor := { a.tensor with bufs := Vector.replicate 2 ⟨false, 0, false, [], []⟩ } }
        if h.form = 2 then
          match (unload d).runFlush c f h ra b with
          | .error true => .spillBad d
          | .error false => .unreadable
          | .ok s => .ran s
        else
          let rowB := 2 * fmtBits f.fmtB
          match d.localRead c (ra.addr + 32) h.byteLen, d.readRows c b.addr stride rowB h.k,
              (match rs with
                | some r => d.localRead c r.addr h.scaleLen
                | none => some []) with
          | some body, some bRows, some scales =>
            let bNums := bRows.map leNat
            let bElem (k j : Nat) : Nat := elemAt f.fmtB (bNums.getD k 0) j
            let nzAll := if h.form = 1 then csrNonzeros h rowPtr body else []
            let nz := nzAll.takeWhile fun z => decide (z.col < h.k)
            let corrupt := decide (nz.length < nzAll.length)
            let base := (grpOf a.tensor.groups f.grp).base
            let rows : List (List Nz) :=
              if h.form = 1 then (List.range h.rows).map fun i => nz.filter fun z => z.row = i
              else (List.range h.rows).map fun i =>
                let whole := leNat ((body.drop (i * h.rs)).take h.rs)
                (List.range h.k).map fun k => ⟨i, k, elemAt h.fmt whole k⟩
            let sp := h.sparsePath a.tensor.plan.crossover
            let s0 : HashAcc := ⟨a.tensor, (d.core c).mem, 0, false, false⟩
            let s := if sp then sparseRun f h base nz bElem scales s0 else denseRun f h base rows bElem scales s0
            let fed := (List.range h.rows).filter fun i =>
              if sp || f.hash then rows.any fun r => r.any fun z => z.row = i else true
            -- a command that a full spill table stops has no result to check
            let left : Bool × Nat × List Check :=
              if s.exhausted || s.bad then (false, 0, [])
              else (tmulsFed s0 s f h base bElem scales (fed.map fun i => (i, rows.getD i []))).taken
            let d := unload (d.updCore c fun k =>
              { k with arch := { k.arch with tensor := s.t, checker := { k.arch.checker with left := left } }, mem := s.mem })
            let d := d.bump 0x4100 (if sp then 3 else if h.form = 0 then 4 else 5) 1
            let d := d.bump 0x4100 6 s.spills
            if s.bad then .spillBad d
            else if s.exhausted then .ranThenStop (d.bump 0x4100 9 1) cSpillExhausted
            else if corrupt then .ranThenStop d cBlockCheckFail
            else
              let budget := (f.budgetM1 + 1) * 16
              let (w0, w) := h.work c ra b f.fmtB a.tensor.plan.crossover
              let (rc, rl) := a.ramp (d.throttleLevel c) (start + h.lead c ra b f.fmtB a.tensor.plan.crossover) w
              let need := w0 + rc + rl
              .ran ⟨d, budget, need - budget,
                if w = 0 then none else some (budget - need)⟩
          | _, _, _ => .unreadable

end Sys2Proof.Machine
end

