-- ==== Sys2Proof/Machine/VectorUnit.lean ====
section
/-! DEFINITION. Vector commands and the starts and completions of the tensor and vector units, the checker's verdict and hard faults (R75, R81, R94, R98, R99, R123, R124, R158, R188 to R202, R359 to R364). -/

namespace Sys2Proof.Machine

/-! ### VOP, VOP.LD, VOP.ST at issue -/

/-- Whether a VOP function code is reserved (R123). -/
def vopReserved (fn : Nat) : Bool := !(decide (fn ≤ 0x0D) || (decide (0x10 ≤ fn) && decide (fn ≤ 0x16)))

/-- Latency L of a VOP (R123). -/
def vopLatency (fn : Nat) : Nat :=
  match fn with
  | 0x0B => 12
  | 0x0C | 0x0D => 14
  | _ => 8

/-- The meaning of VOP (R123). -/
def execVop (c : CoreId) (g : Common) (f : VopF) (s : State) : Host.Outcome State Fault Refusal :=
  s.onDev fun d => d.present c g ⟨2, false, if f.bsel then [sId f.sB] else []⟩
    { wait := queueWait c 1
      check := fun _ _ =>
        if 5 ≤ g.sb ∨ vopReserved f.fn ∨ (f.fn = 0x0B ∧ 7 ≤ f.vc) then some cReservedNonzero else none
      effect := fun d w => d.updArch c fun a => a.accept 1 g.sb (.vop f (a.regs.sGet f.sB)) w.cyc }

/-- The meaning of VOP.LD (R124). -/
def execVopLd (c : CoreId) (g : Common) (v aV : Nat) (postInc : Bool) (imm : Word) (s : State) :
    Host.Outcome State Fault Refusal :=
  s.onDev fun d => d.present c g ⟨2, false, [aId aV]⟩
    { wait := queueWait c 1
      check := fun d _ => if 5 ≤ g.sb then some cReservedNonzero
        else resCode ((d.arch c).resolve ((d.arch c).regs.aGet aV) false [0, 1, 2, 3] 64 imm.toNat 256)
      effect := fun d w => d.updArch c fun a =>
        match a.resolve (a.regs.aGet aV) false [0, 1, 2, 3] 64 imm.toNat 256 with
        | .error _ => a
        | .ok r =>
          let a := a.accept 1 g.sb (.vopLd v r) w.cyc
          if postInc then a.putA aV (withOffset (a.regs.aGet aV) (aOffset (a.regs.aGet aV) + 256)) w.cyc else a }

/-- The meaning of VOP.ST (R124). -/
def execVopSt (c : CoreId) (g : Common) (v aV : Nat) (postInc : Bool) (imm : Word) (s : State) :
    Host.Outcome State Fault Refusal :=
  s.onDev fun d => d.present c g ⟨2, false, [aId aV]⟩
    { wait := queueWait c 1
      check := fun d _ => if 5 ≤ g.sb then some cReservedNonzero
        else resCode ((d.arch c).resolve ((d.arch c).regs.aGet aV) true [0, 1, 2, 3] 64 imm.toNat 256)
      effect := fun d w => d.updArch c fun a =>
        match a.resolve (a.regs.aGet aV) true [0, 1, 2, 3] 64 imm.toNat 256 with
        | .error _ => a
        | .ok r =>
          let a := (a.accept 1 g.sb (.vopSt v r) w.cyc).touch r.handle
          if postInc then a.putA aV (withOffset (a.regs.aGet aV) (aOffset (a.regs.aGet aV) + 256)) w.cyc else a }

/-! ### Vector numerics (R123, R158) -/

/-- One level of the fixed pairwise tree over lanes (R158). -/
def laneLevel (op : Word → Word → Word) : List Word → List Word
  | a :: b :: rest => op a b :: laneLevel op rest
  | l => l

/-- Six levels of the pairwise tree (R158). -/
def laneTree (op : Word → Word → Word) (l : List Word) : Word :=
  (laneLevel op (laneLevel op (laneLevel op (laneLevel op (laneLevel op (laneLevel op l)))))).headD 0#32

/-- One lane of a VOP (R123, R158). -/
def vopLane (fn act : Nat) (tbl : ActTable) (a b x : Word) : Word :=
  let sh := b.toNat % 32
  match fn with
  | 0x00 => f32Add a b
  | 0x01 => f32Sub a b
  | 0x02 => f32Mul a b
  | 0x03 => f32Fma a b x
  | 0x04 => f32Pick true a b
  | 0x05 => f32Pick false a b
  | 0x06 => if ofF32 a = .nan then 0x7FC00000#32 else a &&& 0x7FFFFFFF#32
  | 0x07 => if ofF32 a = .nan then 0x7FC00000#32 else a ^^^ 0x80000000#32
  | 0x08 => a
  | 0x09 => f32OfInt a
  | 0x0A => f32ToInt a
  | 0x0B => activate act tbl a
  | 0x10 => a + b
  | 0x11 => a &&& b
  | 0x12 => a ||| b
  | 0x13 => a ^^^ b
  | 0x14 => a <<< sh
  | 0x15 => a >>> sh
  | _ => a.sshiftRight sh

/-- Result of a VOP (R123, R158). -/
def vopResult (f : VopF) (tbl : ActTable) (va vb vc : Vector Word 64) : Vector Word 64 :=
  if f.fn = 0x0C then (Vector.replicate 64 0#32).setIfInBounds 0 (laneTree f32Add va.toList)
  else if f.fn = 0x0D then (Vector.replicate 64 0#32).setIfInBounds 0 (laneTree (f32Pick true) va.toList)
  else Vector.ofFn fun i : Fin 64 => vopLane f.fn f.vc tbl va[i] vb[i] vc[i]

/-- The checks of the n-th VOP of a step: a residue modulo 127 in each lane, and every bit in the lane that the checking lane recomputes (R359, R362; DESIGN CHOICE, log entry 119: the residue is that of the output's bits). -/
def vopChecks (n : Nat) (out : Vector Word 64) : List Check :=
  out.toList.zipIdx.map fun p => laneCheck p.2 (if p.2 = n % 64 then 0 else 127) 32 p.1.toNat p.1.toNat

/-- Vector registers a command reads (R99). -/
def vopReads (f : VopF) : List Nat :=
  let b := if f.bsel then [] else [f.vb]
  match f.fn with
  | 0x00 | 0x01 | 0x02 | 0x04 | 0x05 => f.va :: b
  | 0x03 => f.va :: b ++ [f.vc]
  | 0x10 | 0x11 | 0x12 | 0x13 | 0x14 | 0x15 | 0x16 => f.va :: b
  | _ => [f.va]

/-- Cycle from which every listed vector register has been written (R99). -/
def Regs.vReadyAt (r : Regs) (l : List Nat) : Nat := (l.map fun i => (nmGet r.vready i).getD 0).foldl max 0

/-! ### Starts (R94, R98, R99) -/

/-- First entry of a queue that has not started, with its place. -/
def firstWaiting (q : List QEntry) : Option (Nat × QEntry) :=
  (q.zipIdx.find? fun p => !p.1.started).map fun p => (p.2, p.1)

/-- Changes entry i of a unit's queue. -/
def Arch.updEntry (a : Arch) (unit i : Nat) (f : QEntry → QEntry) : Arch :=
  let u := vGet a.units unit clearUnit
  { a with units := vSet a.units unit { u with queue := lSet u.queue i (f (u.queue.getD i
      ⟨.accClose 0, 0, 0, 0, 0, false, 0, 0, 0, false, 0, 0, 0, none⟩)) } }

/-- Marks entry i of a unit's queue as started in cycle `start`. -/
def Arch.started (a : Arch) (unit i start dur late : Nat) (tail : Option Nat) : Arch :=
  let a := a.updEntry unit i fun e => { e with started := true, start := start, dur := dur, late := late, tail := tail }
  { a with units := vSet a.units unit { vGet a.units unit clearUnit with lastStart := start } }

/-- A unit's command is refused at its start or fails (R75, R80). -/
def Dev.stopAt (d : Dev) (c : CoreId) (code : Code) (unit : Nat) (e : QEntry) : Dev :=
  d.stop c code unit e.sb e.pc e.gear 0 0

/-- Rows of an operand: each row's address and length. -/
def rowSpans (addr stride bytes n : Nat) : List (Nat × Nat) := (List.range n).map fun i => (addr + i * stride, bytes)

/-- An optional operand of n bytes. -/
def optSpan (r : Option Res) (n : Nat) : List (Res × List (Nat × Nat)) :=
  match r with
  | some r => [(r, [(r.addr, n)])]
  | none => []

/-- What a tensor, vector or message command reads of local memory: each operand with its pieces, address and length (R94, R117, R124, R135, R170, R177). -/
def Dev.cmdReads (d : Dev) (c : CoreId) (cmd : UnitCmd) : List (Res × List (Nat × Nat)) :=
  match cmd with
  | .accOpen _ _ _ b => optSpan b 64
  | .tmul f a b s stride =>
    [(a, rowSpans a.addr stride (aRowBytes f.fmtA) (f.rowsM1 + 1))] ++ optSpan b (bTileBytes f.fmtB)
      ++ (match s with
        | some s =>
          let loads := f.bmode = 1 ∨ f.bmode = 2
          [(s, [(if loads then s.addr else s.addr + 32, scaleBytes f.fmtA (f.rowsM1 + 1) - if loads then 0 else 32)])]
        | none => [])
  | .tmuls f a b _ s stride =>
    let h := tileHdr ((d.localRead c a.addr 32).getD [])
    if h.form = 2 then [(a, [(a.addr, 32)])]
    else
      [(a, [(a.addr, min a.room (32 + h.byteLen))])] ++ (match b with
        | some b => if decide ((h.k - 1) * stride + 2 * fmtBits f.fmtB ≤ b.room) then [(b, rowSpans b.addr stride (2 * fmtBits f.fmtB) h.k)] else []
        | none => []) ++ optSpan s h.scaleLen
  | .drain f _ s b _ =>
    optSpan s (if f.scaleMode = 1 then 4 else if f.scaleMode = 2 then 4 * (f.rowsM1 + 1) else 64) ++ optSpan b 64
  | .vopLd _ a => [(a, [(a.addr, 256)])]
  | .send f _ _ _ p => optSpan p ((f.length - 1) * 16)
  | _ => []

/-- What it writes: address and length. -/
def cmdWrites (cmd : UnitCmd) : List (Nat × Nat) :=
  match cmd with
  | .drain f r _ _ _ => [(r.addr, (f.rowsM1 + 1) * outRowBytes f.fmtOut + if f.mx then (f.rowsM1 + 1) / 2 else 0)]
  | .tmuls _ _ _ (some w) _ _ => [(w.addr, w.room)]
  | .vopSt _ r => [(r.addr, 256)]
  | _ => []

/-- A unit's command met an uncorrectable word in what it reads, or in a part of what it writes (R189). -/
def Dev.unreadable (d : Dev) (c : CoreId) (unit : Nat) (e : QEntry) : Dev :=
  d.badWord c ((((d.cmdReads c e.cmd).flatMap Prod.snd ++ cmdWrites e.cmd).findSome? fun p => d.badAt c p).getD .home)
    unit e.sb e.pc e.gear

/-- Blocks that the operands of a command list for verification (R201). -/
def Dev.cmdBlocks (d : Dev) (c : CoreId) (cmd : UnitCmd) : List (Nat × Nat) :=
  ((d.cmdReads c cmd).flatMap fun p => if p.1.bc then p.2.flatMap fun q => blocksOf c q.1 q.2 else []).dedup

/-- Whether a core's units run: a stopped core's do until their command in progress ends (R80), an idle core's have none. -/
def Arch.live (a : Arch) : Bool := decide (a.stat.run = .running) || decide (a.stat.run = .atGate)

/-- A late-arrival stall of n cycles of one of a core's requesters: 0 the scalar unit, 1 the tensor and 2 the vector unit, whose command in progress, or the one about to start, is late by them (R58, R60, R71, R193, R194). -/
def Dev.lateFor (d : Dev) (c : CoreId) (unit n : Nat) : Dev :=
  if unit = 0 then d.stallLate c n
  else d.updArch c fun a => a.updHead (unit - 1) fun e => { e with late := e.late + n }

/-- The tensor unit starts the command at the head of its queue: checks that need memory, then its effect on accumulators, buffers and memory (R55, R94, R98; log entry 13). -/
def Dev.tensorStart (d : Dev) (c : CoreId) : Dev :=
  let a := d.arch c
  let u := vGet a.units 0 clearUnit
  match u.queue with
  | [] => d
  | e :: _ =>
    let bl := d.cmdBlocks c e.cmd
    if e.started || !a.live || !a.routerPast e then d
    else if !d.verifyRoom c bl then d.lateFor c 1 1
    else
      let start := max e.accepted u.lastEnd
      let d := d.listBlocks c 1 e.sb e.pc e.gear bl
      let begin_ (r : Option Started) : Dev :=
        match r with
        | none => d.unreadable c 1 e
        | some r => r.dev.updArch c fun a => a.started 0 0 start r.dur (e.late + r.late) r.tail
      match e.cmd with
      | .accOpen grp base rowsM1 bias => begin_ (d.runAccOpen c grp base rowsM1 bias)
      | .accClose grp =>
        begin_ (some ⟨d.updArch c fun a => { a with tensor := { a.tensor with
          groups := vSet a.tensor.groups grp { grpOf a.tensor.groups grp with opened := false } } }, 1, 0, none⟩)
      | .tmul f ra rb rs stride => begin_ (d.runTmul c f ra rb rs stride start)
      | .drain f rd rs rb index => begin_ (d.runDrain c f rd rs rb index e.step)
      | .tmuls f ra bR bW rs stride =>
        match d.runTmuls c f ra bR bW rs stride start with
        | .ran s => begin_ (some s)
        | .unreadable => d.unreadable c 1 e
        | .spillBad d =>
          let p := (d.arch c).tensor.plan
          d.badWord c ((d.badAt c (0x40000000 + kIndex c * 0x1800000 + p.spillBase, 32 * 2 ^ p.spillLog2)).getD .home) 1 e.sb e.pc e.gear
        | .stop code => d.stopAt c code 1 e
        | .ranThenStop d code =>
          (d.updArch c fun a => a.started 0 0 start ((f.budgetM1 + 1) * 16) 0 none).stopAt c code 1 e
      | _ => d

/-- The meaning of TENSOR_COMMAND_START. -/
def execTensorCommandStart (c : CoreId) (s : State) : Host.Outcome State Fault Refusal :=
  s.onDev fun d => d.tensorStart c

/-- Whether a vector command reads the register that a load before it writes: it starts when the load has completed, late cycles included (R99). -/
def UnitCmd.needs (cmd before : UnitCmd) : Bool :=
  match before with
  | .vopLd v _ => match cmd with
    | .vop f _ => (vopReads f).contains v
    | .vopSt w _ => w = v
    | _ => false
  | _ => false

/-- The vector unit starts its next command (R99, R123, R124); a register counts as written L cycles after its command's start, and the late cycles of a load more (DEDUCED; log entry 103). -/
def Dev.vectorStart (d : Dev) (c : CoreId) : Dev :=
  let a := d.arch c
  let u := vGet a.units 1 clearUnit
  match firstWaiting u.queue with
  | none => d
  | some (i, e) =>
    let bl := d.cmdBlocks c e.cmd
    if !a.live || !a.routerPast e || u.queue.any fun p => p.started && e.cmd.needs p.cmd then d
    else if !d.verifyRoom c bl then d.updArch c fun a => a.updEntry 1 i fun e => { e with late := e.late + 1 }
    else
      let after := if u.lastStart = 0 ∧ u.lastEnd = 0 then 0 else u.lastStart + 1
      let d := d.listBlocks c 2 e.sb e.pc e.gear bl
      let tbl := Dev.runDrain.actTableOf (d.ctxOf c).image.act
      match e.cmd with
      | .vop f x =>
        let s := max (max e.accepted after) (a.regs.vReadyAt (vopReads f))
        d.updArch c fun a =>
          let b := if f.bsel then Vector.replicate 64 x else a.regs.vRead f.vb
          let out := vopResult f tbl (a.regs.vRead f.va) b (a.regs.vRead f.vc)
          let r := a.regs.vWrite f.vd out
          let k := a.checker
          { a.started 1 i s (vopLatency f.fn) e.late none with
            regs := { r with vready := nmSet r.vready f.vd (s + vopLatency f.fn) }
            checker := { k with vops := k.vops + 1, lanes := k.lanes ++ [vopChecks k.vops out] } }
      | .vopLd v r =>
        let s := max e.accepted after
        match d.localRead c r.addr 256 with
        | none => d.unreadable c 2 e
        | some bs =>
          let L := nominal c r.addr + (if r.kind = 2 then 16 else 1) - 1
          d.updArch c fun a =>
            let x := a.regs.vWrite v (Vector.ofFn fun l : Fin 64 => f32At bs l.val)
            { a.started 1 i s L e.late none with regs := { x with vready := nmSet x.vready v (s + L) } }
      | .vopSt v r =>
        let s := max (max e.accepted after) (a.regs.vReadyAt [v])
        match d.localWrite c r.addr ((a.regs.vRead v).toList.flatMap fun w => natLe w.toNat 4) with
        | none => d.unreadable c 2 e
        | some d => d.updArch c fun a =>
          a.started 1 i s (if r.kind = 2 then 16 else 1) e.late none
      | _ => d

/-- The meaning of VECTOR_COMMAND_START. -/
def execVectorCommandStart (c : CoreId) (s : State) : Host.Outcome State Fault Refusal :=
  s.onDev fun d => d.vectorStart c

/-! ### Completions (R45, R50, R98, R99) -/

/-- Whether a command is arithmetic that the checker judges (R359). -/
def UnitCmd.arithmetic : UnitCmd → Bool
  | .tmul .. | .tmuls .. | .drain .. | .vop .. => true
  | _ => false

/-- Whether a command is a drain, which status word 2 counts (R364). -/
def UnitCmd.isDrain : UnitCmd → Bool
  | .drain .. => true
  | _ => false

/-- The head command of the tensor or vector unit completes, `late` cycles after its nominal completion (R98, R99). -/
def Arch.complete (a : Arch) (unit late : Nat) : Arch :=
  let u := vGet a.units unit clearUnit
  match u.queue with
  | [] => a
  | e :: _ =>
    if !e.started then a
    else
      let own := e.late + late
      let fin := if unit = 0 then e.start + e.dur + own else max (e.start + e.dur) u.lastEnd + own
      let nom := if unit = 0 then max e.accepted u.nomEnd + e.dur else max (e.start + e.dur) u.nomEnd
      let a := a.finish unit fin nom
      let x := vGet a.units unit clearUnit
      let a := if e.cmd.arithmetic then
          let k := a.checker
          let (inexact, skips, checks) := if unit = 0 then k.left else (false, 0, k.lanes.headD [])
          let v : Verdict := ⟨fin + 32, unit = 0, e.cmd.isDrain, e.ordinal, x.chain, x.mark, inexact, skips, checks⟩
          { a with checker := { k with
              pendingV := k.pendingV ++ [v], left := if unit = 0 then (false, 0, []) else k.left
              lanes := if unit = 0 then k.lanes else k.lanes.tail } }
        else a
      let late (v : Nat) (a : Arch) : Arch := { a with regs := { a.regs with vready := nmSet a.regs.vready v (e.start + e.dur + own) } }
      let a := match e.cmd with
        | .vopLd v _ => if nmGet a.regs.vready v = some (e.start + e.dur) then late v a else a
        | _ => a
      match e.tail with
      | some k => { a with tensor := { a.tensor with rowEnd := some (fin - k, x.mark) } }
      | none => a

/-- Whether the tensor command that completes `late` cycles late is a TMULS that finishes after its budget (R120, R187). -/
def Arch.overran (a : Arch) (late : Nat) : Bool :=
  match (vGet a.units 0 clearUnit).queue with
  | e :: _ => e.started && decide (0 < e.late + late) && match e.cmd with
    | .tmuls .. => true
    | _ => false
  | [] => false

/-- The meaning of TENSOR_COMMAND_COMPLETE; `late` is its late-arrival cycles. -/
def execTensorCommandComplete (c : CoreId) (late : Nat) (s : State) : Host.Outcome State Fault Refusal :=
  s.onDev fun d => (if (d.arch c).overran late then d.bump 0x4100 8 1 else d).updArch c fun a => a.complete 0 late

/-- The meaning of VECTOR_COMMAND_COMPLETE; `late` is its late-arrival cycles. -/
def execVectorCommandComplete (c : CoreId) (late : Nat) (s : State) : Host.Outcome State Fault Refusal :=
  s.onDev fun d => d.updArch c fun a => a.complete 1 late

/-! ### The checker (R359 to R364, R77) -/

/-- The checker's verdict on the oldest completed arithmetic command, whose comparisons a failure of the hardware has `changed` (R363, R364): the first that fails makes the suspect record. Rows and columns not checked are counted (R361). -/
def Dev.verdict (d : Dev) (c : CoreId) (changed : Check → Check) : Dev :=
  let a := d.arch c
  match a.checker.pendingV with
  | [] => d
  | v :: rest =>
    let k := a.checker
    let checks := v.checks.map changed
    let failed := checks.find? fun r => !r.passes
    let flags := if v.inexact then vSet k.flags 4 true else k.flags
    let flags := if 0 < v.skips then vSet flags 5 true else flags
    let flags := match failed with
      | some f => vSet flags f.kind true
      | none => flags
    let k' : Checker := { k with
      flags := flags, pendingV := rest, judged := (k.judged.filter fun p => decide (a.stat.cyc < p.due)) ++ [v]
      failed := k.failed + (if failed.isSome then 1 else 0)
      tensorJudged := k.tensorJudged + (if v.tensor && !v.drain then 1 else 0)
      vectorJudged := k.vectorJudged + (if !v.tensor || v.drain then 1 else 0)
      results := k.results ++ [(v.ordinal, checks)]
      suspect := match k.suspect, failed with
        | none, some f => some ⟨v.ordinal, f⟩
        | r, _ => r }
    let d := d.bump 0x6000 3 1
    let d := d.bump 0x6000 5 v.skips
    let d := d.updArch c fun a => { a with checker := k' }
    match failed with
    | none => d
    | some _ =>
      let d := d.bump 0x6000 4 1
      let d := d.updStat c fun s => { s with clean := false, suspects := ⟨cCheckMismatch, 4, v.ordinal, 0⟩ :: s.suspects }
      d.eventCore c cCheckMismatch 5 3 0 0

/-- The meaning of CHECKER_VERDICT (R359 to R364): the checker compares what it formed for the oldest completed arithmetic command. The operands are what a failure of the hardware added to the sums of rows and columns and to the checker's references, as integers times 2 to the q by row or column; for lanes, the bits that it changed (log entry 119). -/
def execCheckerVerdict (c : CoreId) (rows cols refRows refCols : NMap Int) (q : Int) (s : State) : Host.Outcome State Fault Refusal :=
  s.onDev fun d => d.verdict c fun k => k.upset rows cols refRows refCols q

/-! ### Memory-side events of a core (R69 to R71, R188, R193 to R202) -/

/-- The meaning of HUB_STARVATION_GRANT (R71): the owner's requester that loses the cycle (0 scalar, 1 tensor, 2 vector unit) has a late-arrival stall of one cycle. -/
def execHubStarvationGrant (loser : Loser) (s : State) : Host.Outcome State Fault Refusal :=
  s.onDev fun d => d.lateFor loser.core loser.unit 1

/-- The meaning of NEAR_STARVATION_GRANT (R193): the owner's requester has a late-arrival stall of one NEAR cycle, four CORE cycles at 1.9 GHz. -/
def execNearStarvationGrant (loser : Loser) (s : State) : Host.Outcome State Fault Refusal :=
  s.onDev fun d => d.lateFor loser.core loser.unit 4

/-- A corrected error in a row of a core's slice: counted, remembered for 24 hours, and the row is to be mapped out when it has given near.map_threshold of them (R191, R195). -/
def Dev.rowError (d : Dev) (c : CoreId) (row : Nat) : Dev :=
  let d := (d.bump 0x3000 8 1).updSlice (d.physKey c) fun x => { x with
    corrected := min (2 ^ 32 - 1) (x.corrected + 1)
    rowErrs := (row, d.time) :: x.rowErrs.filter fun e => decide (d.time < e.2 + 86400000000000) }
  let n := ((d.slice (d.physKey c)).rowErrs.filter fun e => e.1 = row).length
  if d.objD 0x3000 6 4 ≤ n then d.rowDue c row else d

/-- The meaning of ECC_WRITEBACK (R78, R188, R191): a corrected word is written back and counted: place 0 a home bank, 1 a slice, with the row as die * 8192 + row, 2 the instruction store, 3 the switch-program store, 4 a command queue. -/
def execEccWriteback (c : CoreId) (place row : Nat) (s : State) : Host.Outcome State Fault Refusal :=
  s.onDev fun d =>
    match place with
    | 0 => d.bump 0x3001 1 1
    | 1 => d.rowError c row
    | n + 2 => d.updSlice (d.physKey c) fun x => { x with stores := vSet x.stores n (vGet x.stores n 0 + 1) }

/-- The meaning of NEAR_REFRESH (R194): the next internal bank is refreshed; the requester whose access waits for it loses `wait` late-arrival cycles, at most 228. -/
def execNearRefresh (loser : Loser) (wait : Nat) (s : State) : Host.Outcome State Fault Refusal :=
  s.onDev fun d =>
    (d.updSlice (d.physKey loser.core) fun x => { x with refresh := (x.refresh + 1) % 16 }).lateFor loser.core loser.unit (min wait 228)

/-- The linear part of CRC-64 over a block from the first of some differing bytes on: what a check of the block changes by when bytes at rising offsets change by the masks given (R365). -/
def crcShift (flips : NMap Nat) : Nat :=
  match flips with
  | [] => 0
  | f :: _ => (((List.range (4096 - f.1)).map fun i => BitVec.ofNat 8 ((nmGet flips (f.1 + i)).getD 0)).foldl crcByte 0#64).toNat

/-- Bytes of a stored block change without its check word: what a failure of the store does, found when the block is read whole (R200, R201). -/
def LocalMem.corrupt (m : LocalMem) (near : Bool) (blk : Nat) (flips : NMap Nat) : LocalMem :=
  let hit (b : Mem) : Mem := flips.foldl (fun b f =>
    if f.1 < 4096 then memSet b (blk * 4096 + f.1) (memGet b (blk * 4096 + f.1) ^^^ BitVec.ofNat 8 f.2) else b) b
  let chk (l : NMap Nat) : NMap Nat :=
    let v := (nmGet l blk).getD 0 ^^^ crcShift flips
    if v = 0 then nmErase l blk else nmSet l blk v
  if near then { m with near := hit m.near, chkNear := chk m.chkNear } else { m with home := hit m.home, chkHome := chk m.chkHome }

/-- Whether a block agrees with its check word (R200, R201). -/
def LocalMem.agrees (m : LocalMem) (near : Bool) (blk : Nat) : Bool :=
  (nmGet (if near then m.chkNear else m.chkHome) blk).getD 0 = 0

/-- The verifier reads the oldest listed block whole and takes it from the set: an uncorrectable word in it, or a difference from its check word, stops the core with BLOCK_CHECK_FAIL against the instruction or command that listed it (R189, R201, R202). -/
def Dev.verifyBlock (d : Dev) (c : CoreId) (flips : NMap Nat) : Dev :=
  match (d.arch c).verify with
  | [] => d
  | v :: rest =>
    let o := coreOfKey (v.bank / 2)
    let near := v.bank % 2 = 1
    let d := d.updArch c fun a => { a with verify := rest }
    let d := if flips.isEmpty then d else d.updCore o fun k => { k with mem := k.mem.corrupt near v.blk flips }
    let d := d.bump 0x3000 0xB 1
    let m := (d.core o).mem
    match (if near then m.badNear else m.badHome).find? fun q => q / 256 = v.blk with
    | some q => (d.bump 0x3000 0xC 1).badWord c (if near then .near o (nearRow (16 * q)) else .home) v.unit v.sb v.pc v.gear
    | none =>
      if m.agrees near v.blk then
        d.updArch c fun a => { a with verified := (v.bank, v.blk, d.writesOf (v.bank, v.blk)) :: a.verified }
      else
        let d := (d.bump 0x3000 0xC 1).stop c cBlockCheckFail v.unit v.sb v.pc v.gear 0 0
        if near then d.updCore c fun k => k.markSuspect 2 else d

/-- The meaning of VERIFY_BLOCK (R201, R202); `flips` are the bytes of the block that the store has changed since they were written, by rising offset, with the bits that changed: the model has no other cause of a disagreement (log entry 97). -/
def execVerifyBlock (c : CoreId) (flips : NMap Nat) (s : State) : Host.Outcome State Fault Refusal :=
  s.onDev fun d => d.verifyBlock c flips

end Sys2Proof.Machine
end

