-- ==== Sys2Proof/Machine/Frame.lean ====
section
/-! DEFINITION. Sending on Alaosh links: routes, frames, credits and the replay buffer (R428 to R430, R437 to R445). -/

namespace Sys2Proof.Machine

/-! ### Banks of single objects (R497) -/

/-- Key of the bank of an Epoch-class object that is not current. -/
def nkey (index sub : Nat) : Nat := 2 ^ 24 + okey index sub

/-- The Epoch-class objects that change places with the mesh tables: route.self, route.coord and link.N.dim (R462), with their defaults. -/
def bankedObjs : List (Nat × Nat × Nat) :=
  (0x2A01, 1, 0xFFFF) :: (0x2A01, 2, 0) :: (List.range 64).map fun n => (0x2B00 + n, 6, 7)

/-- Exchanges the banks of these objects. -/
def swapBanks (objs : NMap Nat) : NMap Nat :=
  bankedObjs.foldl (fun m o =>
    let cur := (nmGet objs (okey o.1 o.2.1)).getD o.2.2
    let next := (nmGet objs (nkey o.1 o.2.1)).getD o.2.2
    if cur = next then m else nmSet (nmSet m (okey o.1 o.2.1) next) (nkey o.1 o.2.1) cur) objs

/-! ### Links and routes (R39, R423, R437, R438) -/

/-- State of a link beside its objects. -/
def Dev.link (d : Dev) (n : Nat) : LinkSt := (nmGet d.links n).getD clearLink

/-- Changes a link. -/
def Dev.updLink (d : Dev) (n : Nat) (f : LinkSt → LinkSt) : Dev := { d with links := nmSet d.links n (f (d.link n)) }

/-- link.N.state: 0 DOWN, 1 TRAIN, 2 IDENT, 3 MGMT_ONLY, 4 ACTIVE, 5 FENCED (R462). -/
def Dev.linkState (d : Dev) (n : Nat) : Nat := d.objD (0x2B00 + n) 1 0

/-- Links that do not exist, and links 32 to 63 of a BX350, which stay DOWN (R39). -/
def Dev.linkAbsent (d : Dev) (n : Nat) : Bool := decide (64 ≤ n) || (d.sec.fuses.grade = 3 && decide (32 ≤ n))

/-- Number of the device in force (R437). -/
def Dev.self (d : Dev) : Nat := d.objD 0x2A01 1 0xFFFF

/-- Membership epoch (R448). -/
def Dev.epoch (d : Dev) : Nat := d.objD 0x6200 1 0

/-- Whether a device is a member (R447). -/
def Dev.isMember (d : Dev) (dev : Nat) : Bool := bit (d.objD 0x6200 6 0) dev

/-- Whether an order has expelled a device (R449). -/
def Dev.expelled (d : Dev) (dev : Nat) : Bool := d.expels.contains dev

/-- Device-route-table entry in the bank that an epoch bit selects; reset value 7 (R438). -/
def Dev.routeEntry (d : Dev) (epoch dev : Nat) : Nat :=
  (nmGet (if epoch = d.mesh.epoch then d.mesh.routeCur else d.mesh.routeNext) dev).getD 7

/-- The links of a dimension and direction in one of some states, in ascending index (R438). -/
def Dev.linkGroup (d : Dev) (states : List Nat) (dim dir : Nat) : List Nat :=
  (List.range 64).filter fun n => states.contains (d.linkState n) && d.objD (0x2B00 + n) 6 7 = dim + 8 * dir

/-- The link at a position of the group that a route entry names; none when the entry is invalid, unreachable or names an empty group (R438). -/
def Dev.linkAt (d : Dev) (states : List Nat) (epoch dev pos : Nat) : Option Nat :=
  let e := d.routeEntry epoch dev
  let g := d.linkGroup states (bits e 2 0) (bits e 3 3)
  if !bit e 5 || decide (6 ≤ bits e 2 0) || g.isEmpty then none else some (g.getD (pos % g.length) 0)

/-- The link by which a packet for another device leaves (R438). -/
def Dev.linkFor (d : Dev) (epoch dev sx sy dx dy : Nat) : Option Nat :=
  d.linkAt [4] epoch dev (sx + 60 * sy + dx + 60 * dy)

/-- Sub-channel on the next hop: 1 where the entry crosses a dateline or a dateline of the same dimension has been crossed (R438). -/
def Dev.subChannel (d : Dev) (epoch dev inDim inSub : Nat) : Nat :=
  let e := d.routeEntry epoch dev
  if bit e 4 then 1 else if bits e 2 0 = inDim then inSub else 0

/-- Whether a link in a state carries a channel (R423). -/
def carries (state vc : Nat) : Bool := state = 4 || ((state = 3 || state = 5) && vc = 2)

/-! ### Frames (R428 to R430) -/

/-- A frame header of this device. -/
def Dev.frameHdr (d : Dev) (kind vc sub : Nat) : FrameHdr :=
  { version := 0x10, kind := kind, vc := vc, sub := sub, released := false, flits := 0, seq := 0, ack := 0, epoch := d.epoch,
    srcDev := d.self, srcCtx := 0, dstCtx := 0, step := 0, relIdx := 0, credit := 0, creditVc := 0, creditSub := 0,
    poison := 0, aux := 0, crcOk := true }

/-- Index of a channel and sub-channel among the credits. -/
def chanIdx (vc sub : Nat) : Nat := 2 * vc + sub

/-- Whether a link can send a frame now: the window has room and the channel a credit (R429, R430). -/
def LinkSt.canSend (l : LinkSt) (f : LinkFrame) : Bool :=
  decide (l.held.length < 512) && vGet l.credits (chanIdx f.hdr.vc f.hdr.sub) 0 != 0

/-- Sends a frame in sequence: it is kept for replay and acknowledges what has been received (R429). -/
def Dev.sendNow (d : Dev) (n : Nat) (f : LinkFrame) : Dev :=
  let l := d.link n
  let f := { f with hdr := { f.hdr with seq := l.txSeq, ack := (l.rxSeq + 4095) % 4096 } }
  let i := chanIdx f.hdr.vc f.hdr.sub
  (d.updLink n fun l => { l with
    txSeq := (l.txSeq + 1) % 4096, held := l.held ++ [f], unackedRx := 0
    credits := vSet l.credits i (vGet l.credits i 0 - 1) }).emit (.frame n f)

/-- Sends a frame, or keeps it until the window and the credits allow; frames of one channel keep their order (R429, R430). -/
def Dev.linkSend (d : Dev) (n : Nat) (f : LinkFrame) : Dev :=
  let l := d.link n
  let ahead := l.waiting.any fun g => g.hdr.vc = f.hdr.vc && g.hdr.sub = f.hdr.sub
  if l.canSend f && !ahead then d.sendNow n f else d.updLink n fun l => { l with waiting := l.waiting ++ [f] }

/-- Sends what waited on a link, as far as it can go now. -/
def Dev.linkPump (d : Dev) (n : Nat) : Dev :=
  let l := (d.link n).waiting
  l.foldl (fun d f => d.linkSend n f) (d.updLink n fun l => { l with waiting := [] })

/-- A frame outside the sequence: ack, nak, credit or idle. -/
def Dev.linkControl (d : Dev) (n : Nat) (h : FrameHdr) : Dev :=
  let l := d.link n
  (d.updLink n fun l => { l with unackedRx := 0 }).emit (.frame n ⟨{ h with seq := l.rxSeq, ack := (l.rxSeq + 4095) % 4096 }, .empty, 0⟩)

/-- Steps of a context in which its packets cross a degraded link carry no cycle-exact promise (R425). -/
def Dev.crosses (d : Dev) (link ctx : Nat) : Dev :=
  if d.objD (0x2B00 + link) 2 0 = 4 then d
  else d.updCtx ctx fun x => { x with regions := x.regions.map fun r => { r with degraded := true } }

/-! ### Traffic for other devices (R438 to R445) -/

/-- Position of a released payload among the links of a group (R438). -/
def RelBody.position : RelBody → Nat
  | .msg x y m => m.hdr.srcX + 60 * m.hdr.srcY + x + 60 * y
  | .credit dst src .. => src.x + 60 * src.y + dst.x + 60 * dst.y
  | .granule .. => 0

/-- Transfer check of a released granule (R443). -/
def RelBody.check : RelBody → Nat
  | .granule _ _ data => crc64 data
  | _ => 0

/-- Sends a released payload towards its device by the route in force; with no route it is discarded at the station and counted (R438, R440). -/
def Dev.sendReleased (d : Dev) (r : Released) : Dev :=
  match d.linkAt [4] d.mesh.epoch r.dev r.body.position with
  | none => d.bump 0x2A01 5 1
  | some n =>
    let h := { d.frameHdr 0 0 (d.subChannel d.mesh.epoch r.dev 7 0) with
      released := true, srcCtx := r.ctx, dstCtx := r.rctx, step := r.step, relIdx := r.idx }
    (d.crosses n r.ctx).linkSend n ⟨h, .released r.body r.body.check, 0⟩

/-- Sends management traffic on virtual channel 2 along the route table (R439, R445). -/
def Dev.sendMgmt (d : Dev) (dev : Nat) (kind srcCtx dstCtx step relIdx : Nat) (p : LinkPay) : Dev :=
  match d.linkAt [3, 4, 5] d.mesh.epoch dev 0 with
  | none => d.bump 0x2A01 5 1
  | some n => d.linkSend n ⟨{ d.frameHdr kind 2 0 with srcCtx := srcCtx, dstCtx := dstCtx, step := step, relIdx := relIdx }, p, 0⟩

/-- Sends a far read on the request channel, or its reply on the response channel, over the ACTIVE links of the route (R439, R444). -/
def Dev.sendFar (d : Dev) (vc dev srcCtx dstCtx : Nat) (p : LinkPay) : Dev :=
  match d.linkAt [4] d.mesh.epoch dev 0 with
  | none => d.bump 0x2A01 5 1
  | some n => (d.crosses n srcCtx).linkSend n
      ⟨{ d.frameHdr 0 vc (d.subChannel d.mesh.epoch dev 7 0) with srcCtx := srcCtx, dstCtx := dstCtx }, p, 0⟩

/-- Acknowledges a released payload end to end (R440). -/
def Dev.sendRelAck (d : Dev) (dev srcCtx dstCtx step idx : Nat) : Dev :=
  match d.linkAt [4] d.mesh.epoch dev 0 with
  | none => d
  | some n => d.linkSend n ⟨{ d.frameHdr 0 1 0 with srcCtx := srcCtx, dstCtx := dstCtx, step := step, relIdx := idx }, .relAck, 0⟩

/-- Passes a packet of the mesh on to the link that its entry names (R438). -/
def Dev.sendPacket (d : Dev) (n : Nat) (p : Packet) (inDim inSub : Nat) : Dev :=
  let sub := d.subChannel p.head.epoch p.head.dstDev inDim inSub
  d.linkSend n ⟨{ d.frameHdr 0 p.head.vc sub with flits := p.units.length + 1, poison := p.head.poison }, .packet p, 0⟩

end Sys2Proof.Machine
end

