-- ==== Sys2Proof/Machine/Packet.lean ====
section
/-! DEFINITION. The packet network: its stations, routers, multicast trees and epochs (R15, R16, R234 to R247). -/

namespace Sys2Proof.Machine

/-! ### Ports and hops (R213, R238) -/

/-- The core across a router port, and the input port of its router that faces back. -/
def acrossPort (c : CoreId) (port : Nat) : CoreId × Nat :=
  match port with
  | 0 => (⟨c.x, c.y - 1⟩, 2)
  | 1 => (⟨c.x + 1, c.y⟩, 3)
  | 2 => (⟨c.x, c.y + 1⟩, 0)
  | _ => (⟨c.x - 1, c.y⟩, 1)

/-- The first hop in dimension order: x, then y, then local (R238); ports as in R213. -/
def hopPort (c : CoreId) (x y : Nat) : Nat :=
  if c.x < x then 1 else if x < c.x then 3 else if c.y < y then 2 else if y < c.y then 0 else 4

/-! ### Ring ports and stations (R15, R16, R246) -/

/-- Side of the die that a ring port lies on, 0 north, 1 east, 2 south, 3 west, and the physical core whose router serves it: 64 ports a side, by px or by py (R15; PRESUMED, log entry 109). -/
def ringFace (port : Nat) : Nat × (Nat × Nat) :=
  match port / 64 with
  | 0 => (0, (port % 64, 0))
  | 1 => (1, (63, port % 64))
  | 2 => (2, (port % 64, 63))
  | _ => (3, (0, port % 64))

/-- The outward face of a router on a side of the die: ports 5 north, 6 east, 7 south, 8 west, so that the two faces of a corner router are told apart (R15, R213). -/
def outwardPort (side : Nat) : Nat := 5 + side

/-- Physical rows that a set of row maps leaves in use (R30). -/
def mapRows (m : Vector Nat 32) : List Nat := (List.range 32).filter fun r => vGet m r 0 != 0xFFFFFFFF

/-- Logical cell column whose physical cell lies nearest to a column, the lower one of two as near (R16; log entry 109). -/
def nearestColumn (excl pcx : Nat) : Nat :=
  let gap (cx : Nat) : Nat := max (mapColumn excl cx) pcx - min (mapColumn excl cx) pcx
  (List.range 30).foldl (fun best cx => if gap cx < gap best then cx else best) 0

/-- Physical row through which a port on a row is reached, and the row of cores within it: its own, or across a retired row its neighbour's (R16; log entry 109). -/
def reachRow (m : Vector Nat 32) (py : Nat) : Nat × Nat :=
  if vGet m (py / 2) 0 != 0xFFFFFFFF then (py / 2, py % 2)
  else if py / 2 = 0 then (1, 0) else (py / 2 - 1, 1)

/-- The logical core by which a ring port is reached under row maps (R16, R246). -/
def viaOf (m : Vector Nat 32) (port : Nat) : Nat × Nat :=
  let p := (ringFace port).2
  let r := reachRow m p.2
  let cy := ((mapRows m).findIdx? (· = r.1)).getD 0
  (2 * nearestColumn (vGet m r.1 0) (p.1 / 2) + p.1 % 2, 2 * cy + r.2)

/-- A station entry as firmware computes it for row maps (R246). -/
def viaEntry (m : Vector Nat 32) (e : Nat) : Nat :=
  let v := viaOf m (bits e 7 0)
  if bit e 24 then pack [(0, bits e 7 0), (8, v.1), (16, v.2), (24, 1)] else e

/-- A station table as firmware computes it for row maps (R16, R246). -/
def rerouted (m : Vector Nat 32) (t : NMap Nat) : NMap Nat := t.map fun p => (p.1, viaEntry m p.2)

/-- Station-table entry in the bank that an epoch bit selects (R244, R246). -/
def Dev.station (d : Dev) (epoch n : Nat) : Nat :=
  (nmGet (if epoch = d.mesh.epoch then d.mesh.stationCur else d.mesh.stationNext) n).getD 0

/-- Whether a station exists (R246, R247). -/
def Dev.stationValid (d : Dev) (epoch n : Nat) : Bool := decide (n < 255) && bit (d.station epoch n) 24

/-- Row maps of the bank that an epoch bit selects: the skip links and shifters that a flit of that bit takes (R244). -/
def Dev.bankMap (d : Dev) (epoch : Nat) : Vector Nat 32 := if epoch = d.mesh.epoch then d.rowMap else d.mesh.otherMap

/-- Physical core whose router carries a logical core's packets of an epoch bit (R17, R244). -/
def Dev.routerAt (d : Dev) (epoch : Nat) (c : CoreId) : Nat × Nat :=
  let m := d.bankMap epoch
  let r := (mapRows m).getD (c.y / 2) 0
  (mapColumn (vGet m r 0) (c.x / 2) * 2 + c.x % 2, r * 2 + c.y % 2)

/-- Ports towards a station through the perimeter core that its entry names, and there out of the face of its ring port (R15, R238). -/
def Dev.stationPorts (d : Dev) (c : CoreId) (epoch n : Nat) : List Nat :=
  let e := d.station epoch n
  let p := hopPort c (bits e 15 8) (bits e 23 16)
  [if p = 4 then outwardPort (ringFace (bits e 7 0)).1 else p]

/-! ### Routes (R237, R238, R241) -/

/-- Branches of a multicast packet at a router (R241): along the source row, then north and south at each column of the rectangle. -/
def mcastPorts (c : CoreId) (h : PktHead) : List Nat :=
  let inCol := decide (h.dstX ≤ c.x) && decide (c.x ≤ h.x1)
  let inRow := decide (h.dstY ≤ c.y) && decide (c.y ≤ h.y1)
  let onRow := decide (c.y = h.srcY)
  let east := onRow && decide (c.x < h.x1) && decide (h.srcX ≤ c.x)
  let west := onRow && decide (h.dstX < c.x) && decide (c.x ≤ h.srcX)
  let north := inCol && decide (c.y ≤ h.srcY) && decide (h.dstY < c.y)
  let south := inCol && decide (h.srcY ≤ c.y) && decide (c.y < h.y1)
  (if north then [0] else []) ++ (if east then [1] else []) ++ (if south then [2] else []) ++ (if west then [3] else [])
    ++ (if inCol && inRow then [4] else [])

/-- The faults of R237, with the code of the event each is recorded under: a version, a reserved value, or another argument (log entry 21). -/
def Dev.malformed (d : Dev) (h : PktHead) (actual : Nat) : Option Code :=
  let inShape (x y : Nat) : Bool := decide (x < 60) && decide (y < d.rows)
  let badDest :=
    if h.mcast then !(inShape h.dstX h.dstY && inShape h.x1 h.y1)
    else if h.dkind = 0 then !inShape h.dstX h.dstY
    else if h.dkind = 1 then decide (256 ≤ h.dstDev) || !d.stationValid h.epoch (h.dstDev % 256)
    else false
  firstFail [
    (h.version / 16 != 1, cUnsupportedVersion),
    (h.dkind = 3 || h.vc = 3 || h.poison = 3, cReservedNonzero),
    (h.mcast && h.dkind != 0, cBadArgument),
    (decide (16 < h.body) || actual != h.body + 1, cBadArgument),
    (badDest, cBadArgument)]

/-- Ports by which a well-formed packet leaves a router (R238, R241). `Config.linkStation` is the station of a link, which the specification does not number. -/
def Dev.packetPorts (d : Dev) (c : CoreId) (h : PktHead) : List Nat :=
  if h.mcast then mcastPorts c h
  else if h.dkind = 0 then [hopPort c h.dstX h.dstY]
  else if h.dkind = 1 then d.stationPorts c h.epoch (h.dstDev % 256)
  else
    match d.linkFor h.epoch h.dstDev h.srcX h.srcY h.dstX h.dstY with
    | some n => d.stationPorts c h.epoch (Config.linkStation n)
    | none => []

/-! ### Packets in flight (R236, R241, R245) -/

/-- Cores that a packet is delivered to: for a multicast packet every core of its rectangle (R235, R241). -/
def headDests (h : PktHead) : List Nat :=
  if h.dkind != 0 then []
  else if h.mcast then
    (List.range (h.y1 + 1 - h.dstY)).flatMap fun j => (List.range (h.x1 + 1 - h.dstX)).map fun i =>
      ckey ⟨h.dstX + i, h.dstY + j⟩
  else [ckey ⟨h.dstX, h.dstY⟩]

/-- A packet with its head flit and its body flits. -/
def pktOf (h : PktHead) (units : List QWord) : Packet := ⟨h, units, headDests h⟩

/-- Packets put on the network from a core (R236, R244). -/
def Dev.putPackets (d : Dev) (c : CoreId) (ps : List Packet) : Dev :=
  let d := ps.foldl (fun d p => d.emit (.packet c p)) d
  { d with mesh := { d.mesh with transit := d.mesh.transit ++ ps } }

/-- The packet in flight that bears a head flit. -/
def Dev.inFlight (d : Dev) (h : PktHead) : Option Packet := d.mesh.transit.find? fun p => p.head = h

/-- Whether two packets come from one source unit. -/
def sameSource (h g : PktHead) : Bool := h.srcX = g.srcX && h.srcY = g.srcY && h.srcDev = g.srcDev

/-! ### The packet routers (R239, R241) -/

/-- The packet router of a core. -/
def Dev.pktRouter (d : Dev) (c : CoreId) : PktRouter := (nmGet d.mesh.routers (ckey c)).getD clearPktRouter

/-- Changes a packet router. -/
def Dev.updPktRouter (d : Dev) (c : CoreId) (f : PktRouter → PktRouter) : Dev :=
  { d with mesh := { d.mesh with routers := nmSet d.mesh.routers (ckey c) (f (d.pktRouter c)) } }

/-- Input ports whose packets hold output channels. -/
def PktRouter.owners (r : PktRouter) : NMap Nat :=
  (r.held.filter (·.granted)).foldl (fun m x => x.outs.foldl (fun m o => nmSet m (o * 4 + x.head.vc) x.port) m) []

/-- Flit buffers in use downstream of an output's virtual channel, of its 4: by packets on their way over the link and by those at the port it leads to (R239). -/
def Dev.buffersUsed (d : Dev) (c : CoreId) (o vc : Nat) : Nat :=
  let n := acrossPort c o
  let there := (d.pktRouter n.1).held.filter fun x => x.port = n.2 && x.head.vc = vc
  let way := (d.pktRouter c).held.filter fun x => x.granted && x.outs.contains o && x.head.vc = vc
  min 4 ((there ++ way).map fun x => x.head.body + 1).sum

/-- The packet routers with packets that are in flight only, their output channels held by the packets granted to them, and the buffers in use downstream (R239). -/
def Dev.routersTidy (d : Dev) : Dev :=
  let live (x : PktAt) : Bool := d.mesh.transit.any fun p => p.head = x.head
  let owned (r : PktRouter) : PktRouter := { r with owner := r.owners }
  let d := { d with mesh := { d.mesh with routers := d.mesh.routers.map fun (p : Nat × PktRouter) =>
    (p.1, owned { p.2 with held := p.2.held.filter live }) } }
  let used (k : Nat) : NMap Nat := ((List.range 4).flatMap fun o => (List.range 3).map fun vc =>
    (o * 4 + vc, d.buffersUsed (coreOfKey k) o vc)).filter fun e => e.2 != 0
  { d with mesh := { d.mesh with routers := (d.mesh.routers.map fun (p : Nat × PktRouter) => (p.1, { p.2 with used := used p.1 })).filter fun p => p.2 != clearPktRouter } }

/-- Whether an output's virtual channel can take a packet: none holds it, and it has a credit (R239). -/
def PktRouter.free (r : PktRouter) (o vc : Nat) : Bool :=
  (nmGet r.owner (o * 4 + vc)).isNone && decide ((nmGet r.used (o * 4 + vc)).getD 0 < 4)

/-- Packets at the head of their input channels that wait for outputs which are all free (R239, R241). -/
def PktRouter.ready (r : PktRouter) : List PktAt :=
  r.held.filter fun x => !x.granted && x.outs.all (fun o => r.free o x.head.vc)
    && (r.held.find? fun y => y.port = x.port && y.head.vc = x.head.vc) = some x

/-- Places that an input port is behind the one granted last, in round-robin order (R239). -/
def PktRouter.turn (r : PktRouter) (x : PktAt) : Nat :=
  match x.outs with
  | o :: _ => (x.port + 8 - (nmGet r.lastIn (o * 4 + x.head.vc)).getD 8) % 9
  | [] => 0

/-- The packet granted next: the one whose input's turn comes first. -/
def PktRouter.pick (r : PktRouter) : Option PktAt :=
  match r.ready with
  | [] => none
  | x :: rest => some (rest.foldl (fun b y => if r.turn y < r.turn b then y else b) x)

/-- A packet is granted its outputs, all in one cycle (R239, R241). -/
def PktRouter.grant (r : PktRouter) (x : PktAt) : PktRouter :=
  { r with
    held := r.held.map fun y => if y = x then { y with granted := true } else y
    lastIn := x.outs.foldl (fun m o => nmSet m (o * 4 + x.head.vc) x.port) r.lastIn
    lastVc := x.outs.foldl (fun m o => nmSet m o x.head.vc) r.lastVc }

/-- A station takes a packet at its outward face: a packet for another device goes to its link, one with a poisoned flit is discarded and counted (R238, R243). -/
def Dev.stationTakes (d : Dev) (h : PktHead) : Dev :=
  match d.inFlight h with
  | none => d
  | some p =>
    let d := { d with mesh := { d.mesh with transit := d.mesh.transit.erase p } }
    if h.dkind = 2 then
      match d.linkFor h.epoch h.dstDev h.srcX h.srcY h.dstX h.dstY with
      | some n => d.sendPacket n p 7 0
      | none => (d.bump 0x2A01 5 1).emit (.discardPacket h)
    else if h.poison ≠ 0 then (d.bump 0x4200 9 1).emit (.discardPacket h)
    else d

/-- Grants at one router, `fuel` of them at most. -/
def Dev.routerGrants (c : CoreId) : Nat → Dev → Dev
  | 0, d => d
  | fuel + 1, d =>
    match (d.pktRouter c).pick with
    | none => d
    | some x =>
      let d := (d.updPktRouter c fun r => r.grant x).emit (.forward c (d.routerAt x.head.epoch c) x.outs x.head)
      let d := if x.outs.any fun o => decide (5 ≤ o) then d.stationTakes x.head else d
      Dev.routerGrants c fuel d.routersTidy

/-- The packet routers go on as far as their channels and credits allow. -/
def Dev.routersGo (d : Dev) : Dev :=
  let d := d.routersTidy
  (d.mesh.routers.map Prod.fst).foldl (fun d k => Dev.routerGrants (coreOfKey k) 27 d) d

/-- A packet has left a router by an output, whose channel and buffers are free again (R239). -/
def Dev.leaves (d : Dev) (c : CoreId) (o : Nat) (h : PktHead) : Dev :=
  d.updPktRouter c fun r => { r with held := (r.held.map fun x =>
    if x.head = h && x.granted then { x with outs := x.outs.erase o } else x).filter fun x => !x.outs.isEmpty }

/-- A head flit's poison mark, wherever the packet stands (R243). -/
def Dev.remark (d : Dev) (h h' : PktHead) : Dev :=
  if h' = h then d
  else { d with mesh := { d.mesh with
    transit := d.mesh.transit.map fun p => if p.head = h then { p with head := h' } else p
    routers := d.mesh.routers.map fun p => (p.1, { p.2 with held := p.2.held.map fun x => if x.head = h then { x with head := h' } else x }) } }

/-- A packet of the network reaches an input port of a router: it has left the router behind that port and waits for its outputs here (R238, R239, R241). -/
def Dev.enterRouter (d : Dev) (c : CoreId) (port : Nat) (h : PktHead) (outs : List Nat) : Dev :=
  let d := if port < 4 then d.leaves (acrossPort c port).1 (acrossPort c port).2 h else d
  (d.updPktRouter c fun r => { r with held := r.held ++ [⟨port, h, outs, false⟩] }).routersGo

/-- A packet reaches a router by an input port (R237 to R243). -/
def Dev.packetArrival (d : Dev) (c : CoreId) (port : Nat) (h : PktHead) (actual : Nat) (ecc : Ecc) : Dev :=
  let gone (d : Dev) (h : PktHead) : Dev :=
    ({ d with mesh := { d.mesh with transit := d.mesh.transit.eraseP fun p => p.head = h } }.routersGo).emit (.discardPacket h)
  match d.malformed h actual with
  | some code => gone ((d.bump 0x4200 0xA 1).eventDev code 6 1 (pack [(0, h.srcX), (8, h.srcY), (16, h.srcDev)]) 0) h
  | none =>
    let h' := if ecc = .uncorrectable then { h with poison := 2 } else h
    let d := if ecc = .corrected then d.bump 0x4200 8 1 else d
    let d := d.remark h h'
    match d.packetPorts c h with
    | [] => if h.dkind = 2 then gone (d.bump 0x2A01 5 1) h' else d
    | ports =>
      if (d.inFlight h').isSome then d.enterRouter c port h' ports
      else d.emit (.forward c (d.routerAt h.epoch c) ports h')

/-- The meaning of ROUTER_PACKET_ARRIVAL: the router and its input port, the head flit, the flits that came, and what error correction found. -/
def execRouterPacketArrival (at_ : PktIn) (h : PktHead) (actual : Nat) (ecc : Ecc) (s : State) :
    Host.Outcome State Fault Refusal :=
  s.onDev fun d => d.packetArrival at_.core at_.port h actual ecc

/-! ### Delivery (R241, R242, R254) -/

/-- Whether a packet may be delivered at a core now: an ORDER packet only after every earlier packet from its source to that core (R242, R254). -/
def Dev.mayLand (d : Dev) (c : CoreId) (p : Packet) : Bool :=
  !p.head.order || (d.mesh.transit.takeWhile fun q => q.head != p.head).all fun q =>
    !(sameSource q.head p.head && q.dests.contains (ckey c))

/-- The completion flit of a multicast message, on the response channel to its source: a message unit, or for a load the context engine's station (R241, R279). -/
def completionOf (h : PktHead) : Packet :=
  let back := { h with vc := 1, poison := 0, order := false, mcast := false, body := 0, dstX := h.srcX, dstY := h.srcY, x1 := 0, y1 := 0,
                       pktIdx := 0, last := true }
  pktOf (if h.vc = 2 then { back with dkind := 1, dstDev := Config.engineStation } else back) []

/-- A packet is delivered at a core: that branch is done, and the last branch of a multicast message's last packet returns the completion flit (R239, R241). -/
def Dev.landed (d : Dev) (c : CoreId) (h : PktHead) : Dev :=
  match d.inFlight h with
  | none => d
  | some p =>
    let rest := p.dests.erase (ckey c)
    let transit := if rest.isEmpty then d.mesh.transit.erase p
      else d.mesh.transit.map fun q => if q = p then { q with dests := rest } else q
    let done := h.mcast && !(transit.any fun q => q.head.mcast && sameSource q.head h && q.head.msgTag = h.msgTag)
    let d := { d with mesh := { d.mesh with transit := transit } }.leaves c 4 h
    let d := if done then d.putPackets c [completionOf h] else d
    d.routersGo

/-! ### Epochs (R244, R245) -/

/-- Packets of the other epoch bit in flight (R245, R247). -/
def Dev.epochDrain (d : Dev) : Nat := (d.mesh.transit.filter fun p => p.head.epoch != d.mesh.epoch).length

/-- The epoch bit changes: the banks change places, and both serve the row maps in force (R244, R245). -/
def Dev.flip (d : Dev) : Dev :=
  { { d with objs := swapBanks d.objs } with mesh := { d.mesh with
      epoch := 1 - d.mesh.epoch, otherMap := d.rowMap
      stationCur := d.mesh.stationNext, stationNext := d.mesh.stationCur
      routeCur := d.mesh.routeNext, routeNext := d.mesh.routeCur } }

/-- A write to mesh.flip (R245, R247). -/
def Dev.meshFlip (d : Dev) (value : Nat) : Dev :=
  if value ≠ 1 then d.reply cBadArgument
  else if d.epochDrain ≠ 0 then d.reply cBusy
  else d.flip

/-- The meaning of MESH_FLIP. -/
def execMeshFlip (value : Nat) (s : State) : Host.Outcome State Fault Refusal := s.onDev fun d => d.meshFlip value

end Sys2Proof.Machine
end

