-- ==== Sys2Proof/Machine/Message.lean ====
section
/-! DEFINITION. The message unit: SEND, RECV.ACK, rings, credits, delivery, the broom and the combiner (R125 to R127, R159 to R163, R248 to R274, R289 to R293). -/

namespace Sys2Proof.Machine

/-! ### Headers and handler tables (R253, R255) -/

/-- Layout of a message header (R253). -/
def hdrWord (h : MsgHdr) : QWord :=
  BitVec.ofNat 128 (pack [(0, h.handler), (8, h.gear), (10, b2n h.order), (11, h.length), (20, h.queue),
    (24, h.incarnation), (32, h.srcX), (40, h.srcY), (48, h.srcDev), (64, h.sequence % 2 ^ 32), (96, h.user.toNat)])

/-- Reading of a message header (R253). -/
def hdrOf (q : QWord) : MsgHdr :=
  let n := q.toNat
  { handler := bits n 7 0, gear := bits n 9 8, order := bit n 10, length := bits n 19 11, queue := bits n 23 20,
    incarnation := bits n 31 24, srcX := bits n 39 32, srcY := bits n 47 40, srcDev := bits n 63 48,
    sequence := bits n 95 64, user := BitVec.ofNat 32 (bits n 127 96) }

/-- Handler-table entry of a slot: kind, tree and ring mask (R255). -/
def Slot.handler (s : Slot) (i : Nat) : Nat × Nat × Nat :=
  let n := leNat (memRead (vGet s.parts 4 []) (4 * i) 4)
  (bits n 3 0, bits n 9 4, bits n 31 16)

/-- Capacity of a ring in 16-byte units (R248). -/
def ringUnits (sizeCode : Nat) : Nat := 16 * 2 ^ sizeCode

/-- Ring q. -/
def MsgUnit.ring (m : MsgUnit) (q : Nat) : Ring := vGet m.rings q clearRing

/-- Changes a ring. -/
def MsgUnit.updRing (m : MsgUnit) (q : Nat) (f : Ring → Ring) : MsgUnit :=
  { m with rings := vSet m.rings q (f (m.ring q)) }

/-- The sender named in a header. -/
def MsgHdr_src (h : MsgHdr) : Sender := ⟨h.srcX, h.srcY, h.srcDev⟩

/-- Whether another core belongs to the same region of the same context. -/
def Dev.sameRegion (d : Dev) (c e : CoreId) : Bool :=
  (d.core c).ctx.isSome && (d.core e).ctx = (d.core c).ctx && (d.core e).region = (d.core c).region

/-! ### Issue of SEND and RECV.ACK (R125 to R127) -/

/-- Checks of SEND at issue (R92, R125, R126). -/
def sendCheck (a : Arch) (f : SendF) : Option Code :=
  let r := a.resolve (a.regs.aGet f.aP) false [0, 1] 16 0 ((f.length - 1) * 16)
  if 64 ≤ f.handler then some cReservedNonzero
  else if 256 < f.length then some cLengthTooLarge
  else orderCodes [whenBad (f.length = 0 || f.handler = 0) cBadArgument,
    if f.length ≤ 1 then none else resCode r]

/-- The meaning of SEND (R125). -/
def execSend (c : CoreId) (g : Common) (f : SendF) (s : State) : Host.Outcome State Fault Refusal :=
  s.onDev fun d => d.present c g
    ⟨3, false, [sId f.sDest, sId f.sUser] ++ (if f.length ≤ 1 then [] else [aId f.aP])⟩
    { wait := queueWait c 2
      check := fun d _ => if 5 ≤ g.sb then some cReservedNonzero else sendCheck (d.arch c) f
      effect := fun d w => d.updArch c fun a =>
        let r := if f.length ≤ 1 then none
          else optRes (a.resolve (a.regs.aGet f.aP) false [0, 1] 16 0 ((f.length - 1) * 16))
        a.accept 2 g.sb (.send f (a.regs.sGet f.sDest) (a.regs.sGet f.sUser) a.stat.gear r) w.cyc }

/-- The meaning of RECV.ACK (R127). -/
def execRecvAck (c : CoreId) (g : Common) (queue nM1 : Nat) (s : State) : Host.Outcome State Fault Refusal :=
  s.onDev fun d => d.present c g ⟨3, false, []⟩
    { wait := queueWait c 2
      check := fun _ _ => if 5 ≤ g.sb then some cReservedNonzero else none
      effect := fun d w => d.updArch c fun a => a.accept 2 g.sb (.recvAck queue nM1) w.cyc }

/-! ### Sending (R261 to R264, R342) -/

/-- Splits the units of a message into packets of up to 16 (R236). -/
def packetsOf (head : PktHead) (n : Nat) : Nat → Nat → List QWord → List Packet
  | 0, _, _ => []
  | fuel + 1, i, us =>
    match us with
    | [] => []
    | _ => pktOf { head with body := (us.take 16).length, pktIdx := i, last := decide (us.length ≤ 16) } (us.take 16)
        :: packetsOf head n fuel (i + 1) (us.drop 16)

/-- Head flit of a message's packets (R235). -/
def msgHead (c : CoreId) (epoch tag : Nat) (dev x y : Nat) (order mcast : Bool) (x1 y1 : Nat) : PktHead :=
  { version := 0x10, vc := 0, poison := 0, epoch := epoch, dkind := if dev = 0xFFFF then 0 else 2, order := order,
    mcast := mcast, body := 0, dstX := x, dstY := y, x1 := x1, y1 := y1, dstDev := if dev = 0xFFFF then 0 else dev,
    srcX := c.x, srcY := c.y, srcDev := 0xFFFF, msgTag := tag, pktIdx := 0, last := false }

/-- Whether a core's message unit holds an ORDER message: a packet that it sent under the other epoch bit is in flight, or a multicast message awaits its completion flit (R242). -/
def Dev.orderHolds (d : Dev) (c : CoreId) : Bool :=
  !(d.arch c).msg.mcastWait.isEmpty || d.mesh.transit.any fun p =>
    p.head.srcX = c.x && p.head.srcY = c.y && p.head.srcDev = 0xFFFF && p.head.epoch != d.mesh.epoch

/-- Puts a message on the packet network from a core (R236, R244). -/
def Dev.inject (d : Dev) (c : CoreId) (m : Msg) (dev x y : Nat) (mcast : Bool) (x1 y1 : Nat) : Dev :=
  let tag := (d.arch c).msg.tag
  let ps := packetsOf (msgHead c d.mesh.epoch tag dev x y m.hdr.order mcast x1 y1) m.hdr.length 17 0
    (hdrWord m.hdr :: m.body)
  let n := if mcast then (x1 + 1 - x) * (y1 + 1 - y) else 1
  let d := d.updMsg c fun u => { u with
    tag := (tag + 1) % 256, sentIn := u.sentIn + n, mcastWait := if mcast then u.mcastWait ++ [tag] else u.mcastWait }
  d.putPackets c ps

/-- src_dev of a message to a device: the sender's number, or 0xFFFF for a local one (R253). -/
def Dev.srcDevTo (d : Dev) (dev : Nat) : Nat := if dev = 0xFFFF then 0xFFFF else d.self

/-- Sends a message: within the region onto the network, otherwise into the message hold area (R342). -/
def Dev.sendMsg (d : Dev) (c : CoreId) (m : Msg) (dev x y : Nat) (mcast : Bool) (x1 y1 : Nat) : Dev :=
  let d := d.bump 0x4300 1 1
  if dev = 0xFFFF ∧ d.sameRegion c ⟨x, y⟩ then d.inject c m dev x y mcast x1 y1
  else
    match (d.core c).ctx with
    | none => d
    | some n => d.updCtx n fun t => { t with msgHold := t.msgHold ++
        [⟨(d.core c).region, (d.arch c).stat.stepNo, x, y, dev, m, false, none, false⟩] }

/-- Puts a released or steered message on the packet network, outside the counts of R604 (R342, R375, R483). The packets of a message that no core of this device sent take their tag from its sequence number. -/
def Dev.sendHeld (d : Dev) (x y : Nat) (m : Msg) : Dev :=
  let c : CoreId := ⟨m.hdr.srcX, m.hdr.srcY⟩
  let foreign := m.hdr.srcX = 0xF0 || m.hdr.srcDev != 0xFFFF
  let tag := if foreign then m.hdr.sequence % 256 else (d.arch c).msg.tag
  let head := { msgHead c d.mesh.epoch tag 0xFFFF x y m.hdr.order false 0 0 with srcDev := m.hdr.srcDev }
  let d := if foreign then d else d.updMsg c fun u => { u with tag := (u.tag + 1) % 256 }
  d.putPackets c (packetsOf head m.hdr.length 17 0 (hdrWord m.hdr :: m.body))

/-- Whether a logical core belongs to a region of a context that runs on a stand-in or waits for one: releases into it wait (R382). -/
def Dev.standinAt (d : Dev) (n : Nat) (x y : Nat) : Bool :=
  (d.core ⟨x, y⟩).ctx = some n && ((d.rtOf ⟨x, y⟩).bind (·.replay)).any fun p => p.standin.isSome || p.waiting

/-- Whether a released message waits at its source for R242's sake. -/
def Dev.heldForOrder (d : Dev) (h : HeldMsg) : Bool :=
  h.msg.hdr.order && h.msg.hdr.srcX != 0xF0 && h.msg.hdr.srcDev = 0xFFFF && d.orderHolds ⟨h.msg.hdr.srcX, h.msg.hdr.srcY⟩

/-- Sends the released messages of a context that wait no longer: for a stand-in's decision, or for the order of an ORDER message (R242, R382). -/
def Dev.flushHeld (d : Dev) (n : Nat) : Dev :=
  let ready (d : Dev) (h : HeldMsg) : Bool := h.released && !h.sent && !d.standinAt n h.dstX h.dstY && !d.heldForOrder h
  let l := (d.ctx n).msgHold.filter (ready d)
  let d := if l.isEmpty then d
    else d.updCtx n fun x => { x with msgHold := x.msgHold.map fun h => if ready d h then { h with sent := true } else h }
  l.foldl (fun d h => d.sendHeld h.dstX h.dstY h.msg) d

/-- Sends the released messages that wait no longer, of every context. -/
def Dev.flushAll (d : Dev) : Dev := (d.ctxs.map Prod.fst).foldl Dev.flushHeld d

/-- Whether a channel of the gear in force is the one that a destination word and ring name (R263). -/
def Chan.names (k : Chan) (dest : Word) (queue : Nat) : Bool :=
  let n := dest.toNat
  k.inForce && k.queue = queue && k.dstX = bits n 7 0 && k.dstY = bits n 15 8 && k.dstDev = bits n 31 16

/-- Changes the channel that a destination word and ring name. -/
def MsgUnit.updChan (m : MsgUnit) (dest : Word) (queue : Nat) (f : Chan → Chan) : MsgUnit :=
  { m with chans := m.chans.map fun k => if k.names dest queue then f k else k }

/-- Units of one partial in part_fmt per row (R268). -/
def partUnits (fmt : Nat) : Nat := if fmt = 10 then 16 else if fmt = 9 then 4 else 2

/-- The tree record of a core, gear image and tree number (R159). -/
def Ctx.tree? (x : Ctx) (c : CoreId) (image tree : Nat) : Option TreeRec :=
  x.image.trees.find? fun t => t.tree = tree && t.image = image && decide (t.rect.x0 ≤ c.x) && decide (c.x ≤ t.rect.x1)
    && decide (t.rect.y0 ≤ c.y) && decide (c.y ≤ t.rect.y1)

/-- Rank of a core of this device among a tree's leaves (R159). -/
def TreeRec.rank (t : TreeRec) (c : CoreId) : Option Nat :=
  t.leaves.findIdx? fun l => l.x = c.x && l.y = c.y && l.dev = 0xFFFF

/-- User word of a reduce message (R268). -/
def reduceUser (tree level inst : Nat) : Word := BitVec.ofNat 32 (pack [(0, tree), (8, level), (12, inst)])

/-- Checks of a leaf's SEND with a reduce handler at start (R270). -/
def reduceSendBad (x : Ctx) (c : CoreId) (image tree : Nat) (f : SendF) (dest user : Word) : Bool :=
  match x.tree? c image tree with
  | none => true
  | some t =>
    match t.rank c with
    | none => true
    | some r =>
      let l := t.leaves.getD (r - r % 2) ⟨0, 0, 0⟩
      bits user.toNat 5 0 != tree || bits dest.toNat 7 0 != l.x
        || bits dest.toNat 15 8 != l.y || bits dest.toNat 31 16 != l.dev
        || f.length != 1 + (t.rowsM1 + 1) * partUnits t.partFmt

/-- What starting a SEND comes to (R264). -/
inductive SendEnd where
  | refuse (code : Code)
  | closed
  | waits
  | reduce
  | sends (k : Chan)

/-- The ordered checks of R264 at the start of a SEND. -/
def sendStartCheck (d : Dev) (c : CoreId) (f : SendF) (dest user : Word) (gear : Nat) : SendEnd :=
  let k := d.core c
  let (kind, tree, mask) := (k.slot gear).handler f.handler
  if kind = 0 ∨ (kind = 1 ∧ !bit mask f.queue) then .refuse cBadArgument
  else if kind = 2 then
    if reduceSendBad (d.ctxOf c) c (k.slot gear).image tree f dest user then .refuse cBadArgument else .reduce
  else
    match k.arch.msg.chans.find? fun x => x.names dest f.queue with
    | none => .refuse cBadArgument
    | some x =>
      if x.closed then .closed
      else if x.allot < f.length ∨ ringUnits x.sizeCode - 1 < f.length then .refuse cMsgTooLong
      else if x.credits < f.length then .waits
      else .sends x

/-- Payload units of a SEND, read when it starts, with the blocks listed that the read touches through a handle with bc (R125, R201). -/
def Dev.sendBody (d : Dev) (c : CoreId) (e : QEntry) (f : SendF) (payload : Option Res) : Option (Dev × List QWord) :=
  match payload with
  | none => some (d, [])
  | some r => (d.localRead c r.addr ((f.length - 1) * 16)).map fun bs =>
      (d.listBlocks c 3 e.sb e.pc e.gear (d.cmdBlocks c e.cmd), unitsOf f.length bs)

/-- Cycles that a SEND has waited for credits by a cycle (R264). -/
def QEntry.creditWaited (e : QEntry) (at_ : Nat) : Nat := if e.creditWait then at_ - e.start else 0

/-- Completes the head command of the message unit at once with a status (R76). -/
def Dev.sendClosed (d : Dev) (c : CoreId) (e : QEntry) (fin : Nat) : Dev :=
  ((d.updArch c fun a => (a.finish 2 fin 0).status cChannelClosed 3 e.sb).bump 0x4300 5 1 |>.raised cChannelClosed).bump 0x4300 7
    (e.creditWaited fin)

/-- The message unit starts, or tries again, the SEND at the head of its queue, in cycle `start` (R242, R264, R273). -/
def Dev.trySend (d : Dev) (c : CoreId) (e : QEntry) (f : SendF) (dest user : Word) (gear : Nat) (payload : Option Res)
    (start : Nat) : Dev :=
  if f.order && d.orderHolds c then
    let d := if e.late = 0 then d.bump 0x4200 0xD (ceilDiv f.length 16) else d
    d.updArch c fun a => a.updHead 2 fun e => { e with late := 1 }
  else
    match sendStartCheck d c f dest user gear with
    | .refuse code => d.stopAt c code 3 e
    | .closed => d.sendClosed c e start
    | .waits => d.updArch c fun a => a.updHead 2 fun x =>
        { x with started := true, creditWait := true, start := if e.creditWait then e.start else start }
    | .reduce =>
      match d.sendBody c e f payload with
      | none => d.unreadable c 3 e
      | some (d, body) =>
        let hdr : MsgHdr := ⟨f.handler, gear, f.order, f.length, f.queue, 0, c.x, c.y, d.srcDevTo (bits dest.toNat 31 16), 0, user⟩
        let d := d.updArch c fun a => a.updHead 2 fun x => { x with
          started := true, start := start, dur := 3 + f.length + ceilDiv f.length 16 }
        d.sendMsg c ⟨hdr, body⟩ (bits dest.toNat 31 16) (bits dest.toNat 7 0) (bits dest.toNat 15 8) false 0 0
    | .sends k =>
      match d.sendBody c e f payload with
      | none => d.unreadable c 3 e
      | some (d, body) =>
        let hdr : MsgHdr :=
          ⟨f.handler, gear, f.order, f.length, f.queue, k.inc, c.x, c.y, d.srcDevTo k.dstDev, k.seq, user⟩
        let d := d.updArch c fun a =>
          let a := a.updHead 2 fun x => { x with
            started := true, creditWait := false, start := start, dur := 3 + f.length + ceilDiv f.length 16 }
          { a with msg := a.msg.updChan dest f.queue fun k =>
              { k with credits := k.credits - f.length, seq := (k.seq + 1) % 2 ^ 32 } }
        (d.bump 0x4300 7 (e.creditWaited start)).sendMsg c ⟨hdr, body⟩ k.dstDev k.dstX k.dstY k.mcast (if k.mcast then k.x1 else 0) (if k.mcast then k.y1 else 0)

/-- The head entry of a core's message queue, when it is a SEND that has not sent. -/
def Dev.sendStart (d : Dev) (c : CoreId) (at_ : Nat) : Dev :=
  let a := d.arch c
  let u := vGet a.units 2 clearUnit
  match u.queue with
  | [] => d
  | e :: _ =>
    if !a.live || (e.started && !e.creditWait) then d
    else
      match e.cmd with
      | .send f dest user gear payload =>
        if !d.verifyRoom c (d.cmdBlocks c e.cmd) then d
        else d.trySend c e f dest user gear payload (max at_ (max e.accepted u.lastEnd))
      | _ => d

/-- The meaning of SEND_START. -/
def execSendStart (c : CoreId) (s : State) : Host.Outcome State Fault Refusal := s.onDev fun d => d.sendStart c 0

/-! ### Hard faults (R78, R81, R595) -/

/-- A SEND in progress is cut off by a hard fault: the final flit of its message carries poison 1 (R81, R234). -/
def Dev.cutSend (d : Dev) (c : CoreId) : Dev :=
  let sending := match (vGet (d.arch c).units 2 clearUnit).queue with
    | e :: _ => e.started && !e.creditWait && match e.cmd with
      | .send .. => true
      | _ => false
    | [] => false
  let tag := ((d.arch c).msg.tag + 255) % 256
  let final (p : Packet) : Bool := p.head.srcX = c.x && p.head.srcY = c.y && p.head.srcDev = 0xFFFF && p.head.vc = 0
    && p.head.msgTag = tag && p.head.last
  if sending then (d.mesh.transit.filter final).foldl (fun d p => d.remark p.head { p.head with poison := 1 }) d else d

/-- A hard fault: every unit stops, queues are cut off, the core reports it (R81, R595). -/
def Dev.hardFault (d : Dev) (c : CoreId) : Dev :=
  let d := (d.cutSend c).updArch c fun a =>
    { a with
      stat := { a.stat with
        run := .stopped, clean := false, programError := false, hardFault := true,
        exc := ⟨cCoreFenced, 0, 0, 0⟩, excWhere := a.stat.lastPc + 4096 * a.stat.gear, stall := none
        excDetail0 := 0, excDetail1 := 0 }
      units := a.units.map fun u => { u with queue := [] } }
  let d := d.updArch c Arch.recount
  (d.updCore c Core.reportStop).eventCore c cCoreFenced 0 4 0 0

/-- The meaning of HARD_FAULT. -/
def execHardFault (c : CoreId) (s : State) : Host.Outcome State Fault Refusal := s.onDev fun d => d.hardFault c

/-! ### Passing messages (R127, R259, R260, R273) -/

/-- Records passed with the next n messages, pads among or before them included; none when fewer complete messages lie ahead (R127). -/
def passMsgs : Nat → List RingRec → Option (List RingRec)
  | 0, _ => some []
  | _, [] => none
  | n + 1, r :: rest =>
    if r.pad then (passMsgs (n + 1) rest).map (r :: ·)
    else if r.complete then (passMsgs n rest).map (r :: ·)
    else none

/-- Records passed up to a boundary, all complete messages or pads; none when the value is no such boundary (R259). -/
def passTo (cap value pos : Nat) : List RingRec → Option (List RingRec)
  | [] => if value = pos then some [] else none
  | r :: rest =>
    if value = pos then some []
    else if r.pad || r.complete then (passTo cap value ((r.pos + r.len) % cap) rest).map (r :: ·)
    else none

/-- Records that a RECV.ACK or a store to rp passes (R127, R259). -/
def Ring.passes (r : Ring) (cmd : UnitCmd) : Option (List RingRec) :=
  match cmd with
  | .recvAck _ nM1 => passMsgs (nM1 + 1) r.recs
  | .rpStore _ value => passTo (ringUnits r.sizeCode) value r.rp r.recs
  | _ => none

/-- Ring named by a RECV.ACK or a store to rp. -/
def UnitCmd.ringOf : UnitCmd → Nat
  | .recvAck q _ => q
  | .rpStore q _ => q
  | _ => 0

/-- The message unit starts a RECV.ACK or a store to rp (R127, R259, R273). -/
def Dev.passStart (d : Dev) (c : CoreId) (isStore : Bool) : Dev :=
  let a := d.arch c
  let u := vGet a.units 2 clearUnit
  match u.queue with
  | [] => d
  | e :: _ =>
    let right := match e.cmd with
      | .recvAck _ _ => !isStore
      | .rpStore _ _ => isStore
      | _ => false
    if !a.live || e.started || !right then d
    else
      match (a.msg.ring e.cmd.ringOf).passes e.cmd with
      | none => d.stopAt c cBadArgument 3 e
      | some l => d.updArch c fun a => a.updHead 2 fun x =>
          { x with started := true, start := max e.accepted u.lastEnd, dur := 2 + l.length }

/-- The meaning of RECV_ACK_START. -/
def execRecvAckStart (c : CoreId) (s : State) : Host.Outcome State Fault Refusal := s.onDev fun d => d.passStart c false

/-- The meaning of RP_STORE_START. -/
def execRpStoreStart (c : CoreId) (s : State) : Host.Outcome State Fault Refusal := s.onDev fun d => d.passStart c true

/-- The changes of R260 when a passing command completes. -/
def Ring.passed' (r : Ring) (step : Nat) (l : List RingRec) : Ring :=
  let units := (l.map (·.len)).sum
  { r with
    rp := match l.getLast? with
      | some x => (x.pos + x.len) % ringUnits r.sizeCode
      | none => r.rp
    occ := r.occ - units, held := r.held + units, recs := r.recs.drop l.length
    passed := r.passed ++ l.map fun x => ⟨step, x.src, x.inc, x.len, x.pad, x.mcast, true, false⟩ }

/-- The head command of the message unit completes: a SEND frees its entry, a passing command makes its changes (R126, R260). -/
def Dev.messageComplete (d : Dev) (c : CoreId) : Dev :=
  let a := d.arch c
  let u := vGet a.units 2 clearUnit
  match u.queue with
  | [] => d
  | e :: _ =>
    if !e.started || e.creditWait then d
    else
      d.updArch c fun a =>
        let a := match e.cmd with
          | .recvAck q _ | .rpStore q _ =>
            match (a.msg.ring q).passes e.cmd with
            | some l => { a with msg := a.msg.updRing q fun r => r.passed' a.stat.stepNo l }
            | none => a
          | _ => a
        a.finish 2 (e.start + e.dur) 0

/-- The meaning of MESSAGE_COMMAND_COMPLETE. -/
def execMessageCommandComplete (c : CoreId) (s : State) : Host.Outcome State Fault Refusal :=
  s.onDev fun d => d.messageComplete c

/-! ### Delivery (R250 to R257, R291) -/

/-- Body flit of a credit return (R261). -/
def creditUnit (queue inc : Nat) (closed : Bool) (units : Nat) : QWord :=
  BitVec.ofNat 128 (pack [(0, queue), (4, inc), (12, b2n closed), (16, units)])

/-- The credit-return packet of a core to a sender of this device: on the response channel, with one body flit; to the Ethernet engine's station for column 0xF0 (R236, R261, R482). -/
def creditPacket (c : CoreId) (epoch : Nat) (dst : Sender) (queue inc : Nat) (closed : Bool) (units : Nat) : Packet :=
  let h := { msgHead c epoch 0 0xFFFF dst.x dst.y false false 0 0 with vc := 1, body := 1, last := true }
  pktOf (if dst.x = 0xF0 then { h with dkind := 1, dstX := 0, dstY := 0, dstDev := Config.ethernetStation } else h)
    [creditUnit queue inc closed units]

/-- Returns units to their sender; multicast messages return none (R260 to R262). A return to another device is released with the step (R374). -/
def Dev.giveBack (d : Dev) (c : CoreId) (src : Sender) (queue inc : Nat) (closed mcast : Bool) (units : Nat) : Dev :=
  if mcast || units = 0 then d
  else if src.dev = 0xFFFF then d.putPackets c [creditPacket c d.mesh.epoch src queue inc closed units]
  else
    let step := (d.arch c).stat.stepNo
    d.updMsg c fun u => u.updRing queue fun r => { r with passed := r.passed ++ [⟨step, src, inc, units, false, false, false, closed⟩] }

/-- Counts a message of the core's own region as placed, handed on or discarded (R604). -/
def Dev.countDone (d : Dev) (c : CoreId) (src : Sender) : Dev :=
  if src.dev = 0xFFFF ∧ d.sameRegion c ⟨src.x, src.y⟩ then d.updMsg c fun u => { u with doneIn := u.doneIn + 1 } else d

/-- A receive refusal (R257): the message is discarded, its credits return, the core stops. -/
def Dev.receiveRefusal (d : Dev) (c : CoreId) (h : MsgHdr) (mcast : Bool) (code : Code) : Dev :=
  let d := d.giveBack c (MsgHdr_src h) h.queue h.incarnation false mcast h.length
  let d := (d.countDone c (MsgHdr_src h)).bump 0x4300 6 1
  let s := (d.arch c).stat
  d.stop c code 3 0 s.lastPc s.gear (pack [(0, h.srcX), (8, h.srcY), (16, h.srcDev)])
    (pack [(0, h.handler), (8, h.queue), (16, h.length)])

/-- A message for a closed or re-incarnated ring is discarded and comes back as a closed return (rows 5 and 6 of R256). -/
def Dev.discardMsg (d : Dev) (c : CoreId) (h : MsgHdr) (mcast : Bool) : Dev :=
  let d := d.updMsg c fun u => u.updRing h.queue fun r => { r with discarded := r.discarded + 1 }
  ((d.giveBack c (MsgHdr_src h) h.queue h.incarnation true mcast h.length).countDone c (MsgHdr_src h)).bump 0x4300 4 1

/-- Units of padding before a message of n units (R250). -/
def Ring.padFor (r : Ring) (n : Nat) : Nat :=
  let cap := ringUnits r.sizeCode
  if cap - r.wp ≥ n then 0 else cap - r.wp

/-- Whether a message of n units fits (R250). -/
def Ring.fits (r : Ring) (n : Nat) : Bool :=
  decide (r.occ + r.held + r.padFor n + n ≤ ringUnits r.sizeCode - 1)

/-- A ring after a message of n units is placed, with its position (R250, R251). -/
def Ring.place (r : Ring) (h : MsgHdr) (mcast complete : Bool) : Ring × Nat :=
  let cap := ringUnits r.sizeCode
  let p := r.padFor h.length
  let pos := if p = 0 then r.wp else 0
  let pads := if p = 0 then [] else [⟨r.wp, p, true, true, MsgHdr_src h, 0, false⟩]
  let occ := r.occ + p + h.length
  ({ r with
    wp := (pos + h.length) % cap, occ := occ, peak := max r.peak occ, delivered := r.delivered + 1
    recs := r.recs ++ pads ++ [⟨pos, h.length, false, complete, MsgHdr_src h, h.incarnation, mcast⟩] }, pos)

/-- Writes units into a ring's storage in the home bank (R252). -/
def Dev.writeUnits (d : Dev) (c : CoreId) (base pos : Nat) (us : List QWord) : Dev :=
  (d.localWrite c (base + 16 * pos) (us.flatMap qBytes)).getD d

/-- Places a message of which the units `us` (header first) have arrived (R250 to R252). -/
def Dev.placeMsg (d : Dev) (c : CoreId) (h : MsgHdr) (us : List QWord) (mcast complete : Bool) : Dev × Nat :=
  let r := (d.arch c).msg.ring h.queue
  let p := r.padFor h.length
  let (r', pos) := r.place h mcast complete
  let d := d.updMsg c fun u => u.updRing h.queue fun _ => r'
  let d := if p = 0 then d
    else (d.writeUnits c r.base r.wp
      [hdrWord ⟨0, 0, false, p, 0, 0, 0, 0, 0, 0, 0#32⟩]).bump 0x4300 3 1
  (((d.writeUnits c r.base pos us).bump 0x4300 2 1).countDone c (MsgHdr_src h), pos)

/-- What the checks of R256 decide for a message of the gear in force. -/
inductive Delivery where
  | refuse (code : Code)
  | combine (tree : Nat)
  | discard
  | place

/-- Rows 3 to 7 of R256. -/
def deliveryCheck (k : Core) (gear : Nat) (h : MsgHdr) : Delivery :=
  let (kind, tree, mask) := (k.slot gear).handler h.handler
  let r := k.arch.msg.ring h.queue
  if kind = 0 ∨ 64 ≤ h.handler ∨ (kind = 1 ∧ !bit mask h.queue) then .refuse cBadArgument
  else if kind = 2 then .combine tree
  else if r.state ≠ 1 ∨ h.incarnation ≠ r.inc then .discard
  else if !r.fits h.length then .refuse cQueuePlan
  else .place

/-! ### The combiner (R159 to R163, R268 to R270) -/

/-- Entries of a partial in part_fmt, as XA128 (R162). -/
def partEntries (fmt : Nat) (rows : Nat) (us : List QWord) : List QWord :=
  if fmt = 10 then us.take (rows * 16)
  else
    let whole := leNat (us.flatMap qBytes)
    (List.range (rows * 16)).map fun i => (XA.ofNum (decodeElem fmt (elemAt fmt whole i)) 1).toBits

/-- Rounds entries to part_fmt and packs them as message units (R162). -/
def partPack (fmt : Nat) (es : List QWord) : List QWord :=
  if fmt = 10 then es
  else unitsOf 256 (packElems fmt (es.map fun e => (convertOut fmt 0 0 false (XA.ofBits e).num).1))

/-- Element-wise XA128 sum of two partials (R160). -/
def partAdd (a b : List QWord) : List QWord :=
  (a.zip b).map fun p => ((XA.ofBits p.1).add (XA.ofBits p.2)).toBits

/-- Whether a node exists at a level of a tree with p leaves (R160). -/
def nodeExists (p level index : Nat) : Bool := decide (index * 2 ^ level < p)

/-- Writes the root's rows once no open group covers them (R163). -/
def Tensor.rootWrite (t : Tensor) (row : Nat) (es : List QWord) : Tensor :=
  es.zipIdx.foldl (fun t p => accSet t (row * 16 + p.2) p.1) t

/-- An input of node (level, index), the first or (`odd`) the second, has arrived at, or was kept by, the core that executes it: held, or the completed node's rows, the first input plus the second whichever came first (R147, R160, R161). -/
def Dev.nodeArrive (d : Dev) (c : CoreId) (tr : TreeRec) (gear inst level index : Nat) (odd : Bool) (es : List QWord) :
    Dev × Option (List QWord) :=
  let twin (x : HeldPart) : Bool :=
    x.gear = gear && x.tree = tr.tree && x.inst = inst && x.level = level && x.index = index && x.odd != odd
  match (d.arch c).msg.heldParts.find? twin with
  | none =>
    if !odd && !nodeExists tr.leaves.length (level - 1) (2 * index + 1) then (d, some es)
    else (d.updMsg c fun u => { u with heldParts := u.heldParts ++ [⟨gear, tr.tree, inst, level, index, odd, es⟩] }, none)
  | some x =>
    ((d.updMsg c fun u => { u with heldParts := u.heldParts.filter fun y => !twin y }).bump 0x4000 7 1,
      some (if odd then partAdd x.rows es else partAdd es x.rows))

/-- A completed node (R162, R163, R269): the root writes its rows or waits for them, an odd node forwards its result, an even node keeps it as an input of the next. -/
def Dev.nodeDone (d : Dev) (c : CoreId) (tr : TreeRec) (gear handler inst level index : Nat) (es : List QWord) :
    Dev × Option (List QWord) :=
  if level ≥ clog2 tr.leaves.length then
    (if openMeets (d.arch c).tensor.groups 99 tr.rootRow tr.rowsM1 then
      d.updMsg c fun u => { u with rootWait := u.rootWait ++ [(tr.rootRow, es)] }
    else d.updArch c fun a => { a with tensor := a.tensor.rootWrite tr.rootRow es }, none)
  else
    let packed := partPack tr.partFmt es
    let d := if tr.partFmt = 10 then d else d.bump 0x4000 8 1
    if index % 2 = 0 then (d, some (partEntries tr.partFmt (tr.rowsM1 + 1) packed))
    else
      let l := tr.leaves.getD ((index - 1) * 2 ^ level) ⟨0, 0, 0⟩
      let hdr : MsgHdr := ⟨handler, gear, false, 1 + packed.length, 0, 0, c.x, c.y, d.srcDevTo l.dev, 0,
        reduceUser tr.tree level inst⟩
      (d.sendMsg c ⟨hdr, packed⟩ l.dev l.x l.y false 0 0, none)

/-- The chain of nodes that one input completes at a core, `fuel` levels at most (R160). -/
def Dev.nodeInput (c : CoreId) (tr : TreeRec) (gear handler inst : Nat) :
    Nat → Nat → Nat → Bool → List QWord → Dev → Dev
  | 0, _, _, _, _, d => d
  | fuel + 1, level, index, odd, es, d =>
    match d.nodeArrive c tr gear inst level index odd es with
    | (d, none) => d
    | (d, some es) =>
      match d.nodeDone c tr gear handler inst level index es with
      | (d, none) => d
      | (d, some es) => Dev.nodeInput c tr gear handler inst fuel (level + 1) (index / 2) false es d

/-- A complete reduce message reaches the combiner, or is refused when it does not fit the core's place in the tree (R270). -/
def Dev.combine (d : Dev) (c : CoreId) (gear tree : Nat) (m : Msg) (mcast : Bool) : Dev :=
  let u := m.hdr.user.toNat
  let level := bits u 11 8
  let bad := d.receiveRefusal c m.hdr mcast cBadArgument
  match (d.ctxOf c).tree? c ((d.core c).slot gear).image tree with
  | none => bad
  | some tr =>
    match tr.rank c with
    | none => bad
    | some r =>
      if bits u 5 0 ≠ tree ∨ m.hdr.length ≠ 1 + (tr.rowsM1 + 1) * partUnits tr.partFmt
          ∨ clog2 tr.leaves.length ≤ level ∨ r % 2 ^ (level + 1) ≠ 0 then bad
      else
        let d := (d.bump 0x4300 8 1).countDone c (MsgHdr_src m.hdr)
        Dev.nodeInput c tr gear m.hdr.handler (bits u 15 12) 14 (level + 1) (r / 2 ^ (level + 1))
          (MsgHdr_src m.hdr != ⟨c.x, c.y, 0xFFFF⟩) (partEntries tr.partFmt (tr.rowsM1 + 1) m.body) d

/-- The meaning of REDUCE_ROOT_WRITE (R163): the oldest waiting root result whose rows no open group covers is written. -/
def execReduceRootWrite (c : CoreId) (s : State) : Host.Outcome State Fault Refusal :=
  s.onDev fun d =>
    let a := d.arch c
    match a.msg.rootWait.find? fun w => !openMeets a.tensor.groups 99 w.1 (w.2.length / 16 - 1) with
    | none => d
    | some w => d.updArch c fun a => { a with
        tensor := a.tensor.rootWrite w.1 w.2, msg := { a.msg with rootWait := a.msg.rootWait.erase w } }

/-! ### Arrival (R256, R243, R291) -/

/-- Units a broom holds (R289). -/
def broomUnits (l : List (Bool × Msg)) : Nat := (l.map fun m => m.2.hdr.length).sum

/-- A message of another gear (R291): what becomes of it, and whether it is held. -/
def Dev.otherGear (d : Dev) (c : CoreId) (h : MsgHdr) (mcast : Bool) : Dev × Bool :=
  let k := d.core c
  if (k.slot h.gear).state ≠ 2 then
    let d := d.giveBack c (MsgHdr_src h) h.queue h.incarnation true mcast h.length
    (((d.countDone c (MsgHdr_src h)).bump 0x4400 7 1).eventCore c cBroomDiscard 3 0 0 0, false)
  else if !k.arch.msg.carry then (d.receiveRefusal c h mcast cQueuePlan, false)
  else if 128 < broomUnits k.arch.msg.broom + h.length ∨ 32 ≤ k.arch.msg.broom.length then
    (d.receiveRefusal c h mcast cQueuePlan, false)
  else ((d.countDone c (MsgHdr_src h)).bump 0x4400 5 1, true)

/-- Sinks of a message whose later packets are awaited: 0 dropped, 1 ring, 2 combiner, 3 broom. -/
def Dev.expect (d : Dev) (c : CoreId) (p : Packet) (h : MsgHdr) (us : List QWord) (place : Option (Nat × Nat))
    (sink : Nat) : Dev :=
  if p.head.last then d
  else d.updMsg c fun u => { u with partials := u.partials ++
    [⟨⟨p.head.srcX, p.head.srcY, p.head.srcDev⟩, p.head.msgTag, h, p.head.mcast, us, place, sink⟩] }

/-- Notes on the oldest held message that matches that it has reached its core in the receiving region's current step. -/
def notePlaced (c : CoreId) (h : MsgHdr) (at_ : Nat × Nat) : List HeldMsg → List HeldMsg
  | [] => []
  | e :: rest =>
    if e.released && e.sent && e.placedIn.isNone && e.dstX = c.x && e.dstY = c.y && e.dstDev = 0xFFFF && decide (e.msg.hdr = h)
    then { e with placedIn := some at_ } :: rest
    else e :: notePlaced c h at_ rest

/-- Whether every core of a region has ended. -/
def Dev.regionEnded (d : Dev) (n num : Nat) : Bool :=
  d.cores.all fun p => !(p.2.ctx = some n && p.2.region = num) || p.2.arch.stat.ended

/-- A message released by another region of this device, or steered, has arrived: its hold space stays until the receiving region commits the step (R375, R483). A region that has ended commits nothing more. -/
def Dev.notePlaced (d : Dev) (c : CoreId) (h : MsgHdr) : Dev :=
  match (d.core c).ctx, d.rtOf c with
  | some n, some r =>
    let at_ := (r.num, r.gateStep)
    let gone := d.regionEnded n r.num
    let d := d.updCtx n fun x =>
      let l := Machine.notePlaced c h at_ x.msgHold
      { x with msgHold := if gone then l.filter fun e => e.placedIn != some at_ else l }
    let mine (e : SteerMsg) : Bool := e.ctx = n && e.x = c.x && e.y = c.y && decide (e.msg.hdr = h)
    { d with steerBuf := if gone then d.steerBuf.filter fun e => !mine e
      else d.steerBuf.map fun e => if mine e then { e with placedIn := some at_ } else e }
  | _, _ => d

/-- The first packet of a message reaches a core's message unit (R256). -/
def Dev.firstArrives (d : Dev) (c : CoreId) (p : Packet) : Dev :=
  let h := hdrOf (p.units.headD 0#128)
  let d := d.notePlaced c h
  let k := d.core c
  let gear := k.arch.stat.gear
  let whole := p.head.last
  if p.head.poison ≠ 0 then
    let d := ((d.countDone c (MsgHdr_src h)).bump 0x4200 9 1).expect c p h [] none 0
    if p.head.poison = 2 then d.stop c cBlockCheckFail 3 0 k.arch.stat.lastPc gear 0 0 else d
  else if h.gear ≠ gear then
    let (d, held) := d.otherGear c h p.head.mcast
    if !held then d.expect c p h [] none 0
    else (d.updMsg c fun u => { u with broom := u.broom ++ [(p.head.mcast, ⟨h, p.units.drop 1⟩)] }).expect c p h p.units none 3
  else
    match deliveryCheck k gear h with
    | .refuse code => (d.receiveRefusal c h p.head.mcast code).expect c p h [] none 0
    | .combine tree =>
      if whole then d.combine c gear tree ⟨h, p.units.drop 1⟩ p.head.mcast else d.expect c p h p.units none 2
    | .discard => (d.discardMsg c h p.head.mcast).expect c p h [] none 0
    | .place =>
      let (d, pos) := d.placeMsg c h p.units p.head.mcast whole
      d.expect c p h p.units (some (h.queue, pos)) 1

/-- A packet is delivered at a core, if R242 lets it be now; what waits for it at its source goes on. -/
def Dev.deliver (d : Dev) (c : CoreId) (p : Packet) (f : Dev → Dev) : Dev :=
  if d.mayLand c p then (f (d.landed c p.head)).flushAll else d

/-- The first packet of a message, delivered to a core's message unit. -/
def Dev.firstPacket (d : Dev) (c : CoreId) (p : Packet) : Dev := d.deliver c p fun d => d.firstArrives c p

/-- The meaning of MESSAGE_FIRST_PACKET. -/
def execMessageFirstPacket (c : CoreId) (h : PktHead) (units : List QWord) (s : State) :
    Host.Outcome State Fault Refusal :=
  s.onDev fun d => d.firstPacket c (pktOf h units)

/-- Whether a held message has not arrived whole. -/
def Msg.partly (m : Msg) : Bool := m.body.length + 1 != m.hdr.length

/-- Units that arrive for a held message (R291). -/
def growHeld (h : MsgHdr) (us : List QWord) : List (Bool × Msg) → List (Bool × Msg)
  | [] => []
  | (k, m) :: rest => if m.hdr = h && m.partly then (k, { m with body := m.body ++ us }) :: rest else (k, m) :: growHeld h us rest

/-- A held message that holds a poisoned flit is discarded whole (R243). -/
def dropHeld (h : MsgHdr) : List (Bool × Msg) → List (Bool × Msg)
  | [] => []
  | (k, m) :: rest => if m.hdr = h && m.partly then rest else (k, m) :: dropHeld h rest

/-- A later packet of a message (R250, R256): judged only by whether its first packet was placed. -/
def Dev.laterArrives (d : Dev) (c : CoreId) (p : Packet) : Dev :=
  let mine (x : Partial) : Bool :=
    x.src = ⟨p.head.srcX, p.head.srcY, p.head.srcDev⟩ && x.tag = p.head.msgTag
  match (d.arch c).msg.partials.find? mine with
  | none => d
  | some x =>
    let at_ := x.got.length
    let got := x.got ++ p.units
    let x' : Partial := { x with got := got }
    let rest := (d.arch c).msg.partials.filter fun y => !mine y
    let d := d.updMsg c fun u => { u with partials := if p.head.last then rest else rest ++ [x'] }
    if p.head.poison ≠ 0 ∧ x.sink ≠ 0 then
      let s := (d.arch c).stat
      let d := (d.updMsg c fun u => { u with
        partials := rest, broom := if x.sink = 3 then dropHeld x.hdr u.broom else u.broom }).bump 0x4200 9 1
      if p.head.poison = 2 then d.stop c cBlockCheckFail 3 0 s.lastPc s.gear 0 0 else d
    else
      match x.sink with
      | 1 =>
        match x.place with
        | none => d
        | some (q, pos) =>
          let d := d.writeUnits c ((d.arch c).msg.ring q).base (pos + at_) p.units
          if p.head.last then
            d.updMsg c fun u => u.updRing q fun r => { r with
              recs := r.recs.map fun y => if y.pos = pos && !y.pad then { y with complete := true } else y }
          else d
      | 2 =>
        if p.head.last then
          let (_, tree, _) := ((d.core c).slot x.hdr.gear).handler x.hdr.handler
          d.combine c x.hdr.gear tree ⟨x.hdr, got.drop 1⟩ x.mcast
        else d
      | 3 => d.updMsg c fun u => { u with broom := growHeld x.hdr p.units u.broom }
      | _ => d

/-- A later packet of a message, delivered to a core's message unit. -/
def Dev.laterPacket (d : Dev) (c : CoreId) (p : Packet) : Dev := d.deliver c p fun d => d.laterArrives c p

/-- The meaning of MESSAGE_PACKET. -/
def execMessagePacket (c : CoreId) (h : PktHead) (units : List QWord) (s : State) : Host.Outcome State Fault Refusal :=
  s.onDev fun d => d.laterPacket c (pktOf h units)

/-! ### Credit returns (R261, R262, R266) -/

/-- Whether a channel matches a credit return of a core, ring and incarnation (R262). -/
def Chan.isFor (k : Chan) (src : Sender) (queue inc : Nat) : Bool :=
  !k.mcast && k.dstX = src.x && k.dstY = src.y && k.dstDev = src.dev && k.queue = queue && k.inc = inc

/-- The channels of a message unit with the units of a credit return (R262, R266). -/
def MsgUnit.credited (u : MsgUnit) (src : Sender) (queue inc units : Nat) (closed : Bool) : MsgUnit :=
  { u with chans := u.chans.map fun k =>
      if k.isFor src queue inc then { k with credits := k.credits + units, closed := k.closed || closed } else k }

/-- A credit return reaches a core (R262, R266). `at_` is the CORE cycle of its arrival, from which a waiting SEND goes on. -/
def Dev.creditReturn (d : Dev) (c : CoreId) (src : Sender) (queue inc : Nat) (closed : Bool) (units at_ : Nat) : Dev :=
  let found := (d.arch c).msg.chans.any fun k => k.isFor src queue inc
  let d := d.updMsg c fun u => u.credited src queue inc units closed
  let d := if closed && found then (d.updArch c fun a => a.status cChannelClosed 3 0).raised cChannelClosed else d
  match (vGet (d.arch c).units 2 clearUnit).queue with
  | e :: _ => if e.creditWait then d.sendStart c at_ else d
  | [] => d

/-- The completion flit of a multicast message of a core, if it is on its way. -/
def Dev.completionFor (d : Dev) (c : CoreId) (tag : Nat) : Option Packet :=
  d.mesh.transit.find? fun p => p.head.vc = 1 && p.head.body = 0 && p.head.msgTag = tag && p.head.dkind = 0
    && p.head.dstX = c.x && p.head.dstY = c.y

/-- The meaning of MULTICAST_COMPLETION (R241, R242): the completion flit of a multicast message reaches its source, and what waited for it goes on. -/
def execMulticastCompletion (c : CoreId) (tag : Nat) (s : State) : Host.Outcome State Fault Refusal :=
  s.onDev fun d =>
    match d.completionFor c tag with
    | none => d
    | some p => ((d.landed c p.head).updMsg c fun u => { u with mcastWait := u.mcastWait.erase tag }).flushAll

/-- A credit-return packet reaches its core or the Ethernet engine: it is in flight no longer (R261). -/
def Dev.creditLands (d : Dev) (c : CoreId) (src : Sender) (queue inc : Nat) (closed : Bool) (units : Nat) : Dev :=
  let due := creditPacket ⟨src.x, src.y⟩ d.mesh.epoch ⟨c.x, c.y, 0xFFFF⟩ queue inc closed units
  match d.mesh.transit.find? fun p => { p.head with epoch := due.head.epoch } = due.head && p.units = due.units with
  | some p => (d.landed c p.head).flushAll
  | none => d

/-! ### Closing and resetting rings (R265) -/

/-- Discards every message of a ring: one closed return for each sender (R265). -/
def Dev.emptyRing (d : Dev) (c : CoreId) (q : Nat) : Dev :=
  let r := (d.arch c).msg.ring q
  let msgs := r.recs.filter fun x => !x.pad
  let senders := (msgs.map (·.src)).dedup
  let d := senders.foldl (fun d s =>
    let mine := msgs.filter fun x => x.src = s && !x.mcast
    d.giveBack c s q r.inc true false ((mine.map (·.len)).sum)) d
  let d := d.bump 0x4300 4 msgs.length
  d.updMsg c fun u => { u.updRing q fun r => { r with recs := [] } with
    partials := u.partials.map fun p => match p.place with
      | some (pq, _) => if pq = q then { p with place := none, sink := 0 } else p
      | none => p }

/-- A ring closes (R265). -/
def Dev.closeRing (d : Dev) (c : CoreId) (q : Nat) : Dev :=
  let r := (d.arch c).msg.ring q
  if r.state = 1 then
    (d.emptyRing c q).updMsg c fun u => u.updRing q fun r => { r with state := 2, occ := 0, wp := r.rp }
  else d

/-- Every ring of a core closes (R109, R265). -/
def Dev.closeRings (d : Dev) (c : CoreId) : Dev := (List.range 16).foldl (fun d q => d.closeRing c q) d

end Sys2Proof.Machine
end

