-- ==== Sys2Proof/Machine/Router.lean ====
section
/-! DEFINITION. The scheduled network: switch programs, streams, step cycles and steering (R213 to R233). -/

namespace Sys2Proof.Machine

/-! ### Switch programs (R215, R216) -/

/-- A decoded switch-program entry. -/
inductive SwEntry where
  /-- Sources of the north, east, south, west and eject outputs, then inj, ej, steer_in, steer_dl, repeat_m1. -/
  | route (out : List Nat) (inj ej steerIn steerDl repeatM1 : Nat)
  | loop (target countM1 ctr : Nat)
  | stop
deriving DecidableEq, Repr

/-- Decoding of an entry (R215); reserved ops, refused at load (R227), end the program. -/
def swEntryOf (n : Nat) : SwEntry :=
  match bits n 63 60 with
  | 0 => .route [bits n 2 0, bits n 5 3, bits n 8 6, bits n 11 9, bits n 14 12] (bits n 16 15) (bits n 18 17)
      (bits n 21 19) (bits n 24 22) (bits n 47 32)
  | 1 => .loop (bits n 9 0) (bits n 25 10) (bits n 27 26)
  | _ => .stop

/-- Switch-program entry i of a slot; an index outside its range ends the program (R278). -/
def Slot.sw (s : Slot) (i : Nat) : SwEntry :=
  if s.swBase ≤ i ∧ i < s.swBase + s.swLen then
    swEntryOf (leNat (memRead (vGet s.parts 2 []) (8 * (i - s.swBase)) 8))
  else .stop

/-- Moves a router to entry i, through LOOPs that take no cycle, to a ROUTE or an END (R216). A loop counter is held as branches left plus 1, and 0 before its LOOP is reached. -/
def Router.goTo (s : Slot) : Nat → Nat → Router → Router
  | 0, i, r => { r with sw := i, atEnd := true, left := none }
  | fuel + 1, i, r =>
    match s.sw i with
    | .route _ _ _ _ _ rep => { r with sw := i, atEnd := false, left := some rep }
    | .stop => { r with sw := i, atEnd := true, left := none }
    | .loop target countM1 ctr =>
      let n := vGet r.ctrs ctr 0
      let n := if n = 0 then countM1 + 2 else n
      if 1 < n then Router.goTo s fuel target { r with ctrs := vSet r.ctrs ctr (n - 1) }
      else Router.goTo s fuel (i + 1) { r with ctrs := vSet r.ctrs ctr 0 }

/-- LOOPs that one move may pass: far more than any program whose loops contain a ROUTE (log entry 20). -/
def swFuel : Nat := 1048576

/-- A gear's stream descriptor i, inject 0 to 3 then eject 0 to 3, with its buffer resolved (R221, R222). -/
def Core.stream (k : Core) (gear i : Nat) : Stream :=
  let n := leNat (memRead (vGet (k.slot gear).parts 3 []) (16 * i) 16)
  let h := k.arch.handle (bits n 5 0)
  let p := (k.arch.paired (bits n 5 0)).2
  if !h.valid || n = 0 then clearStream
  else
    { present := true, handle := bits n 5 0, steered := bit n 8, start := bits n 47 16, window := bits n 79 48,
      countOff := bits n 111 80, pos := bits n 47 16, count := 0, base := landing h p (decide (4 ≤ i)) 0 }

/-- Streams at the beginning of a step or after a shift: resolved, back at their starts, eject buffers dirty (R222, R206). -/
def Core.beginStreams (k : Core) : Core :=
  let gear := k.arch.stat.gear
  let inj := Vector.ofFn fun i : Fin 4 => k.stream gear i.val
  let ej := Vector.ofFn fun i : Fin 4 => k.stream gear (4 + i.val)
  let a := { k.arch with router := { k.arch.router with inj := inj, ej := ej } }
  { k with arch := ej.toList.foldl (fun a s => if s.present then a.touch s.handle else a) a }

/-- A router at the beginning of a step: it continues at the entry after END (R216). -/
def Core.beginStep (k : Core) : Core :=
  let k := k.beginStreams
  let r := k.arch.router
  let r := if r.atEnd then r.goTo (k.slot k.arch.stat.gear) swFuel (r.sw + 1) else r
  { k with arch := { k.arch with router := { r with cycle := 0, reads := [], askedTo := 0 } } }

/-- A router at the entry point of the gear in force, in the cycle after the SHIFT (R216, R286). The numbers of steered beats and the counts of beats written run on from the beginning of the step (R229, R233; DEDUCED, log entry 112). -/
def Core.enterGear (k : Core) : Core :=
  let old := k.arch.router
  let k := k.beginStreams
  let s := k.slot k.arch.stat.gear
  let on (was now : Vector Stream 4) : Vector Stream 4 := Vector.ofFn fun i : Fin 4 => { now[i] with count := was[i].count }
  let n := k.arch.stat.issue
  let r := { k.arch.router with
    ctrs := Vector.replicate 4 0, cycle := n, reads := [], askedTo := n
    inj := on old.inj k.arch.router.inj, ej := on old.ej k.arch.router.ej }
  { k with arch := { k.arch with router := r.goTo s swFuel s.swEntry } }

/-! ### One step cycle (R217 to R233) -/

/-- Bytes that a waiting command of the tensor or vector unit has yet to write: address and length (R222). -/
def UnitCmd.toWrite : UnitCmd → List (Nat × Nat)
  | .drain f d _ _ _ => [(d.addr, (f.rowsM1 + 1) * outRowBytes f.fmtOut + if f.mx then (f.rowsM1 + 1) / 2 else 0)]
  | .tmuls _ _ _ (some w) _ _ => [(w.addr, w.room)]
  | .vopSt _ a => [(a.addr, 256)]
  | _ => []

/-- Whether two byte ranges meet. -/
def rangesMeet (a n b m : Nat) : Bool := decide (a < b + m) && decide (b < a + n)

/-- Whether two pieces of local memory, address and length, lie in one bank and meet. -/
def placesMeet (c : CoreId) (p q : Nat × Nat) : Bool :=
  match locate c p.1, locate c q.1 with
  | .home o a, .home v b => o = v && rangesMeet a p.2 b q.2
  | _, _ => false

/-- Whether an inject read waits for a tensor or vector command that was accepted in an earlier counted cycle and has yet to write a byte of the beat (R222). -/
def Arch.readWaits (a : Arch) (c : CoreId) (r : InjRead) : Bool :=
  [0, 1].any fun u => (vGet a.units u clearUnit).queue.any fun e =>
    !e.started && (e.step != a.stat.stepNo || decide (e.counted < r.asked)) && e.cmd.toWrite.any fun w => placesMeet c w (r.addr, 32)

/-- Inputs that an entry names: by its outputs and by steer_in (R219). -/
def namedInputs (out : List Nat) (steerIn : Nat) : List Nat :=
  (List.range 4).filter fun p => out.contains (p + 1) || steerIn = p + 1

/-- Pairing buffer that steer_in feeds (R229). -/
def steerBuffer (steerIn : Nat) : Nat := if steerIn = 5 then 4 else steerIn - 1

/-- The stream whose beat an entry takes: a steered stream's beat goes into its pairing buffer or nowhere (R215, R229). -/
def Router.taken (r : Router) (out : List Nat) (inj steerIn : Nat) : Option Nat :=
  let s := vGet r.inj inj clearStream
  if s.present && (steerIn = 5 || (out.contains 5 && !s.steered)) then some inj else none

/-- The inject read of the entry in the step cycle being executed (R222). -/
def Router.due (r : Router) : Option InjRead := r.reads.find? fun x => x.cycle = r.cycle

/-- The conditions of R219 under which a cycle is a core hold, but for the wait of R220: an inject beat not read for want of a place in the verify set is among them (R202). -/
def Dev.coreHold (d : Dev) (c : CoreId) (out : List Nat) (steerIn : Nat) : Bool :=
  let r := (d.arch c).router
  (namedInputs out steerIn).any (fun p => (vGet r.inq p []).isEmpty)
    || (List.range 4).any (fun p => out.getD p 0 != 0 &&
        decide (4 ≤ (vGet (d.arch (acrossPort c p).1).router.inq (acrossPort c p).2 []).length))
    || (steerIn != 0 && decide (4 ≤ pairFill (vGet r.pairing (steerBuffer steerIn) [])))
    || (r.due.any fun x => x.data.isNone && !(d.arch c).readWaits c x)

/-- A core-hold cycle (R219): the tensor and vector commands in progress do not advance. -/
def Arch.held (a : Arch) : Arch :=
  { a with
    units := Vector.ofFn fun u : Fin 4 =>
      let x := vGet a.units u.val clearUnit
      if u.val ≤ 1 then { x with queue := x.queue.map fun e => if e.started then { e with dur := e.dur + 1 } else e } else x }

/-- A stream advanced by one beat (R222). -/
def Stream.advance (s : Stream) : Stream :=
  { s with pos := if s.pos + 32 < s.start + s.window then s.pos + 32 else s.start, count := s.count + 1 }

/-- A null beat of a core (R231). -/
def nullBeat (s : CoreStat) : Beat := ⟨0#256, s.gear, s.stepNo % 2, false, true, 0, false⟩

/-- A stray beat marks its core not clean (R226). -/
def Dev.stray (d : Dev) (c : CoreId) (port : Nat) (b : Beat) : Dev :=
  let d := (d.bump 0x4200 5 1).updStat c fun s => { s with
    clean := false
    suspects := ⟨cCadenceDeviation, 2, port, (d.arch c).router.cycle⟩ :: s.suspects }
  d.eventCore c cCadenceDeviation 6 3 (pack [(0, port), (3, b.gear), (5, b.stepBit)]) 0xFFFFFFFE

/-- A suspect result of the router, unit 6 (R225, R232). -/
def Dev.routerStop (d : Dev) (c : CoreId) (code : Code) : Dev :=
  let s := (d.arch c).stat
  d.stop c code 6 0 s.lastPc s.gear 0 0

/-- Writes an ejected beat; none when the write meets an uncorrectable quarter (R189, R222, R233). -/
def Dev.eject (d : Dev) (c : CoreId) (ej : Nat) (b : Beat) : Option Dev :=
  let s := vGet (d.arch c).router.ej ej clearStream
  let store (d : Dev) (s : Stream) : Dev :=
    d.updArch c fun a => { a with router := { a.router with ej := vSet a.router.ej ej s } }
  if !s.present then some d
  else if b.null then some (if s.steered then d else store d { s.advance with count := s.count })
  else
    match d.localWrite c (s.base + s.pos) (natLe b.data.toNat 32) with
    | none => none
    | some d =>
      let d := store d s.advance
      if s.steered then d.localWrite c (s.base + s.countOff) (natLe (s.count + 1) 4) else some d

/-- An access of the router meets an uncorrectable word (R189, R225). -/
def Dev.routerBad (d : Dev) (c : CoreId) (addr n : Nat) : Dev :=
  let s := (d.arch c).stat
  match d.badAt c (addr, n) with
  | some w => d.badWord c w 6 0 s.lastPc s.gear
  | none => d.routerStop c cBlockCheckFail

/-- The first step cycle of a step writes 0 to the count word of every steered eject stream (R233); a count word that shares an uncorrectable quarter stops the core (R189). -/
def Dev.zeroCounts (d : Dev) (c : CoreId) : Dev :=
  let r := (d.arch c).router
  if r.cycle ≠ 0 then d
  else r.ej.toList.foldl (fun d s =>
    if s.present && s.steered then (d.localWrite c (s.base + s.countOff) (natLe 0 4)).getD (d.routerBad c (s.base + s.countOff) 4) else d) d

/-- Takes the head beats of the named inputs; a stray is discarded and reads as no beat (R218, R226). A steered beat that the entry does not take into its pairing buffer stays (R229; DESIGN CHOICE, log entry 111). -/
def Dev.popInputs (d : Dev) (c : CoreId) (ports : List Nat) (steerIn : Nat) : Dev × NMap Beat :=
  ports.foldl (fun (d, got) p =>
    let a := d.arch c
    match vGet a.router.inq p [] with
    | [] => (d, got)
    | b :: rest =>
      let pop (d : Dev) : Dev := d.updArch c fun a => { a with router := { a.router with inq := vSet a.router.inq p rest } }
      if b.gear ≠ a.stat.gear ∨ b.stepBit ≠ a.stat.stepNo % 2 then ((pop d).stray c p b, got)
      else if b.steered && steerIn != p + 1 then (d, got)
      else (pop d, nmSet got p b))
    (d, [])

/-- The router's program one step cycle on (R215, R216). -/
def Router.onward (s : Slot) (r : Router) : Router :=
  if r.atEnd then r
  else
    match r.left with
    | some (n + 1) => { r with left := some n }
    | _ => r.goTo s swFuel (r.sw + 1)

/-- The router's program n step cycles on. -/
def Router.ahead (s : Slot) : Nat → Router → Router
  | 0, r => r
  | n + 1, r => Router.ahead s n (r.onward s)

/-- Asks for the inject beats of the entries up to three step cycles ahead, `fuel` of them at most; the streams advance (R222). -/
def Core.askReads : Nat → Core → Core
  | 0, k => k
  | fuel + 1, k =>
    let r := k.arch.router
    if r.cycle + 3 < r.askedTo then k
    else
      let slot := k.slot k.arch.stat.gear
      let e := r.ahead slot (r.askedTo - r.cycle)
      let stream := if e.atEnd then none
        else match slot.sw e.sw with
          | .route out inj _ steerIn _ _ => r.taken out inj steerIn
          | _ => none
      let r := { r with askedTo := r.askedTo + 1 }
      let r' := match stream with
        | none => r
        | some i =>
          let s := vGet r.inj i clearStream
          { r with
            reads := r.reads ++ [⟨r.askedTo - 1, r.cycle, s.handle, s.base + s.pos, s.steered, if s.steered then s.count % 256 else 0, none⟩]
            inj := vSet r.inj i s.advance }
      Core.askReads fuel { k with arch := { k.arch with router := r' } }

/-- The inject reads asked for are granted, but for those that wait for a pending write (R222) or for a place in the verify set (R202); an uncorrectable word stops the core (R189). -/
def Dev.serveReads (d : Dev) (c : CoreId) : Dev :=
  (d.arch c).router.reads.foldl (fun d x =>
    let a := d.arch c
    let bl := if (a.handle x.handle).bc then blocksOf c x.addr 32 else []
    if x.data.isSome || a.readWaits c x || !d.verifyRoom c bl then d
    else
      match d.localRead c x.addr 32 with
      | none => d.routerBad c x.addr 32
      | some bs => (d.updArch c fun a => { a with router := { a.router with reads := a.router.reads.map fun y =>
          if y = x then { y with data := some (BitVec.ofNat 256 (leNat bs)) } else y } }).listBlocks c 6 0 a.stat.lastPc a.stat.gear bl) d

/-- The beat that an inject read has brought (R222, R229). -/
def injectBeat (s : CoreStat) (x : InjRead) : Option Beat :=
  x.data.map fun v => ⟨v, s.gear, s.stepNo % 2, x.steered, false, x.seq, false⟩

/-- Sub-bank of a home bank that an access of the router takes: the bank's core and bits [7:6] of the address (R68, R222). -/
def subBank (c : CoreId) (addr : Nat) : Option (CoreId × Nat) :=
  match locate c addr with
  | .home o off => some (o, bits off 7 6)
  | _ => none

/-- Whether an eject write of the step cycle just executed and an inject read of the same cycle took one sub-bank (R222). -/
def Router.conflict (c : CoreId) (was now : Router) : Bool :=
  let wrote := (List.range 4).filterMap fun i =>
    let s := vGet was.ej i clearStream
    if (vGet now.ej i clearStream).count = s.count then none else subBank c (s.base + s.pos)
  (was.reads.filter fun x => x.asked = was.cycle && x.data.isSome).any fun x =>
    (subBank c x.addr).any fun b => wrote.contains b

/-- The oldest complete pair of a pairing buffer and the buffer without it (R231). -/
def releasePair : List PairEnt → Option ((Word × Beat) × List PairEnt)
  | [] => none
  | e :: rest =>
    match e.item with
    | .pair t b => some ((t, b), rest)
    | _ => (releasePair rest).map fun x => (x.1, e :: x.2)

/-- What an output drives: nothing or a beat. A source whose beat is steered drives a null beat: no steered beat moves without its token (R229; DESIGN CHOICE, log entry 111). -/
def driven (src : Nat) (got : NMap Beat) (inj : Option Beat) (null dl : Beat) : Option Beat :=
  let plain (b : Option Beat) : Beat := match b with
    | some b => if b.steered then null else b
    | none => null
  match src with
  | 0 => none
  | 5 => some (plain inj)
  | 6 => some dl
  | n => some (plain (nmGet got (n - 1)))

/-- The execution of a ROUTE entry that no condition of R219 holds (R216 to R233). -/
def Dev.runRoute (d : Dev) (c : CoreId) (out : List Nat) (ej steerIn steerDl : Nat) : Dev :=
  let d := d.zeroCounts c
  let (d, got) := d.popInputs c (namedInputs out steerIn) steerIn
  let injB := (d.arch c).router.due.bind (injectBeat (d.arch c).stat)
  let null := nullBeat (d.arch c).stat
  let release := if out.contains 6 then releasePair (vGet (d.arch c).router.pairing steerDl []) else none
  let d := match release with
    | some (_, rest) => d.updArch c fun a => { a with router := { a.router with
        pairing := vSet a.router.pairing steerDl rest } }
    | none => d
  let mask := match release with
    | some ((t, _), _) => bits t.toNat 12 8
    | none => 0
  let pairB := match release with
    | some ((_, b), _) => b
    | none => null
  let d := if release.isSome && mask = 0 then d.bump 0x4200 0xB 1 else d
  let drive (p : Nat) : Option Beat := driven (out.getD p 0) got injB null (if bit mask p then pairB else null)
  let d := (List.range 4).foldl (fun d p =>
    match drive p with
    | none => d
    | some b =>
      let (n, q) := acrossPort c p
      d.updArch n fun a => { a with router := { a.router with flying := a.router.flying ++ [(q, b)] } }) d
  let ejStream := match release with
    | some ((t, _), _) => if out.getD 4 0 = 6 && bit mask 4 then bits t.toNat 14 13 else ej
    | none => ej
  let toEject := drive 4
  let toPair := if steerIn = 5 then injB else if steerIn = 0 then none else nmGet got (steerIn - 1)
  let toPair := toPair.filter fun b => b.steered
  let bad := (toEject.any fun b => b.poisoned) || (toPair.any fun b => b.poisoned)
  let d := match toEject with
    | none => d
    | some b =>
      let s := vGet (d.arch c).router.ej ejStream clearStream
      if b.poisoned then d else (d.eject c ejStream b).getD (d.routerBad c (s.base + s.pos) 32)
  let d := match toPair with
    | none => d
    | some b => if b.poisoned then d else d.updArch c fun a => { a with router := { a.router with
        pairing := vSet a.router.pairing (steerBuffer steerIn) (pairBeat (vGet a.router.pairing (steerBuffer steerIn) []) b) } }
  let skew := release.isSome && (List.range 5).any fun p => bit mask p && out.getD p 0 != 6
  let d := if bad then d.routerStop c cBlockCheckFail else d
  if skew then (d.bump 0x4200 0xC 1).routerStop c cSteerSkew else d

/-- A step cycle passes at a router: waiting tokens and beats age, the entry's repeats run down and the program moves on (R215, R232). -/
def Core.routerPassed (k : Core) : Core :=
  let r := k.arch.router
  let older (e : PairEnt) : PairEnt := { e with age := e.age + 1 }
  let r := { r with
    cycle := r.cycle + 1, reads := r.reads.filter fun x => decide (r.cycle < x.cycle)
    pairing := r.pairing.map (List.map older) }
  { k with arch := { k.arch with router := r.onward (k.slot k.arch.stat.gear) } }

/-- A wait of one cycle that stops the router and the scalar unit (R219, R220); it is counted as a core hold (log entry 110). -/
def Dev.routerWaits (d : Dev) (c : CoreId) : Dev := (d.stallLate c 1).bump 0x4200 4 1

/-- A core hold: the tensor and vector units do not advance either (R219). -/
def Dev.holdCycle (d : Dev) (c : CoreId) : Dev := (d.updArch c Arch.held).routerWaits c

/-- A router that has work executes an entry, or waits for what R219 and R220 name. -/
def Dev.routeCycle (d : Dev) (c : CoreId) (out : List Nat) (ej steerIn steerDl : Nat) : Dev :=
  let r := (d.arch c).router
  if d.coreHold c out steerIn then d.holdCycle c
  else if r.due.any fun x => x.data.isNone then d.routerWaits c
  else
    let d := d.runRoute c out ej steerIn steerDl
    let d := if r.conflict c (d.arch c).router then d.holdCycle c else d
    d.updCore c Core.routerPassed

/-- The router of a core executes the entry of its next step cycle, when the core's issue count has reached it (R217, R222). -/
def Dev.switchCycle (d : Dev) (c : CoreId) : Dev :=
  let a := d.arch c
  if !(a.stat.run = .running || a.stat.run = .atGate) || decide (a.stat.issue < a.router.cycle) then d
  else if a.router.atEnd then (d.zeroCounts c).updCore c Core.routerPassed
  else
    let d := (d.updCore c (Core.askReads 4)).serveReads c
    let k := d.core c
    if k.arch.stat.run = .stopped then d
    else
      match (k.slot a.stat.gear).sw a.router.sw with
      | .route out _ ej steerIn steerDl _ => d.routeCycle c out ej steerIn steerDl
      | _ => d

/-- The meaning of SWITCH_ENTRY_EXECUTE. -/
def execSwitchEntryExecute (c : CoreId) (s : State) : Host.Outcome State Fault Refusal :=
  s.onDev fun d => d.switchCycle c

/-- First beat on the links towards a port, and the rest. -/
def takeFlying (port : Nat) : List (Nat × Beat) → Option (Beat × List (Nat × Beat))
  | [] => none
  | (p, b) :: rest => if p = port then some (b, rest) else (takeFlying port rest).map fun x => (x.1, (p, b) :: x.2)

/-- The meaning of BEAT_ARRIVAL (R218, R225): the oldest beat on its way to an input port joins that port's queue, which holds 8. -/
def execBeatArrival (c : CoreId) (port : Nat) (ecc : Ecc) (s : State) : Host.Outcome State Fault Refusal :=
  s.onDev fun d =>
    let r := (d.arch c).router
    match takeFlying port r.flying with
    | none => d
    | some (b, rest) =>
      let q := vGet r.inq port []
      if 4 ≤ port ∨ 8 ≤ q.length then d
      else
        let b := if ecc = .uncorrectable then { b with poisoned := true } else b
        let d := match ecc with
          | .clean => d
          | .corrected => d.bump 0x4200 6 1
          | .uncorrectable => d.bump 0x4200 7 1
        d.updArch c fun a => { a with router := { a.router with flying := rest, inq := vSet a.router.inq port (q ++ [b]) } }

/-- Whether a token or beat has waited unpaired in a pairing buffer for more than 64 step cycles (R232). -/
def Router.overdue (r : Router) : Bool :=
  r.pairing.toList.any fun l => l.any fun e => decide (64 < e.age) && match e.item with
    | .pair _ _ => false
    | _ => true

/-- The meaning of STEER_SKEW (R232). -/
def execSteerSkew (c : CoreId) (s : State) : Host.Outcome State Fault Refusal :=
  s.onDev fun d =>
    if (d.arch c).live && (d.arch c).router.overdue then (d.bump 0x4200 0xC 1).routerStop c cSteerSkew else d

end Sys2Proof.Machine
end

