-- ==== Sys2Proof/Machine/Gear.lean ====
section
/-! DEFINITION. Gears: plans, the broom, SHIFT (R209, R210, R265, R266, R271, R275 to R293). -/

namespace Sys2Proof.Machine

/-! ### Plans held in a slot (R210, R271) -/

/-- A 16-byte record of a slot's part. -/
def Slot.rec16 (s : Slot) (part i : Nat) : Nat := leNat (memRead (vGet s.parts part []) (16 * i) 16)

/-- Bytes of a part that a slot holds, by load target (R275, R280). -/
def Slot.partBytes (s : Slot) (t : Nat) : List Byte :=
  let p := vGet s.parts t []
  let len := match t with
    | 0 => 32
    | 1 => 8 * s.codeLen
    | 2 => 8 * s.swLen
    | 3 => 128
    | 4 => 256
    | 5 => 272 + 16 * bits (s.rec16 5 0) 30 24
    | 6 => 16 + 16 * bits (s.rec16 6 0) 29 24
    | _ => 64 + 4 * bits (leNat (memRead p 0 64)) 32 24
  memRead p 0 len

/-- A slot's gear image with the check field of its header as zero (R276). -/
def Slot.imageBytes (s : Slot) : List Byte :=
  (s.partBytes 0).take 16 ++ List.replicate 8 0#8 ++ (s.partBytes 0).drop 24
    ++ [1, 2, 3, 4, 5, 6, 7].flatMap s.partBytes

/-- A handle-table entry of a plan with its index (R203, R210). -/
def planHandle (n : Nat) : Nat × Handle :=
  (bits n 127 122,
    { base := bits n 31 0, length := bits n 63 32, kind := bits n 65 64, r := bit n 66, w := bit n 67, bc := bit n 68,
      valid := bit n 69, mode := bits n 71 70, copiesM1 := bits n 73 72, link := bits n 79 74, gen := 0, cgen := 0,
      dirty := false })

/-- The entries of a slot's handle plan (R210). -/
def Slot.handlePlan (s : Slot) : List (Nat × Handle) :=
  (List.range (bits (s.rec16 6 0) 29 24)).map fun i => planHandle (s.rec16 6 (i + 1))

/-- A plan's entry with the generation fields of the entry it replaces (R209). -/
def Handle.keeping (h o : Handle) (same : Bool) : Handle :=
  if same then { h with gen := o.gen, cgen := o.cgen, dirty := o.dirty } else h

/-- Whether two entries agree in the five fields that decide whether a replacing entry keeps its generations (R209). -/
def Handle.sameEntry (h o : Handle) : Bool :=
  o.base = h.base && o.length = h.length && o.kind = h.kind && o.mode = h.mode && o.copiesM1 = h.copiesM1

/-- Installs a handle plan: a replacing entry keeps gen, cgen and dirty when the five fields of R209 are unchanged. -/
def Arch.installHandles (a : Arch) (plan : List (Nat × Handle)) : Arch :=
  plan.foldl (fun a p =>
    let o := a.handle p.1
    { a with handles := nmSet a.handles p.1 (p.2.keeping o (o.valid && p.2.sameEntry o)) }) a

/-- Ring entry q of a slot's queue plan: base, size code, priority, enabled, incarnation (R271). -/
def Slot.ringPlan (s : Slot) (q : Nat) : Nat × Nat × Nat × Nat × Nat :=
  let n := s.rec16 5 (1 + q)
  (bits n 17 0, bits n 21 18, bits n 23 22, bits n 24 24, bits n 39 32)

/-- A channel of a queue plan with its allotment as credits (R262, R271). -/
def planChan (n : Nat) : Chan :=
  { dstX := bits n 7 0, dstY := bits n 15 8, dstDev := bits n 31 16, queue := bits n 35 32, mcast := bit n 36,
    inc := bits n 47 40, allot := bits n 59 48, sizeCode := bits n 63 60, x1 := bits n 71 64, y1 := bits n 79 72,
    credits := bits n 59 48, closed := false, seq := 0, inForce := true }

/-- The channels of a slot's queue plan. -/
def Slot.chanPlan (s : Slot) : List Chan :=
  (List.range (bits (s.rec16 5 0) 30 24)).map fun i => planChan (s.rec16 5 (17 + i))

/-- Whether two channels name one destination and ring. -/
def Chan.sameDest (a b : Chan) : Bool :=
  a.dstX = b.dstX && a.dstY = b.dstY && a.dstDev = b.dstDev && a.queue = b.queue && a.mcast = b.mcast

/-- Whether a plan's channel leaves an entry unchanged (R266). -/
def Chan.samePlan (a b : Chan) : Bool :=
  a.sameDest b && a.inc = b.inc && a.allot = b.allot && a.sizeCode = b.sizeCode && a.x1 = b.x1 && a.y1 = b.y1

/-- A plan's channel installed over the old ones: unchanged entries keep credits, sequence and state; a closed channel opens only with another incarnation (R266). -/
def installChan (old : List Chan) (n : Chan) : Chan :=
  match old.find? fun o => o.sameDest n with
  | none => n
  | some o =>
    if o.samePlan n then { o with inForce := true }
    else { n with closed := o.closed && o.inc = n.inc }

/-- Installs the channels of a plan; channels it lacks are kept out of force, so that later returns still find them (R262). -/
def MsgUnit.installChans (u : MsgUnit) (plan : List Chan) : MsgUnit :=
  let new := plan.map (installChan u.chans)
  let rest := (u.chans.filter fun o => !plan.any fun n => o.sameDest n).map fun o => { o with inForce := false }
  { u with chans := new ++ rest }

/-- Whether a plan's entry leaves a ring as it is (R265). -/
def Ring.keptBy (r : Ring) (p : Nat × Nat × Nat × Nat × Nat) : Bool := (r.base, r.sizeCode, r.prio, r.state, r.inc) = p

/-- Installs one ring entry: an entry that differs resets the ring (R265). -/
def Dev.installRing (d : Dev) (c : CoreId) (q : Nat) (p : Nat × Nat × Nat × Nat × Nat) : Dev :=
  if ((d.arch c).msg.ring q).keptBy p then d
  else
    (d.emptyRing c q).updMsg c fun u => u.updRing q fun r =>
      { r with base := p.1, sizeCode := p.2.1, prio := p.2.2.1, state := p.2.2.2.1, inc := p.2.2.2.2,
               wp := 0, rp := 0, occ := 0, held := 0, recs := [],
               passed := r.passed.map fun x => { x with inHeld := false } }

/-- Installs a slot's queue plan (R265, R266). -/
def Dev.installQueues (d : Dev) (c : CoreId) (slot : Nat) : Dev :=
  let s := (d.core c).slot slot
  let d := (List.range 16).foldl (fun d q => d.installRing c q (s.ringPlan q)) d
  d.updMsg c fun u => u.installChans s.chanPlan

/-! ### The broom (R291 to R293) -/

/-- A held message leaves the count of R604 before its delivery counts it again. -/
def Dev.uncount (d : Dev) (c : CoreId) (src : Sender) : Dev :=
  if src.dev = 0xFFFF ∧ d.sameRegion c ⟨src.x, src.y⟩ then d.updMsg c fun u => { u with doneIn := u.doneIn - 1 } else d

/-- What becomes of the later packets of a message that the broom held while they were awaited (R256, R291, R292): sinks as in Dev.expect. -/
def resink (h : MsgHdr) (sink : Nat) (place : Option (Nat × Nat)) : List Partial → List Partial
  | [] => []
  | p :: rest => if p.sink = 3 ∧ p.hdr = h then { p with sink := sink, place := place } :: rest else p :: resink h sink place rest

/-- Changes what becomes of the awaited packets of a held message that has not arrived whole. -/
def Dev.resink (d : Dev) (c : CoreId) (m : Msg) (sink : Nat) (place : Option (Nat × Nat)) : Dev :=
  if m.partly then d.updMsg c fun u => { u with partials := Machine.resink m.hdr sink place u.partials } else d

/-- Delivers one held message under rows 3 to 7 of R256 (R292); one that has not arrived whole goes on arriving where that puts it. -/
def Dev.broomDeliver (d : Dev) (c : CoreId) (gear : Nat) (mcast : Bool) (m : Msg) : Dev :=
  let d := d.uncount c (MsgHdr_src m.hdr)
  match deliveryCheck (d.core c) gear m.hdr with
  | .refuse code => (d.receiveRefusal c m.hdr mcast code).resink c m 0 none
  | .combine tree => (if m.partly then d.resink c m 2 none else d.combine c gear tree m mcast).bump 0x4400 6 1
  | .discard => (d.discardMsg c m.hdr mcast).resink c m 0 none
  | .place =>
    let (d, pos) := d.placeMsg c m.hdr (hdrWord m.hdr :: m.body) mcast (!m.partly)
    (d.resink c m 1 (some (m.hdr.queue, pos))).bump 0x4400 6 1

/-- Delivers the held messages of the gear in force in arrival order (R292). -/
def Dev.broomShift (d : Dev) (c : CoreId) : Dev :=
  let gear := (d.arch c).stat.gear
  let mine := (d.arch c).msg.broom.filter fun m => m.2.hdr.gear = gear
  let d := d.updMsg c fun u => { u with broom := u.broom.filter fun m => m.2.hdr.gear != gear }
  mine.foldl (fun d m => d.broomDeliver c gear m.1 m.2) d

/-- Discards the held messages of a retired slot under row 1 of R291. -/
def Dev.broomRetire (d : Dev) (c : CoreId) (slot : Nat) : Dev :=
  let mine := (d.arch c).msg.broom.filter fun m => m.2.hdr.gear = slot
  let d := d.updMsg c fun u => { u with broom := u.broom.filter fun m => m.2.hdr.gear != slot }
  mine.foldl (fun d m =>
    (((d.giveBack c (MsgHdr_src m.2.hdr) m.2.hdr.queue m.2.hdr.incarnation true m.1 m.2.hdr.length).resink c m.2 0 none).bump
      0x4400 7 1).eventCore c cBroomDiscard 3 0 0 0) d

/-! ### SHIFT (R86, R110, R226, R286 to R293) -/

/-- Whether the switch program is at END and every input queue and pairing buffer is empty (R226). -/
def Router.quiet (r : Router) : Bool :=
  r.atEnd && r.inq.toList.all (·.isEmpty) && r.pairing.toList.all (·.isEmpty)

/-- The wait of GATE and SHIFT for the tensor and the vector unit (R85, R86). -/
def arithWait (d : Dev) (c : CoreId) (w : At) : Except (Stall × At) At :=
  let a := d.arch c
  match w.waitIdle (vGet a.units 0 clearUnit) 0 with
  | none => .error (.unitsBusy 0, w)
  | some w =>
    match w.waitIdle (vGet a.units 1 clearUnit) 1 with
    | none => .error (.unitsBusy 1, w)
    | some w => .ok w

/-- Their wait for the message unit and the router (R85, R86, R226). -/
def sendWait (d : Dev) (c : CoreId) (w : At) : Except (Stall × At) At :=
  let a := d.arch c
  match w.waitIdle (vGet a.units 2 clearUnit) 2 with
  | none => .error (.unitsBusy 2, w)
  | some w => if a.router.quiet then .ok w else .error (.meshBusy, w)

/-- Refusals of SHIFT (R110, R293). -/
def shiftCheck (k : Core) (gear : Nat) (carry : Bool) (entry : Nat) : Option Code :=
  firstFail [
    (gear = k.arch.stat.gear || (k.slot gear).state != 2, cBadArgument),
    (!carry && !k.arch.msg.broom.isEmpty, cBadArgument),
    (!k.inCode gear entry, cBounds)]

/-- The end of a step's instructions in a step of which no switch-program entry has executed: what the first step cycle does comes first (R233). -/
def Dev.firstCycle (d : Dev) (c : CoreId) (f : Dev → Dev) : Dev :=
  let d := d.zeroCounts c
  if (d.arch c).live then f d else d

/-- The switch to another gear, all in one cycle (R286). -/
def Dev.shift (d : Dev) (c : CoreId) (gear : Nat) (carry : Bool) (entry : Nat) : Dev :=
  let d := d.updCore c fun k =>
    let a := { k.arch with
      stat := { k.arch.stat with gear := gear, pc := entry }
      msg := { k.arch.msg with carry := carry }, shifted := true }
    { k with
      arch := a.installHandles (k.slot gear).handlePlan
      usedSlots := (k.arch.stat.gear, k.arch.stat.stepNo) :: k.usedSlots.filter fun u => u.1 != k.arch.stat.gear
      slotEpoch := (k.slotEpoch + 1) % 2 ^ 32 }
  let d := d.updCore c Core.enterGear
  let resets := ((List.range 16).filter fun q => !((d.arch c).msg.ring q).keptBy (((d.core c).slot gear).ringPlan q)).length
  let d := ((d.installQueues c gear).bump 0x4400 1 1).bump 0x4300 9 resets
  if carry then d.broomShift c else d

/-- The meaning of SHIFT. -/
def execShift (c : CoreId) (g : Common) (gear : Nat) (carry : Bool) (entry : Nat) (s : State) :
    Host.Outcome State Fault Refusal :=
  s.onDev fun d => d.present c g ⟨0, true, []⟩
    { wait := fun d w => match arithWait d c w with
        | .error e => .error e
        | .ok w => sendWait d c w
      check := fun d _ => shiftCheck (d.core c) gear carry entry
      effect := fun d _ => d.firstCycle c fun d => d.shift c gear carry entry }

end Sys2Proof.Machine
end

