-- ==== Sys2Proof/Machine/Image.lean ====
section
/-! DEFINITION. Context images: their layout and the checks of admission (R153, R159, R185, R186, R211, R227, R272, R277, R294, R311, R337 to R345). -/

namespace Sys2Proof.Machine

/-! ### Layout (R337 to R340) -/

/-- A 16-byte tag (R340). -/
structure Tag where
  rect : Rect
  image : Nat
  parts : Nat
  bytes : Nat
  addr : Nat
deriving DecidableEq, Repr

/-- Reads a tag. -/
def tagOf (n : Nat) : Tag :=
  ⟨⟨bits n 7 0, bits n 15 8, bits n 23 16, bits n 31 24⟩, bits n 35 32, bits n 43 36, bits n 95 64, bits n 127 96⟩

/-- The tagged records of a section; none when they exceed it (R340). -/
def taggedRecs : Nat → List Byte → Option (List (Tag × List Byte))
  | 0, _ => some []
  | n + 1, bs =>
    let t := tagOf (leNat (bs.take 16))
    if bs.length < 16 + t.bytes then none
    else (taggedRecs n (bs.drop (16 + t.bytes))).map ((t, (bs.drop 16).take t.bytes) :: ·)

/-- The records of section 0x08: virtual address and bytes (R338). -/
def contentRecs : Nat → List Byte → Option (List (Nat × List Byte))
  | 0, _ => some []
  | n + 1, bs =>
    let va := leNat (bs.take 8)
    let len := leNat ((bs.drop 8).take 8)
    if bs.length < 16 + len then none
    else (contentRecs n (bs.drop (16 + len))).map ((va, (bs.drop 16).take len) :: ·)

/-- A section-directory entry (R338). -/
structure DirEnt where
  kind : Nat
  reserved : Nat
  count : Nat
  offset : Nat
deriving DecidableEq, Repr

/-- The section directory of an image. -/
def imageDir (bs : List Byte) : List DirEnt :=
  (List.range (bits (leNat (bs.take 16)) 27 24)).map fun i =>
    let n := leNat ((bs.drop (64 + 16 * i)).take 16)
    ⟨bits n 7 0, bits n 31 8, bits n 63 32, bits n 127 64⟩

/-- The bytes of a section of a kind, with its record count: to the next section's offset or to the image's end (R338). -/
def sectionOf (bs : List Byte) (imageBytes : Nat) (dir : List DirEnt) (kind : Nat) : List (Nat × List Byte) :=
  let stops := (dir.drop 1).map (·.offset) ++ [imageBytes]
  (dir.zip stops).filterMap fun p =>
    if p.1.kind = kind then some (p.1.count, (bs.drop p.1.offset).take (p.2 - p.1.offset)) else none

/-- A region record (R339). -/
def regionOf (n : Nat) : RegionRec :=
  { region := bits n 5 0, cx0 := bits n 15 8, cy0 := bits n 23 16, cw := bits n 31 24, ch := bits n 39 32,
    init := Vector.ofFn fun s : Fin 4 => bits n (43 + 4 * s.val) (40 + 4 * s.val), entrySlot := bits n 57 56 }

/-- A segment record (R311). -/
def segmentOf (n : Nat) : Segment :=
  { kind := bits n 17 16, r := bit n 18, w := bit n 19, pinned := bit n 20, large := bit n 21, nearOk := bit n 22,
    fill := bit n 23, base := bits n 79 32, length := bits n 127 80,
    dev := if bits n 17 16 = 1 then bits n 143 128 else 0, lease := if bits n 17 16 = 1 then bits n 159 144 else 0,
    window := if bits n 17 16 = 2 then bits n 135 128 else 0, backOff := bits n 191 160 }

/-- A sparse plan with its defaults (R185, R187). -/
def Dev.sparsePlanOf (d : Dev) (n : Nat) : SparsePlan :=
  { hashEn := bit n 16
    crossover := if bits n 47 32 = 0 then d.objD 0x4100 1 384 else bits n 47 32
    split := if bits n 63 48 = 0 then d.objD 0x4100 2 1024 else bits n 63 48
    spillBase := bits n 95 64, spillLog2 := bits n 103 96, keyBound := bits n 127 104 }

/-- A reduction-tree record (R159). -/
def treeOf (t : Tag) (bs : List Byte) : TreeRec :=
  let n := leNat (bs.take 16)
  { rect := t.rect, image := t.image, tree := bits n 21 16, rowsM1 := bits n 39 36, partFmt := bits n 43 40,
    rootRow := bits n 55 48
    leaves := (List.range (bits n 35 24 + 1)).map fun i =>
      let l := leNat ((bs.drop (16 + 4 * i)).take 4)
      ⟨bits l 7 0, bits l 15 8, bits l 31 16⟩ }

/-- `n` records of a fixed size. -/
def fixedRecs (size n : Nat) (bs : List Byte) : List Nat :=
  (List.range n).map fun i => leNat ((bs.drop (size * i)).take size)

/-- An image's contents, once its sections are known to be well placed; none when a record exceeds its section. -/
def Dev.readImage (d : Dev) (bs : List Byte) : Option Image :=
  let h := leNat (bs.take 64)
  let len := bits h 127 64
  let dir := imageDir bs
  let sec (k : Nat) : Nat × List Byte := (sectionOf bs len dir k).headD (0, [])
  let fixed (k size : Nat) : Option (List Nat) :=
    if (sec k).2.length < size * (sec k).1 then none else some (fixedRecs size (sec k).1 (sec k).2)
  let tagged (k : Nat) : Option (List (Tag × List Byte)) :=
    (sectionOf bs len dir k).foldr (fun s acc => match taggedRecs s.1 s.2, acc with
      | some a, some b => some (a ++ b)
      | _, _ => none) (some [])
  match fixed 1 16, tagged 2, tagged 3, fixed 4 32, tagged 5, tagged 7,
      (sectionOf bs len dir 8).foldr (fun s acc => match contentRecs s.1 s.2, acc with
        | some a, some b => some (a ++ b)
        | _, _ => none) (some []), tagged 9 with
  | some regions, some gears, some sparse, some segs, some trees, some contents, some segContents, some marks => some
    { horizon := bits h 17 16, cls := bits h 20 18, reduceInstM1 := bits h 31 28, roundKey := bits h 191 128,
      holdBytes := bits h 223 192, msgHoldBytes := bits h 255 224, reduceUnits := bits h 271 256, imageBytes := len,
      regions := regions.map regionOf
      gears := gears.map fun p => ⟨p.1.rect, p.1.image, p.1.parts, p.2⟩
      sparse := sparse.map fun p => (p.1.rect, d.sparsePlanOf (leNat (p.2.take 16))), noPlan := d.sparsePlanOf 0
      segments := segs.map segmentOf
      trees := trees.map fun p => treeOf p.1 p.2
      act := (sec 6).2
      contents := contents.map fun p => ⟨p.1.rect, p.1.addr, p.2⟩
      segContents := segContents
      marks := marks.map fun p => ⟨p.1.rect, p.1.image, leNat (p.2.take 8)⟩ }
  | _, _, _, _, _, _, _, _ => none

/-! ### Regions and cores -/

/-- The core rectangle of a region. -/
def RegionRec.rect (r : RegionRec) : Rect := ⟨2 * r.cx0, 2 * r.cy0, 2 * (r.cx0 + r.cw) - 1, 2 * (r.cy0 + r.ch) - 1⟩

/-- The cores of a rectangle, row by row. -/
def Rect.cores (r : Rect) : List CoreId :=
  (List.range (r.y1 + 1 - r.y0)).flatMap fun j => (List.range (r.x1 + 1 - r.x0)).map fun i => ⟨r.x0 + i, r.y0 + j⟩

/-- Whether a rectangle holds a core. -/
def Rect.has (r : Rect) (c : CoreId) : Bool :=
  decide (r.x0 ≤ c.x) && decide (c.x ≤ r.x1) && decide (r.y0 ≤ c.y) && decide (c.y ≤ r.y1)

/-- Whether one rectangle lies within another. -/
def Rect.within (a b : Rect) : Bool :=
  decide (a.x0 ≤ a.x1) && decide (a.y0 ≤ a.y1) && decide (b.x0 ≤ a.x0) && decide (a.x1 ≤ b.x1) && decide (b.y0 ≤ a.y0)
    && decide (a.y1 ≤ b.y1)

/-- Whether two rectangles meet. -/
def Rect.meets (a b : Rect) : Bool :=
  decide (a.x0 ≤ b.x1) && decide (b.x0 ≤ a.x1) && decide (a.y0 ≤ b.y1) && decide (b.y0 ≤ a.y1)

/-- The cores of a region. -/
def RegionRec.cores (r : RegionRec) : List CoreId := if r.cw = 0 ∨ r.ch = 0 then [] else r.rect.cores

/-- The cores of an image with their regions. -/
def Image.cores (m : Image) : List (CoreId × RegionRec) := m.regions.flatMap fun r => r.cores.map fun c => (c, r)

/-- The region of an image that holds a core. -/
def Image.regionAt (m : Image) (c : CoreId) : Option RegionRec := m.regions.find? fun r => r.rect.has c

/-- The sparse plan of a core (R338). -/
def Image.planAt (m : Image) (c : CoreId) : SparsePlan :=
  ((m.sparse.find? fun p => p.1.has c).map Prod.snd).getD m.noPlan

/-! ### Gear images (R276, R340) -/

/-- Length of a part, from the gear header and from the part itself (R275, R340). -/
def gearPartLen (hdr t : Nat) (bs : List Byte) : Nat :=
  match t with
  | 0 => 32
  | 1 => 8 * bits hdr 48 36
  | 2 => 8 * bits hdr 69 59
  | 3 => 128
  | 4 => 256
  | 5 => 272 + 16 * bits (leNat (bs.take 16)) 30 24
  | 6 => 16 + 16 * bits (leNat (bs.take 16)) 29 24
  | _ => 64 + 4 * bits (leNat (bs.take 64)) 32 24

/-- Part t of a gear-image record, walking the parts its mask names in target order; none when it is cut short. -/
def gearPart (hdr mask t : Nat) : List Nat → List Byte → Option (List Byte)
  | [], _ => none
  | i :: rest, bs =>
    if !bit mask i then gearPart hdr mask t rest bs
    else
      let n := gearPartLen hdr i bs
      if i = t then (if bs.length < n then none else some (bs.take n)) else gearPart hdr mask t rest (bs.drop n)

/-- The records that carry part t of a core's image. -/
def Image.partRecs (m : Image) (c : CoreId) (image t : Nat) : List GearRec :=
  m.gears.filter fun g => g.image = image && bit g.parts t && g.rect.has c

/-- Gear header of a core's image. -/
def Image.gearHdr (m : Image) (c : CoreId) (image : Nat) : Nat :=
  match m.partRecs c image 0 with
  | g :: _ => leNat (g.bytes.take 32)
  | [] => 0

/-- Part t of a core's image. -/
def Image.part (m : Image) (c : CoreId) (image t : Nat) : Option (List Byte) :=
  match m.partRecs c image t with
  | g :: _ => gearPart (m.gearHdr c image) g.parts t [0, 1, 2, 3, 4, 5, 6, 7] g.bytes
  | [] => none

/-- A core's image as a resident slot holds it. -/
def Image.slot (m : Image) (c : CoreId) (image : Nat) : Slot :=
  { state := 2, image := image, loadId := 0, header := true
    parts := Vector.ofFn fun t : Fin 8 => memWrite [] 0 ((m.part c image t.val).getD []) }

/-- Whether an image index has records for a core. -/
def Image.hasImage (m : Image) (c : CoreId) (image : Nat) : Bool :=
  m.gears.any fun g => g.image = image && g.rect.has c

/-- The image indices that a core has. -/
def Image.imagesOf (m : Image) (c : CoreId) : List Nat := (List.range 16).filter fun i => m.hasImage c i

/-! ### Checks of one gear image (R227, R277) -/

/-- Rows 1 to 6 of R277 for an assembled image. -/
def gearCheck (s : Slot) : Option Code :=
  let h := leNat (memRead (vGet s.parts 0 []) 0 32)
  let cad := leNat (memRead (vGet s.parts 7 []) 0 64)
  let slot := bits h 17 16
  let period := bits cad 32 24
  let hwBad := (List.range 16).any fun q => decide (bits cad (139 + 12 * q) (128 + 12 * q) > ringUnits (s.ringPlan q).2.1 - 1)
  firstFail [
    (bits h 15 8 != 1, cUnsupportedVersion),
    (bits h 23 18 != 0 || bits h 127 92 != 0 || bits h 255 192 != 0, cReservedNonzero),
    (crc64 s.imageBytes != bits h 191 128, cBlockCheckFail),
    (decide (4096 < s.codeBase + s.codeLen) || decide (1024 < s.swBase + s.swLen) || s.codeBase % 2 = 1 || s.codeLen % 2 = 1
      || s.swBase % 2 = 1 || s.swLen % 2 = 1 || !(decide (s.codeBase ≤ s.startIdx) && decide (s.startIdx < s.codeBase + s.codeLen))
      || !(decide (s.swBase ≤ s.swEntry) && decide (s.swEntry < s.swBase + s.swLen)), cAdmissionRefused),
    (bits (s.rec16 5 0) 17 16 != slot || bits (s.rec16 6 0) 17 16 != slot, cAdmissionRefused),
    (bits cad 15 8 != 1, cUnsupportedVersion),
    (bits cad 17 16 != slot || period = 0 || decide (256 < period) || hwBad, cAdmissionRefused)]

/-- Whether a ROUTE, LOOP or END entry breaks R227 at a core of a region. -/
def swEntryBad (s : Slot) (c : CoreId) (r : Rect) (n : Nat) : Bool :=
  if 3 ≤ bits n 63 60 then true
  else
    match swEntryOf n with
    | .stop => false
    | .loop target _ _ => !(decide (s.swBase ≤ target) && decide (target < s.swBase + s.swLen))
    | .route out _ _ steerIn steerDl _ =>
      out.any (fun o => o = 7) || decide (6 ≤ steerIn) || decide (5 ≤ steerDl)
        || (out.getD 0 0 != 0 && c.y = r.y0) || (out.getD 1 0 != 0 && c.x = r.x1)
        || (out.getD 2 0 != 0 && c.y = r.y1) || (out.getD 3 0 != 0 && c.x = r.x0)

/-- Whether an entry takes a beat from inject stream i, or for i from 4 drives eject stream i - 4 (R215). -/
def SwEntry.uses (e : SwEntry) (i : Nat) : Bool :=
  match e with
  | .route out inj ej steerIn _ _ =>
    if i < 4 then inj = i && (out.contains 5 || steerIn = 5) else ej + 4 = i && out.getD 4 0 != 0
  | _ => false

/-- Length of the buffer that an entry of a slot's plan reaches: a write view reaches its paired entry's (R204). -/
def Slot.planLength (s : Slot) (h : Handle) : Nat :=
  if h.mode = 2 then ((s.handlePlan.find? fun p => p.1 = h.link).map fun p => p.2.length).getD 0 else h.length

/-- Whether stream descriptor i breaks R221 or exceeds its handle (R227); a descriptor of all zeros describes no stream, which no entry may then use (log entry 23). -/
def streamBad (s : Slot) (entries : List SwEntry) (i : Nat) : Bool :=
  let n := s.rec16 3 i
  if n = 0 then entries.any fun e => e.uses i
  else
    match s.handlePlan.find? fun p => p.1 = bits n 5 0 with
    | none => true
    | some (_, h) =>
      let len := s.planLength h
      let win := bits n 79 48
      let start := bits n 47 16
      let co := bits n 111 80
      let counted := decide (4 ≤ i) && bit n 8
      bits n 7 6 != 0 || bits n 15 9 != 0 || bits n 127 112 != 0 || h.kind != 0 || (decide (i < 4) && !h.r) || (decide (4 ≤ i) && !h.w) || start % 32 != 0 || win % 32 != 0
        || decide (win < 32) || decide (len < start + win)
        || (counted && (co % 4 != 0 || decide (len < co + 4) || rangesMeet co 4 start win))

/-- The checks of R227 on an assembled image. -/
def meshCheck (s : Slot) (c : CoreId) (r : Rect) : Option Code :=
  let entries := (List.range s.swLen).map fun i => leNat (memRead (vGet s.parts 2 []) (8 * i) 8)
  if entries.any (swEntryBad s c r) || (List.range 8).any (streamBad s (entries.map swEntryOf)) then some cAdmissionRefused else none

/-- Row 7 of R277: initial gears of one core whose code or switch ranges overlap. -/
def initOverlap (slots : List Slot) : Bool :=
  let rec go : List Slot → Bool
    | [] => false
    | s :: rest => rest.any (fun t => rangesMeet s.codeBase s.codeLen t.codeBase t.codeLen
        || rangesMeet s.swBase s.swLen t.swBase t.swLen) || go rest
  go slots

/-! ### Handle plans (R211, R289) -/

/-- Base and size of the local range of a handle kind (R63). -/
def kindRange (kind : Nat) : Nat × Nat :=
  match kind with
  | 0 => (0, 0x40000)
  | 1 => (0x100000, 0x100000)
  | 2 => (0x40000000, 0x6000000)
  | _ => (0x200000, 0x10000)

/-- Copies of an entry. -/
def Handle.copies (h : Handle) : Nat := if h.mode = 1 then h.copiesM1 + 1 else 1

/-- The checks of R211 on a handle plan, with the write marks of R338. -/
def handlePlanCheck (s : Slot) (horizon : Nat) (hashEn : Bool) (mark : Option Nat) : Option Code :=
  let h := s.rec16 6 0
  let count := bits h 29 24
  let raws := (List.range count).map fun i => s.rec16 6 (i + 1)
  let es := s.handlePlan
  let twice := (es.map Prod.fst).dedup.length != es.length
  let viewBad (e : Nat × Handle) : Bool := e.2.mode = 2 && (e.2.base != 0 || e.2.length != 0 ||
    !es.any fun p => p.1 = e.2.link && p.2.mode = 1 && p.2.kind = e.2.kind)
  let written (e : Nat × Handle) : Bool := match mark with
    | some k => bit k e.1
    | none => e.2.w
  firstFail [
    (bits h 15 8 != 1, cUnsupportedVersion),
    (bits h 23 18 != 0 || bits h 127 30 != 0 || raws.any (fun n => bits n 71 70 = 3 || bits n 121 85 != 0 || !bit n 69
      || bits n 84 80 != 0), cReservedNonzero),
    (es.any (fun e => decide (0x6000000 < e.2.length)), cLengthTooLarge),
    (es.any (fun e => e.1 = 63) || twice || es.any viewBad, cAdmissionRefused),
    (es.any (fun e => e.2.base % 64 != 0 || e.2.length % 64 != 0
      || (e.2.bc && (e.2.base % 4096 != 0 || e.2.length % 4096 != 0))), cAdmissionRefused),
    (es.any (fun e => e.2.mode != 2 && (decide (e.2.base < (kindRange e.2.kind).1)
      || decide ((kindRange e.2.kind).1 + (kindRange e.2.kind).2 < e.2.base + e.2.copies * e.2.length))), cAdmissionRefused),
    (es.any (fun e => e.2.kind = 3 && (e.2.mode != 0 || e.2.bc
      || (hashEn && rangesMeet e.2.base e.2.length 0x208000 0x8000))), cAdmissionRefused),
    (es.any (fun e => e.2.mode = 1 && written e && decide (e.2.copiesM1 + 1 < horizon + 2)), cAdmissionRefused),
    (es.any (fun e => e.2.kind ≤ 1 && (List.range 5).any fun k => rangesMeet e.2.base (e.2.copies * e.2.length)
      (if k = 0 then 0x3F800 else 0x100000 + (k - 1) * 0x40000 + 0x3F800) 0x800), cAdmissionRefused)]

/-! ### Queue plans and handler tables (R272) -/

/-- Rows 1 to 3 of R272 for one gear image. -/
def queuePlanCheck (s : Slot) : Option Code :=
  let h := s.rec16 5 0
  let rings := (List.range 16).map fun q => s.rec16 5 (1 + q)
  let chans := (List.range (bits h 30 24)).map fun i => s.rec16 5 (17 + i)
  let hands := (List.range 64).map fun i => leNat (memRead (vGet s.parts 4 []) (4 * i) 4)
  let on := rings.filter fun n => bit n 24
  let size (n : Nat) : Nat := 256 * 2 ^ bits n 21 18
  let rec meet : List Nat → Bool
    | [] => false
    | n :: rest => rest.any (fun m => rangesMeet (bits n 17 0) (256 * 2 ^ bits n 21 18) (bits m 17 0) (256 * 2 ^ bits m 21 18))
        || meet rest
  firstFail [
    (bits h 15 8 != 1, cUnsupportedVersion),
    (bits h 23 18 != 0 || bits h 127 31 != 0 || rings.any (fun n => bits n 31 25 != 0 || bits n 127 52 != 0 || decide (9 ≤ bits n 21 18))
      || chans.any (fun n => bits n 39 37 != 0 || bits n 127 80 != 0 || decide (9 ≤ bits n 63 60) || bits n 59 48 = 0)
      || hands.any (fun n => decide (3 ≤ bits n 3 0) || bits n 15 10 != 0) || hands.headD 0 != 0, cReservedNonzero),
    (rings.any (fun n => bits n 17 0 % size n != 0 || rangesMeet (bits n 17 0) (size n) 0x3F800 0x800) || meet on,
      cAdmissionRefused)]

/-- A core's image with its place, for the checks across cores. -/
structure Placed where
  core : CoreId
  region : RegionRec
  image : Nat
  slot : Slot

/-- Every image of every core. -/
def Image.placed (m : Image) : List Placed :=
  m.cores.flatMap fun p => (m.imagesOf p.1).map fun i => ⟨p.1, p.2, i, m.slot p.1 i⟩

/-- Units that the valid steering rules of a bank grant to a ring of a core in a gear (R480, R481). -/
def steerAllot (rules : NMap Nat) (ctx x y gear q : Nat) : Nat :=
  ((rules.filter fun p => bit p.2 16 && bits p.2 61 48 = ctx && bits p.2 63 62 = gear && bits p.2 71 64 = x
    && bits p.2 79 72 = y && bits p.2 83 80 = q).map fun p => bits p.2 103 92).sum

/-- Whether the rules of a bank grant more than the remote units of some ring (R481). -/
def Image.steerOver (m : Image) (rules : NMap Nat) (ctx : Nat) : Bool :=
  m.placed.any fun t => (List.range 16).any fun q =>
    let n := t.slot.rec16 5 (1 + q)
    decide ((if bit n 24 then bits n 51 40 else 0) < steerAllot rules ctx t.core.x t.core.y (bits (m.gearHdr t.core t.image) 17 16) q)

/-- Whether a local channel's ring at a core is outside the context, disabled, or of another size or incarnation (row 4 of R272). -/
def ringBad (all : List Placed) (p : Placed) (k : Chan) (c : CoreId) : Bool :=
  match all.find? fun t => t.core = c && t.image = p.image with
  | none => true
  | some t =>
    let r := t.slot.ringPlan k.queue
    r.2.2.2.1 != 1 || r.2.1 != k.sizeCode || r.2.2.2.2 != k.inc

/-- Row 4 of R272 for one channel of a placed image; a channel to a send queue is accepted under R484, `sendUnits` being eth.sendq.units. -/
def chanBad (sendUnits : Nat) (all : List Placed) (p : Placed) (k : Chan) : Bool :=
  if k.dstX = 0xF0 ∧ k.dstDev = 0xFFFF ∧ !k.mcast then
    decide (64 ≤ k.dstY) || k.queue != 0 || k.sizeCode != 0 || k.inc != 0 || decide (sendUnits < k.allot)
  else if k.mcast then
    decide (k.x1 < k.dstX) || decide (k.y1 < k.dstY) || k.dstDev != 0xFFFF
      || !(Rect.within ⟨k.dstX, k.dstY, k.x1, k.y1⟩ p.region.rect)
      || (Rect.cores ⟨k.dstX, k.dstY, k.x1, k.y1⟩).any fun c => ringBad all p k c
  else if k.dstDev != 0xFFFF then false
  else ringBad all p k ⟨k.dstX, k.dstY⟩

/-- Rows 4 to 6 of R272 over all gear images. -/
def queueCheckAll (sendUnits : Nat) (all : List Placed) (trees : List TreeRec) : Option Code :=
  let dupChan (p : Placed) : Bool := (p.slot.chanPlan.map fun k => (k.dstX, k.dstY, k.dstDev, k.queue)).dedup.length
    != p.slot.chanPlan.length
  let treeAt (p : Placed) (n : Nat) : Bool := trees.any fun t => t.image = p.image && t.tree = n && t.rect.has p.core
  let handlersDiffer (p q : Placed) : Bool := p.image = q.image && (List.range 64).any fun i =>
    ((p.slot.handler i).1 = 2 || (q.slot.handler i).1 = 2) && p.slot.handler i != q.slot.handler i
  let rec differ : List Placed → Bool
    | [] => false
    | p :: rest => rest.any (handlersDiffer p) || differ rest
  let lacksTree (p : Placed) : Bool := (List.range 64).any fun i =>
    (p.slot.handler i).1 = 2 && !treeAt p (p.slot.handler i).2.1
  let reaches (p t : Placed) (q : Nat) (k : Chan) : Bool := p.image = t.image && k.dstDev = 0xFFFF && k.queue = q
    && (if k.mcast then Rect.has ⟨k.dstX, k.dstY, k.x1, k.y1⟩ t.core else t.core = ⟨k.dstX, k.dstY⟩)
  let overfull (t : Placed) (q : Nat) : Bool :=
    let n := t.slot.rec16 5 (1 + q)
    let remote := bits n 51 40
    let as := all.flatMap fun p => (p.slot.chanPlan.filter fun k => reaches p t q k).map (·.allot)
    let aMax := as.foldl max remote
    bit n 24 && decide (ringUnits (bits n 21 18) - 1 < as.sum + remote + (aMax - 1))
  firstFail [
    (all.any (fun p => dupChan p || p.slot.chanPlan.any (chanBad sendUnits all p)), cAdmissionRefused),
    (differ all || all.any lacksTree, cAdmissionRefused),
    (all.any (fun t => (List.range 16).any (overfull t)), cQueuePlan)]

/-! ### Sparse plans, trees, activation table, segments (R153, R159, R186, R311) -/

/-- The checks of R186 on a raw plan record. -/
def sparseCheck (n : Nat) : Option Code :=
  let log2 := bits n 103 96
  let slots := if log2 = 0 then 0 else 2 ^ log2
  let en := bit n 16
  firstFail [
    (bits n 15 8 != 1, cUnsupportedVersion),
    (en && decide (slots < bits n 127 104), cSpillBound),
    (decide (1024 < bits n 47 32), cAdmissionRefused),
    (en && ((decide (1 ≤ log2) && decide (log2 ≤ 7)) || decide (20 ≤ log2)), cAdmissionRefused),
    (en && (bits n 95 64 % 4096 != 0 || decide (0x1800000 < bits n 95 64 + 32 * slots)), cAdmissionRefused)]

/-- Whether a tree's result reaches the hash-indexed accumulator of its root core (R179). -/
def Image.rootMeetsHash (m : Image) (tr : TreeRec) : Bool :=
  match tr.leaves with
  | l :: _ => l.dev = 0xFFFF && (m.planAt ⟨l.x, l.y⟩).hashEn && decide (128 ≤ tr.rootRow + tr.rowsM1)
  | [] => false

/-- The checks of R159, R163 and R179 on one tree record. -/
def treeCheck (m : Image) (t : Tag) (bs : List Byte) : Bool :=
  let n := leNat (bs.take 16)
  let tr := treeOf t bs
  bits n 15 8 != 1 || decide (bits n 43 40 < 7) || decide (10 < bits n 43 40) || tr.rowsM1 = 15 || tr.leaves.length < 2
    || tr.leaves.any (fun l => l.dev = 0xFFFF && (m.regionAt ⟨l.x, l.y⟩).isNone) || decide (255 < tr.rootRow + tr.rowsM1)
    || decide (bs.length < 16 + 4 * tr.leaves.length) || m.rootMeetsHash tr

/-- Two trees of one number that a core's gear holds (R159). -/
def treesTwice : List TreeRec → Bool
  | [] => false
  | t :: rest => rest.any (fun u => u.image = t.image && u.tree = t.tree && u.rect.meets t.rect) || treesTwice rest

/-- Whether an FP32 word is finite. -/
def f32Finite (w : Word) : Bool := bits w.toNat 30 23 != 255

/-- Order key of a finite FP32 word. -/
def f32Key (w : Word) : Int := if bit w.toNat 31 then -(bits w.toNat 30 0 : Int) else (bits w.toNat 30 0 : Int)

/-- The checks of R153. -/
def actBad (bs : List Byte) : Bool :=
  let h := leNat (bs.take 32)
  let brk := (List.range 64).map fun i => f32At bs (8 + i)
  let rec ascends : List Word → Bool
    | a :: b :: rest => decide (f32Key a < f32Key b) && ascends (b :: rest)
    | _ => true
  let xMax := f32At bs 3
  decide (bs.length < 1312) || bits h 15 8 != 1 || brk.any (fun w => !f32Finite w) || !ascends brk || !f32Finite xMax
    || decide (f32Key xMax ≤ f32Key (brk.getLastD 0#32)) || decide (3 ≤ bits h 23 16) || decide (3 ≤ bits h 31 24)
    || (bits h 23 16 = 1 && !f32Finite (f32At bs 1)) || (bits h 31 24 = 1 && !f32Finite (f32At bs 2))

/-- Segments that overlap. -/
def segsMeet : List Segment → Bool
  | [] => false
  | s :: rest => rest.any (fun t => rangesMeet s.base s.length t.base t.length) || segsMeet rest

/-- Whether a segment's base or length is misaligned (R311). -/
def Segment.misaligned (s : Segment) : Bool :=
  let a := if s.large then 0x200000 else 0x10000
  s.length = 0 || s.base % a != 0 || s.length % a != 0

/-! ### Reservation (R331, R344) -/

/-- 64 KiB frames that hold n bytes. -/
def framesFor (n : Nat) : Nat := ceilDiv n 65536

/-- Frames of a context's page tables (R312, R344): one root, and the level-2 and level-3 tables that its segments reach. -/
def tableFrames (segs : List Segment) : Nat :=
  let pages (sh : Nat) : Nat := (segs.flatMap fun s =>
    (List.range ((s.base + s.length - 1) / 2 ^ sh - s.base / 2 ^ sh + 1)).map fun i => s.base / 2 ^ sh + i).dedup.length
  framesFor (16384 + 16384 * pages 37 + 8192 * pages 26)

/-- Bytes that ranges in rising order of their starts cover, those below `from_` counted already. -/
def covered : Nat → List (Nat × Nat) → Nat
  | _, [] => 0
  | from_, (a, n) :: rest => (a + n - max from_ a) + covered (max from_ (a + n)) rest

/-- Near-store bytes that a core's handle plans and spill table cover, each once (R331). -/
def Image.nearBytes (m : Image) (c : CoreId) : Nat :=
  let hs := (m.imagesOf c).flatMap fun i => (m.slot c i).handlePlan.filterMap fun p =>
    if p.2.kind = 2 && p.2.mode != 2 then some (p.2.base, p.2.copies * p.2.length) else none
  let plan := m.planAt c
  let spill := if plan.hashEn && plan.spillLog2 != 0 then
    [(0x40000000 + kIndex c * 0x1800000 + plan.spillBase, 32 * 2 ^ plan.spillLog2)] else []
  covered 0 ((hs ++ spill).insertionSort fun a b => a.1 ≤ b.1)

/-- Frames of segments that are homed locally (R318). -/
def Image.segFrames (m : Image) : Nat := ((m.segments.filter fun s => s.kind = 0 || s.fill).map fun s => s.length / 65536).sum

/-- Frames of a context's reservation that are allocated at load (R318, R331, R332, R344), each item rounded up on its own. -/
def Image.fixedFrames (m : Image) (kept : Nat) : Nat :=
  tableFrames m.segments + framesFor kept + framesFor ((m.contents.map fun r => r.bytes.length).sum)
    + (m.cores.map fun p => framesFor (368640 + m.nearBytes p.1)).sum
    + framesFor ((m.horizon + 1) * m.holdBytes) + framesFor ((m.horizon + 1) * m.msgHoldBytes)

/-- The frames of a context's reservation (R344). -/
def Image.frames (m : Image) (kept : Nat) : Nat := m.fixedFrames kept + m.segFrames

/-- Frames of tier 2 that hold data (R306). -/
def totalFrames : Nat := 37675008

/-- Frames that no context has allocated or reserved, without the retired ones (R318). -/
def Dev.freeFrames (d : Dev) : Nat :=
  totalFrames - (d.t2.used ++ d.keep.frames).dedup.length - (d.ctxs.map fun p => p.2.reservedFrames).sum - d.t2.pinned

/-! ### Admission (R341, R343) -/

/-- Bytes of the reduction area that a core needs for one gear image (R341). -/
def Image.reduceNeed (m : Image) (c : CoreId) (image : Nat) : Nat :=
  ((m.trees.filter fun t => t.image = image && t.rect.has c).map fun t =>
    match t.rank c with
    | none => 0
    | some r =>
      let n := ((List.range (clog2 t.leaves.length)).filter fun l => r % 2 ^ (l + 1) = 0).length
      n * (t.rowsM1 + 1) * 256 * (m.reduceInstM1 + 1)).sum

/-- Row 10 of R343 for one core. -/
def Image.reduceBad (m : Image) (all : List Placed) (c : CoreId) : Bool :=
  let size := m.reduceUnits * 16
  let base := 0x3F800 - size
  let mine := all.filter fun p => p.core = c
  let cell := all.filter fun p => p.core.x / 2 = c.x / 2 && p.core.y / 2 = c.y / 2
  (m.imagesOf c).any (fun i => decide (size < m.reduceNeed c i))
    || (size != 0 && (mine.any (fun p => (List.range 16).any fun q =>
        (p.slot.ringPlan q).2.2.2.1 = 1 && rangesMeet (p.slot.ringPlan q).1 (256 * 2 ^ (p.slot.ringPlan q).2.1) base size)
      || mine.any (fun p => p.slot.handlePlan.any fun h => h.2.kind = 0 && h.2.mode != 2 &&
        rangesMeet h.2.base (h.2.copies * h.2.length) base size)
      || cell.any (fun p => p.slot.handlePlan.any fun h => h.2.kind = 1 && h.2.mode != 2 &&
        rangesMeet h.2.base (h.2.copies * h.2.length) (0x100000 + kIndex c * 0x40000 + base) size)))

/-- Whether a section 0x07 record breaks row 9 of R343. -/
def contentBad (r : ContentRec) : Bool :=
  let inside (k : Nat) : Bool := decide ((kindRange k).1 ≤ r.addr) &&
    decide (r.addr + r.bytes.length ≤ (kindRange k).1 + (kindRange k).2)
  !(inside 0 || inside 1 || inside 2 || inside 3)
    || (List.range 5).any fun k => rangesMeet r.addr r.bytes.length
      (if k = 0 then 0x3F800 else 0x100000 + (k - 1) * 0x40000 + 0x3F800) 0x800

/-- First failure of a list of checks. -/
def firstCode : List (Option Code) → Option Code
  | [] => none
  | some c :: _ => some c
  | none :: rest => firstCode rest

/-- Rows 2 to 5 of R343. -/
def imageFrameCheck (bs : List Byte) : Option Code :=
  let h := leNat (bs.take 64)
  let len := bits h 127 64
  let dir := imageDir bs
  let kinds := dir.map (·.kind)
  let count (k : Nat) : Nat := (kinds.filter fun x => x = k).length
  let zeroed := bs.take 56 ++ List.replicate 8 0#8 ++ (bs.take len).drop 64
  let rec rises : List Nat → Bool
    | a :: b :: rest => decide (a ≤ b) && rises (b :: rest)
    | _ => true
  let offs := dir.map (·.offset)
  let regions : Nat := ((dir.find? fun e => e.kind = 1).map (·.count)).getD 0
  let segs : Nat := ((dir.find? fun e => e.kind = 4).map (·.count)).getD 0
  firstFail [
    (bits h 15 8 != 1, cUnsupportedVersion),
    (bits h 23 21 != 0 || bits h 63 32 != 0 || bits h 447 272 != 0 || bits h 17 16 = 3
      || dir.any (fun e => e.reserved != 0 || e.kind = 0 || decide (9 < e.kind)), cReservedNonzero),
    (crc64 zeroed != bits h 511 448, cBlockCheckFail),
    (decide (bs.length < len) || !rises offs || offs.any (fun o => decide (len < o) || decide (o < 64 + 16 * dir.length))
      || count 1 != 1 || count 2 != 1 || decide (1 < count 4) || decide (1 < count 6)
      || regions = 0 || decide (64 < regions) || decide (64 < segs), cAdmissionRefused)]

/-- Regions that overlap or share a number (row 7 of R343). -/
def regionsClash : List RegionRec → Bool
  | [] => false
  | r :: rest => rest.any (fun t => t.region = r.region || t.rect.meets r.rect) || regionsClash rest

/-- Row 7 of R343. -/
def Image.placeBad (m : Image) (tags : List Tag) : Bool :=
  regionsClash m.regions
    || tags.any (fun t => !m.regions.any fun r => t.rect.within r.rect)
    || m.cores.any (fun p => (m.imagesOf p.1).any fun i => (List.range 8).any fun t =>
        (m.partRecs p.1 i t).length != 1 || (m.part p.1 i t).isNone)
    || m.cores.any (fun p => p.2.init.toList.any (fun i => i != 15 && !m.hasImage p.1 i)
        || vGet p.2.init p.2.entrySlot 15 = 15)

/-- Rows 6 to 11 of R343 for an image whose frame is sound. `leases` are the far leases that their devices confirm (R444), as device and lease number. -/
def Dev.imageCheck (d : Dev) (m : Image) (bs : List Byte) (windows : NMap HostWin)
    (leases : List (Nat × Nat)) (spare ctx : Nat) : Option Code :=
  let dir := imageDir bs
  let sec (k : Nat) : List (Nat × List Byte) := sectionOf bs m.imageBytes dir k
  let tagged (k : Nat) : List (Tag × List Byte) := (sec k).flatMap fun s => (taggedRecs s.1 s.2).getD []
  let kept := ([1, 2, 3, 4, 5, 6, 9].map fun k => ((sec k).map fun s => s.2.length).sum).sum
  if m.regions.any (fun r => r.cw = 0 || r.ch = 0 || decide (30 < r.cx0 + r.cw) || decide (d.rows / 2 < r.cy0 + r.ch)) then some cNoCells
  else if m.placeBad ([2, 3, 5, 7, 9].flatMap fun k => (tagged k).map Prod.fst) then some cAdmissionRefused
  else
    let all := m.placed
    let mark (p : Placed) : Option Nat := (m.marks.find? fun k => k.image = p.image && k.rect.has p.core).map (·.mask)
    let initBad := m.cores.any fun p => initOverlap ((p.2.init.toList.filter (· != 15)).map fun i => m.slot p.1 i)
    let segVersions := ((sec 4).flatMap fun s => fixedRecs 32 s.1 s.2).map fun n => bits n 15 8
    firstCode ([
      firstCode (all.map fun p => gearCheck p.slot),
      if initBad then some cAdmissionRefused else none,
      firstCode (all.map fun p => meshCheck p.slot p.core p.region.rect),
      firstCode (all.map fun p => handlePlanCheck p.slot m.horizon (m.planAt p.core).hashEn (mark p)),
      firstCode (all.map fun p => queuePlanCheck p.slot),
      queueCheckAll (d.objD 0x2803 9 1024) all m.trees,
      if m.steerOver d.eth.steerCur ctx then some cQueuePlan else none,
      firstCode ((tagged 3).map fun p => sparseCheck (leNat (p.2.take 16))),
      if (tagged 5).any (fun p => treeCheck m p.1 p.2) || treesTwice m.trees then some cAdmissionRefused else none,
      if (sec 6).any (fun s => actBad s.2) then some cAdmissionRefused else none,
      if segVersions.any (· != 1) then some cUnsupportedVersion else none,
      if m.segments.any (fun s => s.kind = 3) || m.segContents.any (fun p => decide (2 ^ 48 ≤ p.1)) then some cReservedNonzero else none,
      if segsMeet m.segments || m.segments.any Segment.misaligned
          || m.segments.any (fun s => s.kind = 1 && !leases.contains (s.dev, s.lease))
          || m.segments.any (fun s => s.kind = 2 && (nmGet windows s.window).isNone)
          || m.segContents.any (fun p => !m.segments.any fun s => s.kind = 0 && decide (s.base ≤ p.1)
            && decide (p.1 + p.2.length ≤ s.base + s.length))
          || m.contents.any contentBad then some cAdmissionRefused else none,
      if decide (0x20000 < m.reduceUnits * 16) || m.cores.any (fun p => m.reduceBad all p.1) then some cAdmissionRefused else none,
      if d.freeFrames + spare < m.frames kept then some cNoMemory else none] : List (Option Code))

/-- Reads and checks an image (rows 2 to 11 of R343). -/
def Dev.admitImage (d : Dev) (bs : List Byte) (windows : NMap HostWin) (leases : List (Nat × Nat))
    (spare ctx : Nat) : Except Code Image :=
  match imageFrameCheck bs with
  | some c => .error c
  | none =>
    match d.readImage bs with
    | none => .error cAdmissionRefused
    | some m =>
      match d.imageCheck m bs windows leases spare ctx with
      | some c => .error c
      | none => .ok m

end Sys2Proof.Machine
end

