-- ==== Sys2Proof/Machine/Chairlift.lean ====
section
/-! DEFINITION. Chairlift loading: the load packets of the context engine, seals, the images kept for reloads (R279 to R284). -/

namespace Sys2Proof.Machine

/-! ### Slots (R276, R281, R303) -/

/-- The check field of a slot's gear header (R276). -/
def Slot.check (s : Slot) : Nat := s.hdr 191 128

/-- Changes a slot and counts the change (R303). -/
def Core.setSlot (k : Core) (i : Nat) (s : Slot) : Core :=
  { k with
    slots := vSet k.slots i s
    slotEpoch := if (k.slot i).state = s.state then k.slotEpoch else (k.slotEpoch + 1) % 2 ^ 32 }

/-- Slots that hold a gear. -/
def residents (l : Vector Slot 4) : Nat := (l.toList.filter fun s => s.state = 2).length

/-- Key of a slot of a core among a context's kept images. -/
def slotKey (c : CoreId) (i : Nat) : Nat := ckey c * 4 + i

/-- Images kept in tier 2 for the resident slots of a core (R284). -/
def keepImages (m : NMap Slot) (c : CoreId) (slots : Vector Slot 4) : NMap Slot :=
  (List.range 4).foldl (fun m i =>
    let s := vGet slots i clearSlot
    if s.state = 2 then nmSet m (slotKey c i) s else nmErase m (slotKey c i)) m

/-- A core's slots reloaded from the images kept for them (R284). -/
def Ctx.keptSlots (x : Ctx) (c : CoreId) : Vector Slot 4 :=
  Vector.ofFn fun i : Fin 4 => (nmGet x.kept (slotKey c i.val)).getD clearSlot

/-! ### The idle program (R559) -/

/-- The idle program's gear, which idle logical cores hold in slot 0 (R559). -/
def Dev.idleSlot (d : Dev) : Slot :=
  { state := 2, image := 0, loadId := 0, header := true
    parts := Vector.ofFn fun t : Fin 8 => memWrite [] 0 (Config.idlePart d.sec.coreDigest t.val) }

/-- What a slot of a core holds: a core that runs no context holds the idle program in slot 0 (R559). -/
def Dev.slotOf (d : Dev) (c : CoreId) (i : Nat) : Slot :=
  let k := d.core c
  if k.ctx.isNone && d.idleGear && i = 0 then d.idleSlot else k.slot i

/-- Changes of slot states, and of the slot in force, when a core's slots are replaced: a reload takes a slot through loading (R281, R303). -/
def slotChanges (old new : Vector Slot 4) : Nat :=
  (((old.toList.zip new.toList).map fun p =>
    if p.2.state = 2 then 2 else if p.1.state = p.2.state then 0 else 1).sum) + 1

/-! ### Load packets (R279, R280) -/

/-- The load header of a packet (R280). -/
def loadHeader (slot target offset units loadId : Nat) : QWord :=
  BitVec.ofNat 128 (pack [(0, 0x0100), (16, slot), (18, target), (32, offset), (48, units), (64, loadId)])

/-- Data of a part in the pieces that its packets carry: offset in 16-byte units and flits, 15 at most; `fuel` pieces at most (R280). -/
def loadPieces : Nat → Nat → List QWord → List (Nat × List QWord)
  | 0, _, _ => []
  | _, _, [] => []
  | n + 1, at_, us => (at_, us.take 15) :: loadPieces n (at_ + 15) (us.drop 15)

/-- Body flits of a packet that carries a piece of a part. -/
def loadUnits (slot target loadId : Nat) (p : Nat × List QWord) : List QWord :=
  loadHeader slot target p.1 p.2.length loadId :: p.2

/-- Body flits of the packets that carry a part of a slot's image. -/
def partPackets (s : Slot) (slot target loadId : Nat) : List (List QWord) :=
  let bs := s.partBytes target
  let us := unitsOf (ceilDiv bs.length 16) bs
  (loadPieces us.length 0 us).map (loadUnits slot target loadId)

/-- Core on the perimeter from which the context engine's packets enter the mesh (R246). -/
def Dev.engineCore (d : Dev) : CoreId :=
  let e := d.station d.mesh.epoch Config.engineStation
  ⟨bits e 15 8, bits e 23 16⟩

/-- Head flit of a load packet to a rectangle of cores: the management channel, the ORDER flag (R236, R279). -/
def Dev.loadHead (d : Dev) (r : Rect) (mcast : Bool) : PktHead :=
  { version := 0x10, vc := 2, poison := 0, epoch := d.mesh.epoch, dkind := 0, order := true, mcast := mcast, body := 0
    dstX := r.x0, dstY := r.y0, x1 := if mcast then r.x1 else 0, y1 := if mcast then r.y1 else 0, dstDev := 0
    srcX := d.engineCore.x, srcY := d.engineCore.y, srcDev := 0xFFFF, msgTag := 0, pktIdx := 0, last := true }

/-- Packets of a list of bodies under one head, with the message tags that follow `tag`. -/
def tagged (h : PktHead) (tag : Nat) (l : List (List QWord)) : List Packet :=
  (List.range l.length).map fun i =>
    let us := l.getD i []
    pktOf { h with body := us.length, msgTag := (tag + i) % 256 } us

/-- The packets of a gear load: the header of each core first, the parts, then each core's seal; a part that is the same on every core of the rectangle is sent once (R279). -/
def Dev.loadPackets (d : Dev) (image : CoreId → Slot) (r : Rect) (cores : List CoreId) (slot : CoreId → Nat) (id : Nat) : List Packet :=
  let one (c : CoreId) : PktHead := d.loadHead ⟨c.x, c.y, c.x, c.y⟩ false
  let first := (cores.head?).getD ⟨0, 0⟩
  let same (t : Nat) : Bool := decide (1 < cores.length)
    && cores.all fun c => slot c = slot first && (image c).partBytes t = (image first).partBytes t
  let parts : List Nat := [1, 2, 3, 4, 5, 6, 7]
  let heads := cores.flatMap fun c => tagged (one c) 0 (partPackets (image c) (slot c) 0 id)
  let common := tagged (d.loadHead r true) 0 ((parts.filter same).flatMap fun t => partPackets (image first) (slot first) t id)
  let own := cores.flatMap fun c => tagged (one c) 1 ((parts.filter fun t => !same t).flatMap fun t => partPackets (image c) (slot c) t id)
  let seals := cores.flatMap fun c => tagged (one c) 255 [loadUnits (slot c) 8 id (0, [BitVec.ofNat 128 (image c).check])]
  heads ++ common ++ own ++ seals

/-- Puts the packets of a load on the network; those that follow a multicast packet are held for it (R242, R279). -/
def Dev.sendLoad (d : Dev) (n image : Nat) (r : Rect) (cores : List CoreId) : Dev :=
  let m := (d.ctx n).image
  let ps := d.loadPackets (fun c => m.slot c image) r cores (fun c => bits (m.gearHdr c image) 17 16) d.nextLoad
  let held := ((ps.dropWhile fun p => !p.head.mcast).drop 1).length
  ({ d with nextLoad := (d.nextLoad + 1) % 2 ^ 32 }.putPackets d.engineCore ps).bump 0x4200 0xD held

/-- Whether a packet in flight is a load packet of the context engine. -/
def Dev.isLoad (d : Dev) (p : Packet) : Bool :=
  p.head.vc = 2 && p.head.srcDev = 0xFFFF && p.head.srcX = d.engineCore.x && p.head.srcY = d.engineCore.y

/-- The load packet that reaches a core next: every earlier one to it has, no earlier one of the other epoch bit is in flight, and no earlier multicast one awaits its completion flit (R242, R279). -/
def Dev.loadDue (d : Dev) (c : CoreId) : Option Packet :=
  let mine := d.mesh.transit.filter d.isLoad
  let before := mine.takeWhile fun p => !p.dests.contains (ckey c)
  let awaited := d.mesh.transit.any fun p => p.head.vc = 1 && p.head.dkind = 1 && p.head.dstDev = Config.engineStation
  match mine.find? fun p => p.dests.contains (ckey c) with
  | none => none
  | some p =>
    if awaited || before.any (fun q => q.head.mcast || q.head.epoch != p.head.epoch) then none else some p

/-- The load packets still on their way to some cores are gone. -/
def Dev.dropLoads (d : Dev) (cores : List CoreId) : Dev :=
  let keys := cores.map ckey
  let transit := (d.mesh.transit.map fun p =>
    if d.isLoad p then { p with dests := p.dests.filter fun k => !keys.contains k } else p).filter fun p => !(d.isLoad p && p.dests.isEmpty)
  { d with mesh := { d.mesh with transit := transit } }.routersGo

/-! ### What the loader of a core does (R280, R281) -/

/-- Cores of a rectangle held as x0, y0, x1, y1 in successive bytes. -/
def rectOf (n : Nat) : Rect := ⟨bits n 7 0, bits n 15 8, bits n 23 16, bits n 31 24⟩

/-- Cores of a rectangle held as x0, y0, x1, y1 in successive bytes. -/
def rectCores (n : Nat) : List CoreId :=
  let r := rectOf n
  (List.range (r.y1 + 1 - r.y0)).flatMap fun j => (List.range (r.x1 + 1 - r.x0)).map fun i => ⟨r.x0 + i, r.y0 + j⟩

/-- The slots that are loading on some cores are empty, and what is on its way to them is gone. -/
def Dev.emptyLoading (d : Dev) (cores : List CoreId) : Dev :=
  cores.foldl (fun d c => (List.range 4).foldl (fun d i =>
    if ((d.core c).slot i).state = 1 then d.updCore c fun k => k.setSlot i clearSlot else d) d) (d.dropLoads cores)

/-- The load of a slot failed: the slot is empty, and the context engine retries once from tier 2 before the load reports failed (R281). -/
def Dev.loadFailed (d : Dev) (c : CoreId) (slot : Nat) : Dev :=
  let d := (((d.broomRetire c slot).raised cBlockCheckFail).updCore c fun k => k.setSlot slot clearSlot).dropLoads [c]
  match (d.core c).ctx with
  | none => d
  | some n =>
    let o := (d.ctx n).gearLoad
    if o.state ≠ 2 then d
    else if o.tries = 0 then
      (d.updCtx n fun x => { x with gearLoad := { x.gearLoad with tries := 1 } }).sendLoad n o.b ⟨c.x, c.y, c.x, c.y⟩ [c]
    else (d.emptyLoading (rectCores o.a)).updCtx n fun x => { x with gearLoad := { x.gearLoad with state := 4, code := cBlockCheckFail } }

/-- The load packet that is due at a core lands there: a poisoned one is discarded (R243), another's header and data go to the loader. -/
def Dev.loadLands (d : Dev) (c : CoreId) (units : List QWord) (f : Dev → Dev) : Dev :=
  match d.loadDue c with
  | none => d
  | some p =>
    if p.units ≠ units then d
    else
      let d := d.landed c p.head
      if p.head.poison = 0 then f d
      else
        let d := d.bump 0x4200 9 1
        let s := (d.arch c).stat
        if p.head.poison = 2 then d.stop c cBlockCheckFail 3 0 s.lastPc s.gear 0 0 else d

/-- A gear header arrives for a slot: the slot is loading, its previous gear retired (R281, R284, R291). -/
def Dev.loadBegins (d : Dev) (c : CoreId) (slot loadId : Nat) (bs : List Byte) : Dev :=
  let image := match (d.core c).ctx with
    | some n => (d.ctx n).gearLoad.b
    | none => 0
  let d := (d.broomRetire c slot).updCore c fun k => k.setSlot slot
    ⟨1, image, loadId, vSet (Vector.replicate 8 []) 0 (memWrite [] 0 bs), true⟩
  match (d.core c).ctx with
  | some n => d.updCtx n fun x => { x with kept := nmErase x.kept (slotKey c slot) }
  | none => d

/-- A part of a gear arrives for a slot (R281). -/
def Dev.loadPart (d : Dev) (c : CoreId) (slot target offset loadId : Nat) (bs : List Byte) : Dev :=
  let s := (d.core c).slot slot
  if s.state ≠ 1 ∨ !s.header ∨ s.loadId ≠ loadId then d.loadFailed c slot
  else d.updCore c fun k => k.setSlot slot
    { s with parts := vSet s.parts target (memWrite (vGet s.parts target []) (16 * offset) bs) }

/-- A load packet reaches a core: where it comes from, its load header's fields and its data flits (R10, R12, R280, R281). -/
def Dev.gearLoadPacket (d : Dev) (c : CoreId) (fromEngine : Bool) (version slot target offset loadId : Nat)
    (data : List QWord) : Dev :=
  if !fromEngine then d.bump 0x4400 4 1
  else if version / 256 ≠ 1 then d.eventCore c cUnsupportedVersion 3 0 0 0
  else if 4 ≤ slot ∨ 8 ≤ target then d.eventCore c cReservedNonzero 3 0 0 0
  else
    d.loadLands c (loadUnits slot target loadId (offset, data)) fun d =>
      if target = 0 then d.loadBegins c slot loadId (data.flatMap qBytes)
      else d.loadPart c slot target offset loadId (data.flatMap qBytes)

/-- The meaning of GEAR_LOAD_PACKET. -/
def execGearLoadPacket (c : CoreId) (fromEngine : Bool) (version slot target offset loadId : Nat) (data : List QWord)
    (s : State) : Host.Outcome State Fault Refusal :=
  s.onDev fun d => d.gearLoadPacket c fromEngine version slot target offset loadId data

/-- Progress of a context's gear load after one more core is sealed (R282, R355). -/
def LongOp.sealed (o : LongOp) : LongOp :=
  if o.state ≠ 2 then o
  else
    let total := (rectCores o.a).length
    let done := o.c + 1
    if total ≤ done then { o with c := done, state := 3, progress := 255, code := cOk }
    else { o with c := done, progress := done * 256 / total }

/-- The loader compares a seal's check with what it has written (R281). -/
def Dev.sealCheck (d : Dev) (c : CoreId) (slot loadId check : Nat) : Dev :=
  let s := (d.core c).slot slot
  if s.state ≠ 1 ∨ !s.header ∨ s.loadId ≠ loadId then d.loadFailed c slot
  else if crc64 s.imageBytes ≠ check then (d.bump 0x4400 3 1).loadFailed c slot
  else
    let s := { s with state := 2 }
    let d := (d.updCore c fun k => k.setSlot slot s).bump 0x4400 2 1
    match (d.core c).ctx with
    | none => d
    | some n => d.updCtx n fun x => { x with gearLoad := x.gearLoad.sealed, kept := nmSet x.kept (slotKey c slot) s }

/-- A seal arrives (R281). -/
def Dev.gearSeal (d : Dev) (c : CoreId) (slot loadId check : Nat) : Dev :=
  d.loadLands c (loadUnits slot 8 loadId (0, [BitVec.ofNat 128 check])) fun d => d.sealCheck c slot loadId check

/-- The meaning of GEAR_SEAL. -/
def execGearSeal (c : CoreId) (slot loadId check : Nat) (s : State) : Host.Outcome State Fault Refusal :=
  s.onDev fun d => d.gearSeal c slot loadId check

end Sys2Proof.Machine
end

