-- ==== Sys2Proof/Machine/DefMap.lean ====
section
/-! DEFINITION. The defect map's records (R408 to R411). -/

namespace Sys2Proof.Machine

/-! ### Defect-map records (R409 to R411) -/

/-- Merges a repeated event into a record. -/
def DefRec.again (r : DefRec) : DefRec := { r with count := min 65535 (r.count + 1) }

/-- Whether two records have one kind and location. -/
def DefRec.same (a b : DefRec) : Bool := a.kind = b.kind && a.place = b.place

/-- Merges closed records of the same kind and location into the oldest of them (R411). -/
def mergeClosed : List DefRec → List DefRec
  | [] => []
  | r :: rest =>
    let l := mergeClosed rest
    if !r.closed then r :: l
    else
      let twins := l.filter fun t => t.closed && t.same r
      { r with count := min 65535 (r.count + (twins.map (·.count)).sum) } :: l.filter fun t => !(t.closed && t.same r)

/-- Replaces the newest record of a kind. -/
def newestOfKind (kind : Nat) (f : DefRec → DefRec) (l : List DefRec) : List DefRec :=
  let rec go : List DefRec → List DefRec
    | [] => []
    | r :: rest => if r.kind = kind then f r :: rest else r :: go rest
  (go l.reverse).reverse

/-- Enters an event into the defect map (R411): an open record of its kind and location counts it, else a new record is made, else the map's reserve serves. -/
def Keep.enter (k : Keep) (r : DefRec) : Keep :=
  let k := { k with seq := (k.seq + 1) % 2 ^ 32 }
  if k.recs.any fun t => !t.closed && t.same r then
    { k with recs := k.recs.map fun t => if !t.closed && t.same r then t.again else t }
  else if k.recs.length < 16368 then { k with recs := k.recs ++ [r] }
  else
    let l := mergeClosed k.recs
    if l.length < 16368 then { k with recs := l ++ [r] }
    else
      let k := { k with replace := if k.replace = 0 then cNoMemory else k.replace }
      if k.recs.any fun t => t.kind = r.kind then { k with recs := newestOfKind r.kind DefRec.again k.recs }
      else { k with recs := k.recs ++ [r] }

/-- Writes a defect-map record (R402, R409). `place` holds bits [63:32] of the record. -/
def Dev.defect (d : Dev) (kind : Nat) (code : Code) (place logical detail : Nat) : Dev :=
  { d with keep := d.keep.enter ⟨kind, false, false, !d.disciplined, code, place, d.time, logical, 1, detail⟩ }

end Sys2Proof.Machine
end

