-- ==== Sys2Proof/Machine/Pager.lean ====
section
/-! DEFINITION. Tier-2 memory, page tables, the pager and migration (R305 to R322). -/

namespace Sys2Proof.Machine

/-! ### Physical addresses (R307) -/

/-- XOR of the ten 3-bit groups of a granule number. -/
def foldLo (g : Nat) : Nat := ((List.range 10).map fun j => bits g (3 * j + 2) (3 * j)).foldl Nat.xor 0

/-- Controller, controller-local address and channel of a physical address (R307). -/
def physMap (pa : Nat) : Nat × Nat × Nat :=
  let g := pa / 4096
  let q := g / 8
  (8 * (q % 3) + foldLo g, q / 3 * 4096 + pa % 4096, q / 3 % 4)

/-! ### Descriptors (R322) -/

/-- A DMA descriptor. -/
structure DmaDesc where
  version : Nat
  srcSpace : Nat
  dstSpace : Nat
  cross : Bool
  reserved : Bool
  length : Nat
  srcH : Nat
  dstH : Nat
  srcAddr : Nat
  dstAddr : Nat
  startOff : Nat
deriving DecidableEq, Repr

/-- Reads a descriptor; `reserved` says whether a reserved field, or the unused upper half of a local address, is nonzero. -/
def dmaDesc (bs : List Byte) : DmaDesc :=
  let n := leNat (bs.take 32)
  { version := bits n 15 0, srcSpace := bits n 17 16, dstSpace := bits n 19 18, cross := bit n 20
    reserved := bits n 31 21 != 0 || bits n 95 76 != 0 || (bits n 17 16 = 0 && bits n 159 128 != 0)
      || (bits n 19 18 = 0 && bits n 223 192 != 0)
    length := bits n 63 32, srcH := bits n 69 64, dstH := bits n 75 70, srcAddr := bits n 159 96, dstAddr := bits n 223 160,
    startOff := bits n 255 224 }

/-! ### Segments and leaves (R311 to R314) -/

/-- The segment that holds n bytes from va (R311). -/
def Ctx.segOf (x : Ctx) (va n : Nat) : Option Segment :=
  x.image.segments.find? fun s => decide (s.base ≤ va) && decide (va + n ≤ s.base + s.length)

/-- Backing of a page of a far or host segment (R313): the offset in the lease or window in 4 KiB units, with the device or window. -/
def Segment.backing (s : Segment) (page : Nat) : Nat :=
  let off := page * 65536 - s.base
  match s.kind with
  | 1 => off / 4096 + s.dev * 2 ^ 30
  | 2 => s.backOff * 16 + off / 4096 + s.window * 2 ^ 30
  | _ => 0

/-- The leaf of a page before the pager has written it (R311). -/
def Segment.leaf (s : Segment) (page : Nat) : Leaf :=
  { valid := s.kind != 0 && !s.fill, r := s.r, w := s.w, home := if s.kind = 0 then 0 else s.kind + 1, large := s.large,
    pinned := s.pinned, accessed := false, dirty := false, busy := false, target := s.backing page }

/-- Leaf of a page; none outside every segment (R311). -/
def Ctx.leaf (x : Ctx) (page : Nat) : Option Leaf :=
  match nmGet x.pt page with
  | some l => some l
  | none => (x.segOf (page * 65536) 65536).map fun s => s.leaf page

/-- First page and number of pages of the page that holds a 64 KiB part (R314). -/
def Leaf.span (l : Leaf) (page : Nat) : Nat × Nat := if l.large then (page / 32 * 32, 32) else (page, 1)

/-- Changes every leaf of a page (R314). -/
def Ctx.updLeaves (x : Ctx) (page : Nat) (f : Nat → Leaf → Leaf) : Ctx :=
  match x.leaf page with
  | none => x
  | some l =>
    let (p0, n) := l.span page
    { x with pt := (List.range n).foldl (fun pt i => match x.leaf (p0 + i) with
        | some y => nmSet pt (p0 + i) (f i y)
        | none => pt) x.pt }

/-! ### Reading and writing pages -/

/-- Where a byte range within one present page lies. -/
inductive PagePlace where
  | tier2 (pa : Nat)
  | near (c : CoreId) (off : Nat)
  | peer (dev addr : Nat)
  | host (window offset : Nat)
deriving DecidableEq, Repr

/-- The place of an offset within a present page (R313). -/
def Leaf.place (l : Leaf) (off : Nat) : PagePlace :=
  match l.home with
  | 0 => .tier2 (l.target * 4096 + off)
  | 1 => .near ⟨bits l.target 16 9, bits l.target 24 17⟩ (bits l.target 8 0 * 65536 + off)
  | 2 => .peer (bits l.target 45 30) (bits l.target 29 0 * 4096 + off)
  | _ => .host (bits l.target 37 30) (bits l.target 29 0 * 4096 + off)

/-- Splits a virtual range at page boundaries: page, offset, length. -/
def pagePieces (va n : Nat) : List (Nat × Nat × Nat) :=
  if n = 0 then []
  else (List.range ((va + n - 1) / 65536 - va / 65536 + 1)).map fun i =>
    let page := va / 65536 + i
    let lo := max va (page * 65536)
    (page, lo - page * 65536, min (va + n) ((page + 1) * 65536) - lo)

/-- Pages at one end of a granule: page and whether it is written. -/
def granulePages (space addr n : Nat) (write : Bool) : List (Nat × Bool) :=
  if space = 1 then (pagePieces addr n).map fun p => (p.1, write) else []

/-- The bytes of a place; none where a tier-2 block or a near quarter is unreadable. Bytes of a peer or the host come from outside. -/
def Dev.readPlace (d : Dev) (p : PagePlace) (n : Nat) (remote : List Byte) : Option (List Byte) :=
  match p with
  | .tier2 pa => if d.t2.badBlocks.any fun b => rangesMeet (b * 4096) 4096 pa n then none else some (memRead d.t2.mem pa n)
  | .near c off =>
    let m := (d.core c).mem
    if touchesBad m.badNear off n then none else some (memRead m.near off n)
  | .peer _ _ | .host _ _ => some ((remote ++ List.replicate n 0#8).take n)

/-- Blocks that a write covers only in part (R308). -/
def partialBlocks (pa n : Nat) : Nat :=
  if n = 0 then 0
  else
    let first := pa / 4096
    let last := (pa + n - 1) / 4096
    if first = last then (if n = 4096 then 0 else 1)
    else (if pa % 4096 = 0 then 0 else 1) + (if (pa + n) % 4096 = 0 then 0 else 1)

/-- Writes tier 2, sealing the blocks (R308): a block covered whole is readable again. -/
def Dev.writeT2 (d : Dev) (pa : Nat) (bs : List Byte) : Dev :=
  let whole (b : Nat) : Bool := decide (pa ≤ b * 4096) && decide (b * 4096 + 4096 ≤ pa + bs.length)
  ({ d with t2 := { d.t2 with mem := memWrite d.t2.mem pa bs, badBlocks := d.t2.badBlocks.filter fun b => !whole b } }).bump
    0x3100 6 (partialBlocks pa bs.length)

/-- Bytes of a page of a context, for a checkpoint slot. -/
def Dev.pageBytes (d : Dev) (ctx page : Nat) : List Byte :=
  match (d.ctx ctx).leaf page with
  | some l => (d.readPlace (l.place 0) 65536 []).getD []
  | none => []

/-- A page about to be written that a checkpoint under way has not copied is copied first (R457). -/
def Dev.copyFirst (d : Dev) (ctx page : Nat) : Dev :=
  { d with ckpts := d.ckpts.map fun k =>
      if k.ctx = ctx && !k.isSealed && k.todo.contains page then
        { k with todo := k.todo.erase page, pages := k.pages ++ [(page, d.pageBytes ctx page)] }
      else k }

/-- Writes a local place (tier 2 or a near-store frame); remote places are written through the hold area or by the pager. -/
def Dev.writePlace (d : Dev) (p : PagePlace) (bs : List Byte) (ctx : Nat) : Dev :=
  match p with
  | .tier2 pa => d.writeT2 pa bs
  | .near c off => d.updCore c fun k => { k with mem := (k.mem.write true off bs).getD k.mem }
  | .peer dev addr => d.emit (.peerWrite dev addr bs)
  | .host window offset => d.emit (.hostWrite ctx window offset bs)

/-! ### Page tables (R312, R313, R315) -/

/-- Numbers that the parts of a context's segments have when the address is divided by 2^sh: the entries that its tables list (R312). -/
def Ctx.reach (x : Ctx) (sh : Nat) : List Nat :=
  ((x.image.segments.flatMap fun s =>
    (List.range ((s.base + s.length - 1) / 2 ^ sh - s.base / 2 ^ sh + 1)).map fun i => s.base / 2 ^ sh + i).dedup).insertionSort (· ≤ ·)

/-- Physical address of an offset in a context's table frames, the first frames allocated at its load (R312; log entry 115). -/
def Ctx.tablePa (x : Ctx) (off : Nat) : Nat := x.fixed.getD (off / 65536) 0 * 65536 + off % 65536

/-- Address of a level-2 table, by va[47:37]: 16 KiB tables follow the root, each aligned to its size (R312). -/
def Ctx.level2 (x : Ctx) (i : Nat) : Nat := x.tablePa (16384 * (1 + ((x.reach 37).findIdx? (· = i)).getD 0))

/-- Address of a level-3 table, by va[47:26]: 8 KiB tables follow those of level 2 (R312). -/
def Ctx.level3 (x : Ctx) (i : Nat) : Nat :=
  x.tablePa (16384 * (1 + (x.reach 37).length) + 8192 * ((x.reach 26).findIdx? (· = i)).getD 0)

/-- Addresses of the three entries that a walk for a page reads (R312). -/
def Ctx.walkPas (x : Ctx) (page : Nat) : List Nat :=
  [x.tablePa (8 * (page / 2 ^ 21)), x.level2 (page / 2 ^ 21) + 8 * (page / 1024 % 2048), x.level3 (page / 1024) + 8 * (page % 1024)]

/-- A table pointer as a 64-bit entry (R313). -/
def pointerWord (pa : Nat) : Nat := pack [(0, 1), (12, pa / 4096)]

/-- A leaf as a 64-bit entry (R313). -/
def Leaf.word (l : Leaf) : Nat :=
  pack [(0, b2n l.valid), (1, b2n l.r), (2, b2n l.w), (3, l.home % 4), (5, b2n l.large), (6, b2n l.pinned), (7, b2n l.accessed),
    (8, b2n l.dirty), (9, b2n l.busy), (12, l.target % 2 ^ 46)]

/-- The 64-bit entry at a physical address of a context's tables: a pointer at levels 1 and 2, a leaf at level 3, 0 where no table or page is (R312, R313). -/
def Ctx.entryAt (x : Ctx) (pa : Nat) : Nat :=
  let root := x.tablePa 0
  if root ≤ pa ∧ pa < root + 16384 then
    (if (x.reach 37).contains ((pa - root) / 8) then pointerWord (x.level2 ((pa - root) / 8)) else 0)
  else
    match (x.reach 37).find? fun i => decide (x.level2 i ≤ pa) && decide (pa < x.level2 i + 16384) with
    | some i =>
      let k := i * 2048 + (pa - x.level2 i) / 8
      if (x.reach 26).contains k then pointerWord (x.level3 k) else 0
    | none =>
      match (x.reach 26).find? fun i => decide (x.level3 i ≤ pa) && decide (pa < x.level3 i + 8192) with
      | some i => ((x.leaf (i * 1024 + (pa - x.level3 i) / 8)).map Leaf.word).getD 0
      | none => 0

/-! ### Frames (R318) -/

/-- Whether n frames from f are free and not retired. -/
def Dev.framesFree (d : Dev) (f n : Nat) : Bool :=
  decide (f + n ≤ totalFrames) && f % n = 0
    && !(d.t2.used.any fun u => decide (f ≤ u) && decide (u < f + n))
    && !(d.keep.frames.any fun u => decide (f ≤ u) && decide (u < f + n))

/-- The lowest free frame of 2 MiB, as a number of 64 KiB frames (R318). -/
def Dev.free2m (d : Dev) : Option Nat :=
  let split := ((d.t2.used ++ d.keep.frames).map (· / 32)).dedup
  (((List.range (split.length + 1)).filter fun b => !split.contains b).map (· * 32)).find? fun f => d.framesFree f 32

/-- A free frame of n: for 64 KiB the lowest of the 64 KiB list, which holds what allocations have left of 2 MiB frames, or the first part of a 2 MiB frame that is split when the list is empty (R318). -/
def Dev.lowestFrame (d : Dev) (n : Nat) : Option Nat :=
  if n = 32 then d.free2m
  else
    let split := ((d.t2.used ++ d.keep.frames).map (· / 32)).dedup.insertionSort (· ≤ ·)
    match (split.flatMap fun b => (List.range 32).map fun i => b * 32 + i).find? fun f => d.framesFree f 1 with
    | some f => some f
    | none => d.free2m

/-- Allocates n frames from f to a context, out of its reservation. -/
def Dev.takeFrames (d : Dev) (ctx f n : Nat) : Dev :=
  let fs := (List.range n).map (f + ·)
  let d := { d with t2 := { d.t2 with used := fs ++ d.t2.used } }
  d.updCtx ctx fun x => { x with frames := fs ++ x.frames, reservedFrames := x.reservedFrames - n }

/-- Allocates n frames to the tables, sections and areas of a context, which are pinned (R318, R331, R332). -/
def Dev.takeFixed (ctx : Nat) : Nat → Dev → Dev
  | 0, d => d
  | n + 1, d =>
    match d.lowestFrame 1 with
    | none => d
    | some f =>
      Dev.takeFixed ctx n (({ d with t2 := { d.t2 with used := f :: d.t2.used } }).updCtx ctx fun x => { x with fixed := x.fixed ++ [f] })

/-- Returns frames of a context to the free lists, zero-filled (R318). -/
def Dev.freeFrame (d : Dev) (f : Nat) : Dev :=
  { d with t2 := { d.t2 with
      used := d.t2.used.erase f, mem := memClear d.t2.mem (f * 65536) 65536
      badBlocks := d.t2.badBlocks.filter fun b => b / 16 != f } }

/-- Returns n frames of a context to its reservation. -/
def Dev.giveFrames (d : Dev) (ctx f n : Nat) : Dev :=
  let fs := (List.range n).map (f + ·)
  let d := fs.foldl Dev.freeFrame d
  d.updCtx ctx fun x => { x with frames := x.frames.filter fun g => !fs.contains g, reservedFrames := x.reservedFrames + n }

/-! ### Failing blocks (R305, R308, R309) -/

/-- Retries of bursts: three at most for each (R305). -/
def retried (l : List Nat) : Nat := (l.map (min 3)).sum

/-- Counts the retries and the blocks that passed on their re-read (R305, R309). -/
def Dev.readCounts (d : Dev) (retries : List Nat) (transient : Nat) : Dev := (d.bump 0x3100 3 (retried retries)).bump 0x3100 4 transient

/-- A block of tier 2 has no value. -/
def Dev.spoil (d : Dev) (blk : Nat) : Dev :=
  { d with t2 := { d.t2 with badBlocks := if d.t2.badBlocks.contains blk then d.t2.badBlocks else blk :: d.t2.badBlocks } }

/-- Invalidations of a page go to the translation cache of every core of a context (R319, R333). -/
def Dev.invalidate (d : Dev) (ctx page : Nat) : Dev :=
  Dev.bump { d with t2 := { d.t2 with tlb := d.t2.tlb.filter fun e => !(e.2.1 = ctx && e.2.2 / 2 = page) } } 0x3101 0xA
    (d.cores.filter fun p => p.2.ctx = some ctx).length

/-- Copies n frames and what of their blocks has no value (R309, R319). -/
def Dev.copyFrames (d : Dev) (old new n : Nat) : Dev :=
  let bad := (d.t2.badBlocks.filter fun b => decide (old ≤ b / 16) && decide (b / 16 < old + n)).map fun b => b + 16 * new - 16 * old
  { d with t2 := { d.t2 with mem := memWrite d.t2.mem (new * 65536) (memRead d.t2.mem (old * 65536) (65536 * n)), badBlocks := bad ++ d.t2.badBlocks } }

/-- A frame of a context's tables or areas moves to a fresh one (R309). -/
def Dev.moveFixed (d : Dev) (n frame : Nat) : Dev :=
  match d.lowestFrame 1 with
  | none => d
  | some new =>
    let d := { d with t2 := { d.t2 with used := new :: d.t2.used } }.copyFrames frame new 1
    (d.freeFrame frame).updCtx n fun x => { x with fixed := x.fixed.map fun f => if f = frame then new else f }

/-- A frame that homes a page, or a part of one, is left for fresh frames, the page as a whole (R309, R314). -/
def Dev.movePage (d : Dev) (n page : Nat) : Dev :=
  match (d.ctx n).leaf page with
  | none => d
  | some l =>
    let (p0, cnt) := l.span page
    let old := ((d.ctx n).leaf p0).elim 0 fun y => y.target / 16
    match d.lowestFrame cnt with
    | none => d
    | some new =>
      let d := ((d.takeFrames n new cnt).copyFrames old new cnt).giveFrames n old cnt
      (d.invalidate n p0).updCtx n fun x => x.updLeaves p0 fun i y => { y with target := (new + i) * 16 }

/-- The pager retires the frame that holds a block that failed twice: its other blocks move to a fresh frame, the leaf follows, and the block gets no value (R309). -/
def Dev.retireFrame (d : Dev) (frame blk : Nat) : Dev :=
  let d := { (d.spoil blk) with keep := { d.keep with frames := frame :: d.keep.frames } }.defect 6 cBlockCheckFail frame 0xFFFF 0
  match d.ctxs.find? fun p => p.2.frames.contains frame || p.2.fixed.contains frame with
  | none => d
  | some (n, x) =>
    if x.fixed.contains frame then d.moveFixed n frame
    else
      match x.pt.find? fun p => p.2.valid && p.2.home = 0 && p.2.target = frame * 16 with
      | some p => d.movePage n p.1
      | none => d

/-- A block of tier 2 has failed twice where a DMA engine or the pager read it, or where it was written (R309). -/
def Dev.blockLost (d : Dev) (blk : Nat) : Dev := (d.bump 0x3100 5 1).retireFrame (blk / 16) blk

/-! ### Translation caches and walks (R316) -/

/-- Whether a core's translation cache serves a page; a write needs an entry filled for writing. -/
def Dev.tlbHit (d : Dev) (c : CoreId) (ctx page : Nat) (write : Bool) : Bool :=
  d.t2.tlb.any fun e => e.1 = ckey c && e.2.1 = ctx && e.2.2 / 2 = page && (!write || e.2.2 % 2 = 1)

/-- Fills a core's translation cache, which keeps its 64 most recent entries. -/
def tlbFill (l : List (Nat × Nat × Nat)) (c ctx page : Nat) (write : Bool) : List (Nat × Nat × Nat) :=
  let rest := l.filter fun e => !(e.1 = c && e.2.1 = ctx && e.2.2 / 2 = page)
  let mine := (rest.filter fun e => e.1 = c).take 63
  (c, ctx, page * 2 + b2n write) :: mine ++ rest.filter fun e => e.1 != c

/-- A granule has used a page of a core's translation cache: it is the most recently used entry (R316). -/
def Dev.tlbUse (d : Dev) (c : CoreId) (ctx page : Nat) : Dev :=
  if d.tlbHit c ctx page false then { d with t2 := { d.t2 with tlb := tlbFill d.t2.tlb (ckey c) ctx page (d.tlbHit c ctx page true) } } else d

/-- Page under which a translation cache holds an address (R314). -/
def Ctx.cachePage (x : Ctx) (page : Nat) : Nat :=
  match x.leaf page with
  | some l => (l.span page).1
  | none => page

/-- Records that the running DMA command of a core waits on a fault or a busy page (R325, R327). -/
def Arch.faultWait (a : Arch) : Arch :=
  match (vGet a.units 3 clearUnit).queue with
  | [] => a
  | e :: _ =>
    let i := e.cmd.dmaQueue
    let q := vGet a.dma.queues i clearDmaQ
    if !e.started || q.faultWait then a
    else { a with dma := { a.dma with queues := vSet a.dma.queues i { q with faultWait := true, faults := q.faults + 1 } } }

/-- Valid entries of a peer table: device and remote context (R442). -/
def Ctx.peerList (x : Ctx) : List (Nat × Nat) :=
  (x.peers.filter fun p => bit p.2 31).map fun p => (bits p.2 15 0, bits p.2 29 16)

/-- The remote context that a peer table names for a device (R442). -/
def Ctx.peerCtx (x : Ctx) (dev : Nat) : Option Nat := (x.peerList.find? fun p => p.1 = dev).map Prod.snd

/-- Asks for n bytes of a page of a context that lies elsewhere: a peer by a far read under the segment's lease, the host by an RDMA READ (R317, R321, R439, R444). -/
def Dev.ask (d : Dev) (ctx page : Nat) (p : PagePlace) (n : Nat) : Dev :=
  match p with
  | .peer dev addr =>
    let x := d.ctx ctx
    let lease := ((x.segOf (page * 65536) 1).map (·.lease)).getD 0
    d.sendFar 0 dev ctx ((x.peerCtx dev).getD ctx) (.farRead lease addr n)
  | .host window offset => d.emit (.hostRead window offset n)
  | _ => d

/-- The DMA command that a core runs meets a block without a value on its way to a page: a suspect result against it (R315, R367). -/
def Dev.walkFails (d : Dev) (c : CoreId) : Dev :=
  match (vGet (d.arch c).units 3 clearUnit).queue with
  | e :: _ => if e.started then (d.stopAt c cBlockCheckFail 4 e).updCore c fun k => k.markSuspect 1 else d
  | [] => d

/-- A table walk: it verifies the blocks of the tables, fills the translation cache, or finds the page not present or busy and raises a fault, serviced once (R308, R315 to R317). -/
def Dev.walk (d : Dev) (c : CoreId) (page : Nat) (write : Bool) : Dev :=
  match (d.core c).ctx with
  | none => d
  | some n =>
    match (d.ctx n).leaf page with
    | none => d
    | some l =>
      let d := d.bump 0x3101 8 1
      let p0 := (l.span page).1
      match ((d.ctx n).walkPas page).find? fun pa => d.t2.badBlocks.contains (pa / 4096) with
      | some pa => (d.blockLost (pa / 4096)).walkFails c
      | none =>
        if l.busy then d.updArch c Arch.faultWait
        else if !l.valid then
          let d := (d.updArch c Arch.faultWait).updCtx n fun x => x.updLeaves page fun _ y => { y with busy := true }
          { d with t2 := { d.t2 with fills := d.t2.fills ++ [(n, p0, 0)] } }.ask n p0 (l.place 0) 65536
        else
          let d := d.updCtx n fun x => x.updLeaves page fun _ y => { y with accessed := true, dirty := y.dirty || write }
          { d with t2 := { d.t2 with tlb := tlbFill d.t2.tlb (ckey c) n p0 write } }

/-- The meaning of TABLE_WALK_COMPLETE: a walk for a page of the core's context, or one that found a corrupted table (R315, R316). -/
def execTableWalkComplete (c : CoreId) (va : Nat) (write corrupt : Bool) (s : State) :
    Host.Outcome State Fault Refusal :=
  s.onDev fun d =>
    if corrupt then
      let d := d.eventCtx ((d.core c).ctx.getD 0xFFFF) cReservedNonzero 9 1 0 0
      if (d.arch c).live then d.walkFails c else d
    else d.walk c (va / 65536) write

/-! ### Faults (R317) -/

/-- Whether the running DMA command of a core waits on a page. -/
def Dev.waitsOn (d : Dev) (c : CoreId) (ctx page : Nat) : Bool :=
  match (vGet (d.arch c).units 3 clearUnit).queue with
  | e :: _ =>
    match e.cmd with
    | .dma _ _ bs _ _ off =>
      let q := dmaDesc bs
      let n := min 4096 (q.length - off)
      e.started && ((granulePages q.srcSpace (q.srcAddr + off) n false ++ granulePages q.dstSpace (q.dstAddr + off) n true).any
        fun p => (d.ctx ctx).cachePage p.1 = page)
    | _ => false
  | [] => false

/-- Whether a page that the next granule of a core's running command touches is not present or busy. -/
def Dev.stillWaits (d : Dev) (c : CoreId) (ctx : Nat) : Bool :=
  (d.ctx ctx).pt.any fun p => (!p.2.valid || p.2.busy) && d.waitsOn c ctx ((d.ctx ctx).cachePage p.1)

/-- A context's cores on this device, by map key. -/
def Dev.coresOf (d : Dev) (ctx : Nat) : List CoreId :=
  (d.cores.filter fun p => p.2.ctx = some ctx).map fun p => coreOfKey p.1

/-- The granules that waited on a page go on: a command whose granule waits on no other page waits no longer (R317, R327). -/
def Dev.faultsOver (d : Dev) (ctx page : Nat) : Dev :=
  (d.coresOf ctx).foldl (fun d c =>
    if d.waitsOn c ctx page && !d.stillWaits c ctx then
      d.updArch c fun a => { a with dma := { a.dma with queues := a.dma.queues.map fun q => { q with faultWait := false } } }
    else d) d

/-- A fill meets a block that fails twice: the leaf stays not present, and the commands that wait on the page have a suspect result (R309, R367). -/
def Dev.fillFails (d : Dev) (f : Nat × Nat × Nat) (blk : Option Nat) : Dev :=
  let d := match blk with
    | some b => d.blockLost b
    | none => d.bump 0x3100 5 1
  let d := { d with t2 := { d.t2 with fills := d.t2.fills.erase f } }.updCtx f.1 fun x => x.updLeaves f.2.1 fun _ y => { y with busy := false }
  (d.coresOf f.1).foldl (fun d c => if d.waitsOn c f.1 f.2.1 then d.walkFails c else d) d

/-- The block by which a fill of n frames fails: one of its source in tier 2 that has no value, or one that the read found failing (R308, R309). -/
def Dev.fillBad (d : Dev) (l : Leaf) (n : Nat) (failed : Option Nat) : Option (Option Nat) :=
  if l.home = 2 ∨ l.home = 3 then failed.map fun _ => none
  else if l.target = 0 then none
  else
    match d.t2.badBlocks.find? fun b => rangesMeet (b * 4096) 4096 (l.target * 4096) (n * 65536) with
    | some b => some (some b)
    | none => failed.map fun i => some (l.target + i)

/-- The pager completes a fault, or the fill of a pinned page at load: it fills `frame` from the page's backing and writes the leaf present (R311, R317). -/
def Dev.fillComplete (d : Dev) (ctx page frame : Nat) (data : PageData) : Dev :=
  match d.t2.fills.find? fun f => f.1 = ctx && f.2.1 = page, (d.ctx ctx).leaf page with
  | some f, some l =>
    let (p0, n) := l.span page
    if !d.framesFree frame n then d
    else
      let d := d.readCounts data.retries data.transient
      match d.fillBad l n data.failed with
      | some blk => d.fillFails f blk
      | none =>
        let remote := l.home = 2 || l.home = 3
        let bytes := if remote then (data.bytes ++ List.replicate (n * 65536) 0#8).take (n * 65536)
          else if l.target = 0 then [] else memRead d.t2.mem (l.target * 4096) (n * 65536)
        let d := d.takeFrames ctx frame n
        let d := { d with t2 := { d.t2 with mem := memWrite d.t2.mem (frame * 65536) bytes, fills := d.t2.fills.erase f } }
        let d := d.updCtx ctx fun x => x.updLeaves p0 fun i y =>
          { y with valid := true, home := 0, target := (frame + i) * 16, busy := false }
        ((d.faultsOver ctx p0).bump 0x3101 6 (b2n !l.pinned)).bump 0x3101 7 (b2n (remote && !l.pinned))
  | _, _ => d

/-- The meaning of FAULT_FILL_COMPLETE: the context, the page's first 64 KiB part, the frame taken and what the reads brought. -/
def execFaultFillComplete (ctx page frame : Nat) (data : PageData) (s : State) : Host.Outcome State Fault Refusal :=
  s.onDev fun d => d.fillComplete ctx page frame data

/-! ### Migration (R319, R320, R333) -/

/-- Whether a near-store frame of a core is covered by a handle plan or the spill table of its context (R320). -/
def Image.nearCovered (m : Image) (c : CoreId) (frame : Nat) : Bool :=
  let base := 0x40000000 + kIndex c * 0x1800000 + frame * 65536
  let cell := (List.range 4).map (sibling c)
  let plan := m.planAt c
  cell.any (fun e => (m.imagesOf e).any fun i => (m.slot e i).handlePlan.any fun p =>
      p.2.kind = 2 && p.2.mode != 2 && rangesMeet p.2.base (p.2.copies * p.2.length) base 65536)
    || (plan.hashEn && plan.spillLog2 != 0 && rangesMeet plan.spillBase (32 * 2 ^ plan.spillLog2) (frame * 65536) 65536)

/-- Core that holds the near-store frame a target names (R313). -/
def nearCore (target : Nat) : CoreId := ⟨bits target 16 9, bits target 24 17⟩

/-- Whether a near-store frame homes a page already (R315). -/
def Dev.nearTaken (d : Dev) (target : Nat) : Bool :=
  d.ctxs.any fun p => p.2.pt.any fun l => l.2.valid && l.2.home = 1 && l.2.target = target

/-- Refusals of a migration request (R310, R315, R319, R320, R333, R356). `home` is the word of pager.migrate.home. -/
def Dev.migrateCheck (d : Dev) (n va home : Nat) : Option Code :=
  let x := d.ctx n
  let page := va % 2 ^ 48 / 65536
  let kind := bits home 4 3
  let target := bits home 57 12
  match x.leaf page, x.segOf (page * 65536) 65536 with
  | some l, some s =>
    let (p0, cnt) := l.span page
    let c := nearCore target
    let nearBad := !s.nearOk || s.kind != 0 || l.large || (d.core c).ctx != some n || decide (384 ≤ bits target 8 0)
      || (d.slice (d.physKey c)).power != 0 || x.image.nearCovered c (bits target 8 0) || d.nearTaken target
    firstFail [
      (x.migrate.state = 1 || x.migrate.state = 2, cBusy),
      (decide (2 ^ 48 ≤ va), cReservedNonzero),
      (l.pinned || !l.valid || l.busy, cBadArgument),
      (match kind with
        | 0 => target % 16 != 0 || !d.framesFree (target / 16) cnt
        | 1 => nearBad
        | k => s.kind + 1 != k || target != s.backing p0, cBadArgument)]
  | _, _ => firstFail [
      (x.migrate.state = 1 || x.migrate.state = 2, cBusy),
      (decide (2 ^ 48 ≤ va), cReservedNonzero), (true, cBadArgument)]

/-- Requests a migration (R319): busy is set, every core's cached translation is dropped, and a target in tier 2 is taken. -/
def Dev.migrateGo (d : Dev) : Dev :=
  let n := d.objD 0x3103 1 0
  let va := d.objD 0x3103 2 0
  let home := d.objD 0x3103 3 0
  match d.migrateCheck n va home with
  | some c => d.reply c
  | none =>
    let page := va / 65536
    let p0 := (d.ctx n).cachePage page
    let cnt := ((d.ctx n).leaf page).elim 1 fun l => (l.span page).2
    let d := if bits home 4 3 = 0 then d.takeFrames n (bits home 57 12 / 16) cnt else d
    let d := d.updCtx n fun x => { x.updLeaves page (fun _ y => { y with busy := true }) with
      migrate := ⟨2, 0, cPending, p0, home, 0, 0⟩ }
    { (d.invalidate n p0) with lastReq := nmSet d.lastReq (okey 0x3103 4) n }

/-- The meaning of MIGRATE_GO. -/
def execMigrateGo (s : State) : Host.Outcome State Fault Refusal := s.onDev fun d => d.migrateGo

/-- Bytes of one 64 KiB part of a present page, as its home holds them; `remote` where it is far or host. -/
def Dev.partBytes (d : Dev) (l : Leaf) (remote : List Byte) : List Byte :=
  match l.place 0 with
  | .tier2 pa => memRead d.t2.mem pa 65536
  | .near c off => memRead (d.core c).mem.near off 65536
  | _ => (remote ++ List.replicate 65536 0#8).take 65536

/-- Blocks of a 64 KiB part of a present page that have no value, as numbers 0 to 15 (R189, R309). -/
def Dev.partBad (d : Dev) (l : Leaf) : List Nat :=
  (List.range 16).filter fun i =>
    match l.place (4096 * i) with
    | .tier2 pa => d.t2.badBlocks.contains (pa / 4096)
    | .near c off => touchesBad (d.core c).mem.badNear off 4096
    | _ => false

/-- Blocks of a part have no value where it now is. -/
def Dev.placeBad (d : Dev) (l : Leaf) (bad : List Nat) : Dev :=
  bad.foldl (fun d i =>
    match l.place (4096 * i) with
    | .tier2 pa => d.spoil (pa / 4096)
    | .near c off => d.updCore c fun k => { k with mem := { k.mem with badNear := k.mem.badNear ++ (List.range 256).map fun j => off / 16 + j } }
    | _ => d) d

/-- Moves one 64 KiB part of a page to a new home and target, whose frame has been taken: bytes, and what of them has no value; a tier-2 frame with a failed block is retired (R309, R319). -/
def Dev.movePart (d : Dev) (ctx page home target : Nat) (remote : List Byte) : Dev :=
  match (d.ctx ctx).leaf page with
  | none => d
  | some l =>
    let bs := d.partBytes l remote
    let bad := d.partBad l
    let new : Leaf := { l with valid := true, home := home, target := target, busy := false }
    let d := (d.writePlace (new.place 0) bs ctx).placeBad new bad
    let d := d.updCtx ctx fun x => { x with pt := nmSet x.pt page new }
    if l.home ≠ 0 then d
    else
      let d := if bad.isEmpty then d
        else (Dev.bump { d with keep := { d.keep with frames := l.target / 16 :: d.keep.frames } } 0x3100 5 bad.length).defect
          6 cBlockCheckFail (l.target / 16) 0xFFFF 0
      d.giveFrames ctx (l.target / 16) 1

/-- Whether a migration's target still takes the page: a near-store frame, only while its core runs the context. -/
def Dev.targetStands (d : Dev) (ctx home : Nat) : Bool :=
  bits home 4 3 != 1 || ((d.core (nearCore (bits home 57 12))).ctx = some ctx && !d.nearTaken (bits home 57 12))

/-- A migration ends with a code and leaves the page where it is. -/
def Dev.migrationFails (d : Dev) (ctx page : Nat) (code : Code) : Dev :=
  let d := d.updCtx ctx fun x => { x.updLeaves page (fun _ y => { y with busy := false }) with
    migrate := { x.migrate with state := 4, code := code } }
  (d.faultsOver ctx page).raised code

/-- The pager copies the page and rewrites the leaf once no granule is in flight to it (R319); a block without a value moves as one, but not to a far or host backing. -/
def Dev.migrationComplete (d : Dev) (ctx : Nat) (data : PageData) : Dev :=
  let o := (d.ctx ctx).migrate
  if o.state ≠ 2 then d
  else
    match (d.ctx ctx).leaf o.a with
    | none => d
    | some l =>
      let (p0, n) := l.span o.a
      let d := d.readCounts data.retries data.transient
      let d := match data.failed with
        | some i => d.placeBad l [i]
        | none => d
      let bad := (List.range n).any fun i => ((d.ctx ctx).leaf (p0 + i)).any fun y => !(d.partBad y).isEmpty
      if !d.targetStands ctx o.b then d.migrationFails ctx p0 cStateInvalid
      else if bad && decide (2 ≤ bits o.b 4 3) || (data.failed.isSome && decide (2 ≤ l.home)) then d.migrationFails ctx p0 cBlockCheckFail
      else
        let d := (List.range n).foldl (fun d i =>
          d.movePart ctx (p0 + i) (bits o.b 4 3) (bits o.b 57 12 + 16 * i) (data.bytes.drop (65536 * i))) d
        let d := d.updCtx ctx fun x => { x with migrate := { x.migrate with state := 3, progress := 255, code := cOk } }
        (d.faultsOver ctx p0).bump 0x3101 9 1

/-- The meaning of MIGRATION_COMPLETE; the data hold the bytes of a far or host page that moves into local memory. -/
def execMigrationComplete (ctx : Nat) (data : PageData) (s : State) : Host.Outcome State Fault Refusal :=
  s.onDev fun d => d.migrationComplete ctx data

/-- Demotes every near-homed page of a context on cores that `f` picks (R320). -/
def Dev.demote (d : Dev) (ctx : Nat) (f : CoreId → Bool) : Dev :=
  let pages := ((d.ctx ctx).pt.filter fun p => p.2.valid && p.2.home = 1 && f (nearCore p.2.target)).map Prod.fst
  pages.foldl (fun d p =>
    match Dev.lowestFrame d 1 with
    | none => d
    | some g => (((d.invalidate ctx p).takeFrames ctx g 1).movePart ctx p 0 (16 * g) []).bump 0x3101 9 1) d

end Sys2Proof.Machine
end

