-- ==== Sys2Proof/Machine/Dma.lean ====
section
/-! DEFINITION. The DMA engine: issue, checks at start, granules, remote fetches (R129, R321 to R332). -/

namespace Sys2Proof.Machine

/-! ### Acceptance (R129, R206) -/

/-- Resolves a local end of a descriptor at acceptance: rows 1 to 4 of R205 and where the buffer lies (R129, R204). -/
def Arch.dmaEnd (a : Arch) (i : Nat) (write : Bool) : DmaEnd :=
  let h := a.handle i
  let p := (a.paired i).2
  let viewBad := h.mode = 2 && !(p.valid && p.mode = 1)
  let rights := if write then h.w else h.r
  let blocked := write && h.mode != 0 && (p.gen + 1) % (p.copiesM1 + 1) = p.cgen
  { ok := decide (i ≠ 63) && h.valid && !viewBad && rights && !blocked
    base := landing h p write 0, length := if h.mode = 2 then p.length else h.length, kind := h.kind, bc := h.bc
    paired := h.valid && h.mode != 0 && !viewBad }

/-- The meaning shared by DMA.GET and DMA.PUT: the descriptor is copied and its local ends resolved at acceptance (R129, R206, R327). -/
def Dev.dmaIssue (d : Dev) (c : CoreId) (g : Common) (put : Bool) (aDesc queue : Nat) : Dev :=
  d.present c g ⟨4, false, [aId aDesc]⟩
    { wait := fun d w =>
        match (d.arch c).resolve ((d.arch c).regs.aGet aDesc) false [0, 1] 32 0 32 with
        | .ok r => if r.bc && g.sb < 5 && !d.verifyRoom c (blocksOf c r.addr 32) then .error (.verifySet, w) else queueWait c 3 d w
        | .error _ => queueWait c 3 d w
      check := fun d _ =>
        if 5 ≤ g.sb then some cReservedNonzero
        else resCode ((d.arch c).resolve ((d.arch c).regs.aGet aDesc) false [0, 1] 32 0 32)
      effect := fun d w =>
        match (d.arch c).resolve ((d.arch c).regs.aGet aDesc) false [0, 1] 32 0 32 with
        | .error _ => d
        | .ok r =>
          let s := (d.arch c).stat
          match d.localRead c r.addr 32 with
          | none => d.readFailed c r.addr 32 4 g.sb s.lastPc s.gear
          | some bs =>
            let d := if r.bc then d.listBlocks c 4 g.sb s.lastPc s.gear (blocksOf c r.addr 32) else d
            d.updArch c fun a =>
            let x := dmaDesc bs
            let src := a.dmaEnd x.srcH false
            let dst := a.dmaEnd x.dstH true
            let a := a.accept 3 g.sb (.dma put queue bs src dst x.startOff) w.cyc
            if !put && x.dstSpace = 0 then a.touch x.dstH else a }

/-- The meaning of DMA.GET. -/
def execDmaGet (c : CoreId) (g : Common) (aDesc queue : Nat) (s : State) : Host.Outcome State Fault Refusal :=
  s.onDev fun d => d.dmaIssue c g false aDesc queue

/-- The meaning of DMA.PUT. -/
def execDmaPut (c : CoreId) (g : Common) (aDesc queue : Nat) (s : State) : Host.Outcome State Fault Refusal :=
  s.onDev fun d => d.dmaIssue c g true aDesc queue

/-! ### Start (R324) -/

/-- Bytes of the DMA hold area not in use (R332). -/
def Ctx.dmaRoom (x : Ctx) : Nat :=
  (x.image.horizon + 1) * x.image.holdBytes - (x.dmaHold.map fun h => h.data.length).sum

/-- Rows 5 to 11 of R324. -/
def dmaLateCheck (x : Ctx) (put : Bool) (q : DmaDesc) (src dst : DmaEnd) : Option Code :=
  let srcSeg := x.segOf q.srcAddr q.length
  let dstSeg := x.segOf q.dstAddr q.length
  let remote (s : Option Segment) : Bool := match s with
    | some s => s.kind != 0
    | none => false
  let crossBad := q.cross && (put || q.dstSpace != 0 || !dst.paired || (q.srcSpace = 1 && remote srcSeg))
  firstFail [
    ((if put then q.dstSpace != 1 else q.dstSpace != 0) || q.length % 64 != 0 || q.srcAddr % 64 != 0 || q.dstAddr % 64 != 0
      || q.startOff % 4096 != 0 || decide (q.length ≤ q.startOff) || crossBad, cBadArgument),
    ((q.srcSpace = 0 && !src.ok) || (q.dstSpace = 0 && !dst.ok), cBadArgument),
    ((q.srcSpace = 0 && decide (src.length < q.srcAddr + q.length))
      || (q.dstSpace = 0 && decide (dst.length < q.dstAddr + q.length)), cBounds),
    (q.srcSpace = q.dstSpace && rangesMeet (if q.srcSpace = 0 then src.base + q.srcAddr else q.srcAddr) q.length
      (if q.dstSpace = 0 then dst.base + q.dstAddr else q.dstAddr) q.length, cBadArgument),
    ((q.srcSpace = 1 && srcSeg.isNone) || (q.dstSpace = 1 && dstSeg.isNone), cBounds),
    ((q.srcSpace = 1 && !(srcSeg.any fun s => s.r)) || (q.dstSpace = 1 && !(dstSeg.any fun s => s.w)), cBadArgument),
    (q.dstSpace = 1 && remote dstSeg && decide (x.dmaRoom < q.length - q.startOff), cNoMemory)]

/-- The checks of R324: a refusal, an immediate end with OK, or a running transfer. -/
def dmaStartCheck (x : Ctx) (put : Bool) (q : DmaDesc) (src dst : DmaEnd) : Except Code Bool :=
  match firstFail [
    (q.version / 256 != 1, cUnsupportedVersion),
    (q.reserved || decide (2 ≤ q.srcSpace) || decide (2 ≤ q.dstSpace)
      || (q.srcSpace = 1 && decide (2 ^ 48 ≤ q.srcAddr)) || (q.dstSpace = 1 && decide (2 ^ 48 ≤ q.dstAddr)), cReservedNonzero),
    (decide (0x40000000 < q.length), cLengthTooLarge)] with
  | some c => .error c
  | none =>
    if q.length = 0 then .ok false
    else
      match dmaLateCheck x put q src dst with
      | some c => .error c
      | none => .ok true

/-- Changes the record of a DMA queue. -/
def Arch.updDmaQ (a : Arch) (i : Nat) (f : DmaQ → DmaQ) : Arch :=
  { a with dma := { a.dma with queues := vSet a.dma.queues i (f (vGet a.dma.queues i clearDmaQ)) } }

/-- A crossing command that has completed, for a roll-back to the commit of its step (R328). -/
def DmaEng.keepCrossed (g : DmaEng) (e : QEntry) : DmaEng :=
  match e.cmd with
  | .dma _ _ bs _ _ _ => if (dmaDesc bs).cross then { g with crossed := g.crossed ++ [e] } else g
  | _ => g

/-- The head DMA command ends with a code, `late` cycles after the core's own cycle (R59, R76, R130, R327). -/
def Dev.dmaEndsAt (d : Dev) (c : CoreId) (code : Code) (late : Nat) : Dev :=
  match (vGet (d.arch c).units 3 clearUnit).queue with
  | [] => d
  | e :: _ =>
    let d := d.updArch c fun a =>
      let i := e.cmd.dmaQueue
      let fin := max a.stat.cyc e.accepted + late
      let a := a.updDmaQ i fun q => { q with
        completed := q.completed + 1, faultWait := false, lastEnd := fin
        lastCode := if code = 0 then q.lastCode else code
        resume := if code = 0 then q.resume else e.cmd.dmaResume
        waitCode := if code = 0 then q.waitCode else code
        waitOrder := if code = 0 then q.waitOrder else a.dma.order + 1 }
      let a := { a with dma := { (a.dma.keepCrossed e) with order := a.dma.order + 1, tries := 0 } }
      let a := a.finish 3 fin fin
      if code = 0 then a else a.status code 4 e.sb
    let d := if code = 0 then d else d.raised code
    d.bump 0x3102 1 1

/-- The head DMA command ends with a code. -/
def Dev.dmaEnds (d : Dev) (c : CoreId) (code : Code) : Dev := d.dmaEndsAt c code 0

/-- The engine asks for what the next granule of a core's running command reads of far and host pages in place (R321). -/
def Dev.askRemote (d : Dev) (c : CoreId) : Dev :=
  match (vGet (d.arch c).units 3 clearUnit).queue, (d.core c).ctx with
  | e :: _, some n =>
    match e.cmd with
    | .dma _ _ bs _ _ off =>
      let q := dmaDesc bs
      if !e.started || q.srcSpace != 1 then d
      else (pagePieces (q.srcAddr + off) (min 4096 (q.length - off))).foldl (fun d p =>
        match (d.ctx n).leaf p.1 with
        | some l => if l.valid && decide (2 ≤ l.home) then d.ask n p.1 (l.place p.2.1) p.2.2 else d
        | none => d) d
    | _ => d
  | _, _ => d

/-- The DMA engine starts the command at the head of its queue (R324). -/
def Dev.dmaStart (d : Dev) (c : CoreId) : Dev :=
  let a := d.arch c
  match (vGet a.units 3 clearUnit).queue with
  | [] => d
  | e :: _ =>
    if !a.live || e.started then d
    else
      match e.cmd with
      | .dma put q bs src dst resume =>
        match dmaStartCheck (d.ctxOf c) put (dmaDesc bs) src dst with
        | .error code =>
          let d := d.updArch c fun a => a.updDmaQ q fun y => { y with lastCode := code, resume := resume }
          (d.bump 0x3102 3 1).stopAt c code 4 e
        | .ok false => d.dmaEnds c cOk
        | .ok true => (d.updArch c fun a =>
            a.updHead 3 fun e => { e with started := true, start := max e.accepted a.stat.cyc }).askRemote c
      | _ => d

/-! ### Granules (R325 to R327) -/

/-- Reads the source of a granule; none when a block of it is unreadable. -/
def Dev.granuleRead (d : Dev) (c : CoreId) (x : Ctx) (q : DmaDesc) (src : DmaEnd) (off n : Nat) (remote : List Byte) :
    Option (List Byte) :=
  if q.srcSpace = 0 then d.localRead c (src.base + q.srcAddr + off) n
  else
    (pagePieces (q.srcAddr + off) n).foldl (fun acc p =>
      match acc, x.leaf p.1 with
      | some got, some l => (d.readPlace (l.place p.2.1) p.2.2 (remote.drop got.length)).map (got ++ ·)
      | _, _ => none) (some [])

/-- Writes a granule to a virtual destination: local and near pages at once, far and host pages into the hold area (R321, R332). -/
def Dev.granuleWriteVa (d : Dev) (c : CoreId) (ctx : Nat) (x : Ctx) (va : Nat) (bs : List Byte) : Dev :=
  ((pagePieces va bs.length).foldl (fun (d, bs) p =>
    let here := bs.take p.2.2
    let d := match x.leaf p.1 with
      | none => d
      | some l =>
        if l.home ≤ 1 then (d.copyFirst ctx p.1).writePlace (l.place p.2.1) here ctx
        else d.updCtx ctx fun x => { x with dmaHold := x.dmaHold ++
          [⟨(d.core c).region, (d.arch c).stat.stepNo, p.1 * 65536 + p.2.1, here, false, none, false⟩] }
    (d, bs.drop p.2.2)) (d, bs)).1

/-- Writes a granule to its destination; none when part of an unreadable quarter would have to be merged (R189). -/
def Dev.granuleWrite (d : Dev) (c : CoreId) (ctx : Nat) (x : Ctx) (q : DmaDesc) (dst : DmaEnd) (off : Nat) (bs : List Byte) :
    Option Dev :=
  if q.dstSpace = 0 then d.localWrite c (dst.base + q.dstAddr + off) bs
  else some (d.granuleWriteVa c ctx x (q.dstAddr + off) bs)

/-- A granule has been written: the resume offset advances, and the command ends after its last byte (R327). On a core that has stopped or is being scanned out, the engine stops there (R80, R82). -/
def Dev.granuleDone (d : Dev) (c : CoreId) (queue off n length late : Nat) : Dev :=
  let d := d.updArch c fun a =>
    let a := a.updHead 3 fun e => match e.cmd with
      | .dma put q bs src dst _ => { e with cmd := .dma put q bs src dst (off + n), started := a.live }
      | _ => e
    let a := { a with dma := { a.dma with tries := 0 } }
    a.updDmaQ queue fun y => { y with bytes := y.bytes + n, faultWait := false }
  let d := d.bump 0x3102 2 n
  if length ≤ off + n then d.dmaEndsAt c cOk late else d.askRemote c

/-- The tier-2 block that holds a byte of a virtual range, when it lies in tier 2 (R309). -/
def Ctx.blockOf (x : Ctx) (va : Nat) : Option Nat :=
  match x.leaf (va / 65536) with
  | some l =>
    match l.place (va % 65536) with
    | .tier2 pa => some (pa / 4096)
    | _ => none
  | none => none

/-- The first tier-2 block of a granule's virtual source that has no value. -/
def Dev.sourceBad (d : Dev) (x : Ctx) (q : DmaDesc) (off n : Nat) : Option Nat :=
  if q.srcSpace = 0 then none
  else (blockNums (q.srcAddr + off) n).findSome? fun b =>
    (x.blockOf (max (q.srcAddr + off) (4096 * b))).filter fun p => d.t2.badBlocks.contains p

/-- A tier-2 block fails twice under a DMA command: the core stops with a suspect result, and the block's frame is retired (R309). -/
def Dev.dmaBlockLost (d : Dev) (c : CoreId) (e : QEntry) (blk : Nat) : Dev :=
  ((d.blockLost blk).stopAt c cBlockCheckFail 4 e).updCore c fun k => k.markSuspect 1

/-- A local block that a granule reads through a handle with bc fails its check (R326). -/
def Dev.dmaCheckFails (d : Dev) (c : CoreId) (e : QEntry) (addr : Nat) : Dev :=
  let d := (d.bump 0x3000 0xC 1).stopAt c cBlockCheckFail 4 e
  match locate c addr with
  | .near _ _ => d.updCore c fun k => k.markSuspect 2
  | _ => d

/-- The first block of a granule's local source that disagrees with its check word, as the address at which it begins: the engine reads each block whole (R200, R326). -/
def Dev.localDiffers (d : Dev) (c : CoreId) (addr n : Nat) : Option Nat :=
  let bad (m : LocalMem) (near : Bool) (off : Nat) : Option Nat :=
    ((blockNums off n).find? fun b => (nmGet (if near then m.chkNear else m.chkHome) b).getD 0 != 0).map fun b => addr + 4096 * b - off
  match locate c addr with
  | .home o off => bad (d.core o).mem false off
  | .near o off => bad (d.core o).mem true off
  | _ => none

/-- The blocks of a granule's local source that hold an uncorrectable word: all of each block that is read whole, or the granule's own bytes (R189, R326). -/
def DmaEnd.span (src : DmaEnd) (addr n : Nat) : Nat × Nat :=
  if src.bc then (addr / 4096 * 4096, (addr + n + 4095) / 4096 * 4096 - addr / 4096 * 4096) else (addr, n)

/-- A block of a granule failed twice as a command operand says (R305, R309, R326). A local block is verified only through a handle with bc. -/
def Dev.granuleFails (d : Dev) (c : CoreId) (x : Ctx) (e : QEntry) (q : DmaDesc) (src : DmaEnd) (off at_ : Nat) (write burst : Bool) : Dev :=
  let d := if burst then d.bump 0x3100 3 3 else d
  let space := if write then q.dstSpace else q.srcSpace
  let addr := if write then q.dstAddr else q.srcAddr
  if space = 1 then
    match x.blockOf (addr + off + at_) with
    | some b => d.dmaBlockLost c e b
    | none => d
  else if write || !src.bc then d
  else d.dmaCheckFails c e (src.base + q.srcAddr + off + at_)

/-- A granule moves: read whole and verified, then written whole (R325, R326). -/
def Dev.granuleMoves (d : Dev) (c : CoreId) (ctx : Nat) (x : Ctx) (e : QEntry) (q : DmaDesc) (src dst : DmaEnd) (off n : Nat)
    (remote : List Byte) (late : Nat) : Dev :=
  let from_ := src.base + q.srcAddr + off
  match d.sourceBad x q off n with
  | some b => d.dmaBlockLost c e b
  | none =>
    match (if q.srcSpace = 0 then d.badAt c (src.span from_ n) else none) with
    | some w => d.badWord c w 4 e.sb e.pc e.gear
    | none =>
      match (if q.srcSpace = 0 && src.bc then d.localDiffers c from_ n else none) with
      | some a => d.dmaCheckFails c e a
      | none =>
        match d.granuleRead c x q src off n remote with
        | none => d.badWord c .home 4 e.sb e.pc e.gear
        | some bs =>
          match d.granuleWrite c ctx x q dst off bs with
          | none => d.readFailed c (dst.base + q.dstAddr + off) n 4 e.sb e.pc e.gear
          | some d => d.granuleDone c e.cmd.dmaQueue off n q.length late

/-- A read of a far or host page in place got no reply: it is tried again, or the command ends (R317, R321). -/
def Dev.granuleTimeout (d : Dev) (c : CoreId) (late : Nat) : Dev :=
  if (d.arch c).dma.tries < d.objD 0x3101 5 2 then
    (d.updArch c fun a => { a with dma := { a.dma with tries := a.dma.tries + 1 } }).askRemote c
  else (d.dmaEndsAt c cRemotePageTimeout late).bump 0x3101 0xB 1

/-- Whether the engine of a core still moves granules: on a core that has stopped or is scanned out, the one in progress (R80, R82). -/
def Arch.dmaRuns (a : Arch) : Bool := a.live || a.stat.run = .stopped || a.stat.run = .scanning

/-- The next granule of the running command ends (R325 to R327). It waits while a page it touches is not in the translation cache, not present or busy. -/
def Dev.granule (d : Dev) (c : CoreId) (ge : GranuleEnd) (late : Nat) : Dev :=
  let a := d.arch c
  match (vGet a.units 3 clearUnit).queue, (d.core c).ctx with
  | e :: _, some ctx =>
    match e.cmd with
    | .dma _ _ bs src dst off =>
      let q := dmaDesc bs
      let x := d.ctx ctx
      let n := min 4096 (q.length - off)
      let pages := granulePages q.srcSpace (q.srcAddr + off) n false ++ granulePages q.dstSpace (q.dstAddr + off) n true
      let ready (p : Nat × Bool) : Bool :=
        d.tlbHit c ctx (x.cachePage p.1) p.2 && (x.leaf p.1).any fun l => l.valid && !l.busy
      if !a.dmaRuns || !e.started || !pages.all ready then d
      else
        let d := pages.foldl (fun d p => d.tlbUse c ctx (x.cachePage p.1)) d
        match ge with
        | .blockFail at_ write burst => d.granuleFails c x e q src off at_ write burst
        | .remoteTimeout =>
          if (granulePages q.srcSpace (q.srcAddr + off) n false).any fun p => (x.leaf p.1).any fun l => decide (2 ≤ l.home) then
            d.granuleTimeout c late
          else d
        | .moved remote retries transient =>
          (d.readCounts retries transient).granuleMoves c ctx x e q src dst off n remote late
    | _ => d
  | _, _ => d

/-! ### Remote fetches that get no reply (R317, R321) -/

/-- A fetch ends without its page: the leaf stays not present and the waiting commands end (R317). -/
def Dev.fetchEnds (d : Dev) (f : Nat × Nat × Nat) : Dev :=
  let d := { d with t2 := { d.t2 with fills := d.t2.fills.erase f } }
  let d := d.updCtx f.1 fun x => x.updLeaves f.2.1 fun _ y => { y with busy := false }
  (d.coresOf f.1).foldl (fun d c =>
    if d.waitsOn c f.1 f.2.1 then (d.dmaEnds c cRemotePageTimeout).bump 0x3101 0xB 1 else d) d

/-- An attempt to fetch a faulted page got no reply: it is retried, or after the last attempt the leaf stays not present and the waiting commands end (R317). -/
def Dev.fetchTimeout (d : Dev) (ctx page : Nat) : Dev :=
  match d.t2.fills.find? fun f => f.1 = ctx && f.2.1 = page, (d.ctx ctx).leaf page with
  | some f, some l =>
    if l.home < 2 then d
    else if f.2.2 < d.objD 0x3101 5 2 then
      { d with t2 := { d.t2 with fills := d.t2.fills.map fun g => if g = f then (ctx, page, f.2.2 + 1) else g } }.ask ctx page (l.place 0) 65536
    else d.fetchEnds f
  | _, _ => d

end Sys2Proof.Machine
end

