-- ==== Sys2Proof/Machine/Rows.lean ====
section
/-! DEFINITION. Row maps, the defect map and the watch list's records (R21 to R32, R400, R401, R408 to R411). -/

namespace Sys2Proof.Machine

/-! ### Exclusion sets (R21, R22) -/

/-- Columns of a set of a row's cells. -/
def colsOf (set : Nat) : List Nat := (List.range 32).filter fun p => bit set p

/-- An exclusion set of two cells: the given ones, then the good ones in an order. -/
def exclSet (first order : List Nat) : Nat :=
  (((first ++ order.filter fun p => !first.contains p).take 2).map fun p => 2 ^ p).sum

/-- Home map of a row with its fenced cells (R22). -/
def homeMap (fenced : Nat) : Nat := exclSet (colsOf fenced) (List.range 32).reverse

/-- Replay map (R22). -/
def replayMap (fenced : Nat) : Nat := exclSet (colsOf fenced) (List.range 32)

/-- Groomer map for a cell under test (R22). -/
def groomMap (fenced cell : Nat) : Nat := exclSet (colsOf fenced ++ [cell]) (List.range 32).reverse

/-- Fenced cells of a row. -/
def Dev.fenced (d : Dev) (py : Nat) : Nat := vGet d.keep.fences py 0

/-- Whether a physical cell is fenced. -/
def Dev.isFenced (d : Dev) (px py : Nat) : Bool := bit (d.fenced py) px

/-- The other map of a row: the home map of a row on its replay map, else the replay map (R381). -/
def Dev.otherMap (d : Dev) (py : Nat) : Nat :=
  let f := d.fenced py
  if vGet d.rowMap py 0 = replayMap f then homeMap f else replayMap f

/-! ### Changes of row maps (R26, R41, R42) -/

/-- Logical cell row on a physical row. -/
def Dev.logicalRow (d : Dev) (py : Nat) : Option Nat := d.physRows.findIdx? (· = py)

/-- Regions of running contexts with a cell on a physical row: context and region. -/
def Dev.regionsOnRow (d : Dev) (py : Nat) : List (Nat × Nat) :=
  match d.logicalRow py with
  | none => []
  | some cy => d.ctxs.flatMap fun p =>
      (p.2.image.regions.filter fun r => (p.2.regions.any fun t => t.num = r.region) && decide (r.cy0 ≤ cy)
        && decide (cy < r.cy0 + r.ch)).map fun r => (p.1, r.region)

/-- The device changes the epoch itself for row maps: it writes the other bank first, with the tables in force but for the station table, which reaches each port as R16 puts it under the new maps (R16, R42, R244 to R246; log entries 27 and 109). -/
def Dev.flipTo (d : Dev) (maps : Vector Nat 32) : Dev :=
  { d with
    rowMap := maps
    fencesAt := d.keep.fences
    mesh := { d.mesh with
      epoch := 1 - d.mesh.epoch, otherMap := d.rowMap
      stationCur := rerouted maps d.mesh.stationCur, stationNext := d.mesh.stationCur, routeNext := d.mesh.routeCur }
    objs := nmSet (bankedObjs.foldl (fun m o =>
      if (nmGet m (nkey o.1 o.2.1)).isNone then m else nmSet m (nkey o.1 o.2.1) ((nmGet m (okey o.1 o.2.1)).getD o.2.2)) d.objs)
        (okey 0x2004 3) ((d.objD 0x2004 3 0 + 1) % 2 ^ 32) }

/-- Physical cell that carries a logical cell, under the maps that its region still runs (R21, R26). -/
def Dev.cellPlace (d : Dev) (cell : Nat × Nat) : Nat × Nat :=
  d.physCell (((d.rtOf ⟨2 * cell.1, 2 * cell.2⟩).map (·.maps)).getD []) cell.1 cell.2

/-- Keys of the slices of a physical cell. -/
def sliceKeys (p : Nat × Nat) : List Nat := (List.range 4).map fun k => (p.2 * 2 + k / 2) * 64 + p.1 * 2 + k % 2

/-- Power state of slices that hold nothing: self-refresh, or off when near.off_when_idle is 1 (R197). -/
def Dev.idlePower (d : Dev) : Nat := if d.objD 0x3000 7 1 = 0 then 1 else 2

/-- Sets the slices of a physical cell in use for a test, or idle again (R28). -/
def Dev.testPower (d : Dev) (n : Nat) (on : Bool) : Dev :=
  (sliceKeys (n % 32, n / 32)).foldl (fun d k =>
    d.updSlice k fun x => { x with power := if on then 0 else d.idlePower, bank := if on then 0 else 2 }) d

/-- Slices and home banks follow the cells that have moved: those that a cell has left are idle, the new ones take up its power state (R28, R197). -/
def Dev.followPower (d old : Dev) (moved : List (Nat × Nat)) : Dev :=
  let off := moved.foldl (fun e c => let p := old.cellPlace c; e.testPower (p.2 * 32 + p.1) false) d
  moved.foldl (fun e c => ((sliceKeys (old.cellPlace c)).zip (sliceKeys (d.cellPlace c))).foldl (fun e p =>
    e.updSlice p.2 fun x => { x with power := (old.slice p.1).power, bank := (old.slice p.1).bank }) e) off

/-- The four cores of a logical cell. -/
def cellCores (p : Nat × Nat) : List CoreId := (List.range 4).map fun k => ⟨2 * p.1 + k % 2, 2 * p.2 + k / 2⟩

/-- The context engine reloads the resident slots of a core from the images kept for them (R284). -/
def Dev.reload (d : Dev) (c : CoreId) : Dev :=
  match (d.core c).ctx with
  | none => d
  | some n =>
    let kept := (d.ctx n).keptSlots c
    let loads := residents (d.core c).slots
    (d.updCore c fun k => { k with
      slots := Vector.ofFn fun i : Fin 4 => if (k.slot i.val).state = 2 then vGet kept i.val clearSlot else k.slot i.val
      slotEpoch := (k.slotEpoch + 2 * loads) % 2 ^ 32 }).bump 0x4400 2 loads

/-- What a change of placement brings for the cells that it has moved: their slices, and the gears of their cores (R28, R284). -/
def Dev.moved (d old : Dev) (cells : List (Nat × Nat)) : Dev :=
  let moved := cells.filter fun c => old.cellPlace c != d.cellPlace c
  (moved.flatMap cellCores).foldl Dev.reload (d.followPower old moved)

/-- Rows take new exclusion sets; a region in `stay` runs on under the old ones until its next gate (R26). The change is made at an epoch change (R244). -/
def Dev.setRows (d : Dev) (rows : List (Nat × Nat)) (stay : Nat × Nat → Bool) : Dev :=
  let staying := rows.foldl (fun e p => ((d.regionsOnRow p.1).filter stay).foldl (fun e q => e.updCtx q.1 fun x => { x with
    regions := x.regions.map fun t =>
      if t.num = q.2 && (nmGet t.maps p.1).isNone then { t with maps := nmSet t.maps p.1 (vGet d.rowMap p.1 0) } else t }) e) d
  (staying.flipTo (rows.foldl (fun m p => vSet m p.1 p.2) d.rowMap)).moved d
    (rows.flatMap fun p => match d.logicalRow p.1 with
      | some cy => (List.range 30).map fun cx => (cx, cy)
      | none => [])

/-- What the non-volatile store keeps of a retirement: the row, and the flag for replacement (R30). R30 names no code for the flag: SPARES_EXHAUSTED when none stands (DESIGN CHOICE, log entry 96). -/
def Keep.retire (k : Keep) (py : Nat) : Keep :=
  { k with retired := some py, replace := if k.replace = 0 then cSparesExhausted else k.replace }

/-- Retires a row once no context holds cells (R30): the logical rows move onto the remaining ones, and the device is flagged for replacement. -/
def Dev.retireNow (d : Dev) (py : Nat) : Dev :=
  { d.flipTo (vSet d.rowMap py 0xFFFFFFFF) with retiring := none, keep := d.keep.retire py }

/-! ### The watch list (R400, R401) -/

/-- Whether a record counts as within 24 hours (R401). -/
def Dev.young (d : Dev) (r : DefRec) : Bool :=
  !d.disciplined || r.uncertain || decide (d.time ≤ r.time + 86400000000000)

/-- Whether a watch record names a core of a physical cell. -/
def DefRec.inCell (r : DefRec) (px py : Nat) : Bool := bits r.place 7 0 / 2 = px && bits r.place 15 8 / 2 = py

/-- Whether a record is a watch record. -/
def DefRec.watch (r : DefRec) : Bool := r.kind = 2 || r.kind = 3 || r.kind = 4

/-- Open watch records (R419). -/
def Keep.open_ (k : Keep) : List DefRec := k.recs.filter fun r => r.watch && !r.closed

/-- Whether an earlier watch event of a kind in a cell lies within 24 hours (R400). -/
def Dev.watchedBefore (d : Dev) (kind px py : Nat) : Bool :=
  d.keep.recs.any fun r => r.kind = kind && !r.closed && r.inCell px py && d.young r

/-- Margin-watch events in a cell over the life of the part (R400, R401). -/
def Dev.marginEvents (d : Dev) (px py : Nat) : Nat :=
  ((d.keep.recs.filter fun r => r.kind = 4 && r.inCell px py).map (·.count)).sum

/-- A fence supersedes the watch records of its cell (R409). -/
def Keep.superseded (k : Keep) (px py : Nat) : Keep :=
  { k with recs := k.recs.map fun r => if r.watch && r.inCell px py then { r with closed := true } else r }

/-- Watch records more than 24 hours old are closed (R401). -/
def Dev.closeOld (d : Dev) : Dev :=
  if !d.disciplined then d
  else { d with keep := { d.keep with recs := d.keep.recs.map fun r =>
    if r.watch && !r.closed && !d.young r then { r with closed := true } else r } }

end Sys2Proof.Machine
end

