-- ==== Sys2Proof/Machine/Context.lean ====
section
/-! DEFINITION. Contexts: load, admission, scheduling, entry and resumption, parking and scan-out (R334 to R358, R282, R298 to R303). -/

namespace Sys2Proof.Machine

/-! ### Regions, cells and states (R339, R346, R348) -/

/-- Run-time record of a region. -/
def Ctx.rt? (x : Ctx) (num : Nat) : Option RegionRt := x.regions.find? fun r => r.num = num

/-- Changes the run-time record of a region. -/
def Ctx.updRt (x : Ctx) (num : Nat) (f : RegionRt → RegionRt) : Ctx :=
  { x with regions := x.regions.map fun r => if r.num = num then f r else r }

/-- Changes the run-time record of a region of a context. -/
def Dev.updRt (d : Dev) (n num : Nat) (f : RegionRt → RegionRt) : Dev := d.updCtx n fun x => x.updRt num f

/-- Cores of a region. -/
def Ctx.coresIn (x : Ctx) (num : Nat) : List CoreId :=
  ((x.image.regions.find? fun r => r.region = num).map RegionRec.cores).getD []

/-- Cores of a context. -/
def Ctx.allCores (x : Ctx) : List CoreId := x.image.regions.flatMap RegionRec.cores

/-- Logical cells of a region. -/
def RegionRec.cells (r : RegionRec) : List (Nat × Nat) :=
  (List.range r.ch).flatMap fun j => (List.range r.cw).map fun i => (r.cx0 + i, r.cy0 + j)

/-- Logical cells of a context. -/
def Ctx.cells (x : Ctx) : List (Nat × Nat) := x.image.regions.flatMap RegionRec.cells

/-- Whether a context in a state claims its cells (R346). -/
def CtxState.holds : CtxState → Bool
  | .resident | .running | .blocked | .draining => true
  | _ => false

/-- Whether a logical cell is held by another context, the groomer or a stand-in (R348). -/
def Dev.cellHeld (d : Dev) (n : Nat) (cell : Nat × Nat) : Bool :=
  d.holds.contains cell || d.ctxs.any fun p => p.1 != n && p.2.state.holds && p.2.cells.contains cell

/-- Whether the device accepts loads, dispatch and gear loads (R562). -/
def Dev.inService (d : Dev) : Bool := d.objD 0x2104 2 1 = 0xFF

/-- Whether the life-cycle state forbids loads and dispatch: SHIPPED and SCRAPPED (R537). -/
def Dev.lcDenied (d : Dev) : Bool := d.sec.fuses.lc = 1 || d.sec.fuses.lc = 4

/-- Whether dispatch is refused for the whole device (R29, R30, R451). R30 does not say what a dispatch meets while a retirement waits for contexts to leave: refusal with STATE_INVALID, as after a drain (DESIGN CHOICE, log entry 96). -/
def Dev.noDispatch (d : Dev) : Bool :=
  d.keep.replace = cDeviceDrainedReplace || d.objD 0x6200 7 0 = 1 || d.retiring.isSome

/-- Cores of this device that have ended or have no further part in their region's gates (R109). -/
def Dev.allEnded (d : Dev) (cores : List CoreId) : Bool := cores.all fun c => (d.arch c).stat.ended

/-! ### Residency (R441) -/

/-- Sends a residency frame to every device of the peer table (R441). -/
def Dev.residency (d : Dev) (n : Nat) (here : Bool) : Dev :=
  let l := (d.ctx n).peerList
  let d := d.updCtx n fun x => { x with unacked := (l.map Prod.fst).dedup }
  l.foldl (fun d p => d.sendMgmt p.1 7 n p.2 0 0 (.residency here)) d

/-- A context changes state: its time RUNNING is counted (R358) and its peers learn of a change of residency (R441). -/
def Dev.toState (d : Dev) (n : Nat) (st : CtxState) : Dev :=
  let old := (d.ctx n).state
  let d := d.updCtx n fun x => { x with
    state := st
    runNs := x.runNs + match x.runSince with
      | some t => d.time - t
      | none => 0
    runSince := if st = .running then some d.time else none }
  if old.holds = st.holds then d else (d.residency n st.holds).clockRise

/-! ### Slices and banks (R190, R197) -/

/-- Sets the slices and home banks under logical cells: 0 in use, 1 holding contents of an absent context, 2 idle. -/
def Dev.powerCells (d : Dev) (cells : List (Nat × Nat)) (mode : Nat) : Dev :=
  let idle := if d.objD 0x3000 7 1 = 0 then 1 else 2
  (cells.flatMap cellCores).foldl (fun d c =>
    d.updSlice (d.physKey c) fun x => { x with power := if mode = 2 then idle else mode, bank := mode }) d

/-! ### Long operations (R355, R356) -/

/-- Queued or running. -/
def LongOp.busy (o : LongOp) : Bool := o.state = 1 || o.state = 2

/-- A finished operation with the code that ended it. -/
def LongOp.ends (o : LongOp) (code : Code) : LongOp :=
  { o with state := if code = cOk then 3 else 4, progress := if code = cOk then 255 else o.progress, code := code }

/-- A cancelled operation (log entry 26). -/
def LongOp.cancelled (o : LongOp) : LongOp := { o with state := 5, code := cOk }

/-- Whether any long operation of a context is queued or running (R606). -/
def Ctx.opBusy (x : Ctx) : Bool :=
  x.load.busy || x.gearLoad.busy || x.migrate.busy || x.reshard.busy || x.ckpt.busy

/-- Produces a partial-result record; the oldest of 1,024 unread records is dropped (R356). -/
def Dev.result (d : Dev) (code : Code) (detail : Nat) : Dev :=
  let full := decide (1024 ≤ d.results.length)
  let d := if full then d.bump 0x5000 0xA 1 else d
  { d with
    results := (if full then d.results.drop 1 else d.results) ++ [(d.resultSeq, code, detail)]
    resultSeq := (d.resultSeq + 1) % 2 ^ 32 }

/-! ### Load requests (R562, R606) -/

/-- Rows 3 to 5 of R606. -/
def sourceCheck (x : Ctx) (window offset bytes : Nat) : Option Code :=
  match nmGet x.windows window with
  | none => some cBadArgument
  | some w => firstFail [
      (!w.r, cBadArgument),
      (offset % 65536 != 0 || bytes = 0, cBadArgument),
      (decide (w.length < offset + bytes), cBounds)]

/-- The checks of a load request, in order (R562, R606). -/
def Dev.loadCheck (d : Dev) (n window offset bytes : Nat) : Option Code :=
  let x := d.ctx n
  match firstFail [
    (d.lcDenied, cLifecycleDenied),
    (!d.inService, cStateInvalid),
    (decide (16384 ≤ n), cBadArgument),
    (x.state != .free, cStateInvalid),
    (x.opBusy, cBusy)] with
  | some c => some c
  | none => sourceCheck x window offset bytes

/-- A request to load a context: refused, or queued (R606). -/
def Dev.loadGo (d : Dev) (n window offset bytes : Nat) : Dev :=
  match d.loadCheck n window offset bytes with
  | some c => d.reply c
  | none =>
    let d := d.updCtx n fun x => { x with load := ⟨1, 0, cPending, window, offset, bytes, 0⟩ }
    { d with lastReq := nmSet d.lastReq (okey 0x5002 5) n }.emit (.hostRead window offset bytes)

/-- The meaning of CTX_LOAD_GO: the operands stand in 0x5002:01 to 0x5002:04. -/
def execCtxLoadGo (s : State) : Host.Outcome State Fault Refusal :=
  s.onDev fun d => d.loadGo (d.objD 0x5002 1 0) (d.objD 0x5002 2 0) (d.objD 0x5002 3 0) (d.objD 0x5002 4 0)

/-- A cancelled load releases its reservation (R356). -/
def Dev.loadCancel (d : Dev) (n : Nat) : Dev :=
  if (d.ctx n).load.busy then d.updCtx n fun x => { x with load := x.load.cancelled } else d.reply cStateInvalid

/-- The meaning of CTX_LOAD_CANCEL. -/
def execCtxLoadCancel (s : State) : Host.Outcome State Fault Refusal := s.onDev fun d => d.loadCancel (d.objD 0x5002 1 0)

/-! ### Admission (R343, R344, R357) -/

/-- A frame for a page of a local segment, taken from the reservation at first use (R318). -/
def Dev.needFrame (d : Dev) (n page : Nat) : Dev :=
  match (d.ctx n).leaf page with
  | none => d
  | some l =>
    if l.valid then d
    else
      let (p0, cnt) := l.span page
      match d.lowestFrame cnt with
      | none => d
      | some f => (d.takeFrames n f cnt).updCtx n fun x => x.updLeaves p0 fun i y =>
        { y with valid := true, home := 0, target := (f + i) * 16 }

/-- A page of a pinned segment: a local one takes its frame, one with a remote backing is fetched (R311, R317). -/
def Dev.pinPage (d : Dev) (n page : Nat) : Dev :=
  match (d.ctx n).leaf page with
  | none => d
  | some l =>
    if l.valid || l.busy then d
    else if l.home < 2 then d.needFrame n page
    else
      let d := d.updCtx n fun x => x.updLeaves page fun _ y => { y with busy := true }
      { d with t2 := { d.t2 with fills := d.t2.fills ++ [(n, (l.span page).1, 0)] } }

/-- The frames of pinned segments are allocated and filled at load (R311; log entry 91). -/
def Dev.pinPages (d : Dev) (n : Nat) (segments : List Segment) : Dev :=
  (segments.filter (·.pinned)).foldl (fun d s =>
    (List.range (s.length / 65536)).foldl (fun d i => d.pinPage n (s.base / 65536 + i)) d) d

/-- Writes bytes at a virtual address of a local segment, taking frames as needed. -/
def Dev.fillVa (d : Dev) (n va : Nat) (bs : List Byte) : Dev :=
  ((pagePieces va bs.length).foldl (fun (d, bs) p =>
    let d := d.needFrame n p.1
    let d := match (d.ctx n).leaf p.1 with
      | some l => d.writePlace (l.place p.2.1) (bs.take p.2.2) n
      | none => d
    (d, bs.drop p.2.2)) (d, bs)).1

/-- Bytes of the sections that are kept for the life of the context (R344). -/
def keptBytes (bs : List Byte) : Nat :=
  let dir := imageDir bs
  let len := bits (leNat (bs.take 64)) 127 64
  ([1, 2, 3, 4, 5, 6, 9].map fun k => ((sectionOf bs len dir k).map fun s => s.2.length).sum).sum

/-- An admitted image: the context is LOADED with its reservation, of which `fixed` frames hold its tables, sections and areas (R318, R331, R332, R344, R347). -/
def Dev.admitted (d : Dev) (n : Nat) (m : Image) (fixed : Nat) : Dev :=
  let d := (d.toState n .loaded).updCtx n fun x => { x with
    image := m, cls := m.cls, reservedFrames := m.segFrames, reservedBytes := (fixed + m.segFrames) * 65536, entered := false, pt := []
    fixed := [], kept := [], adopt := 0xFFFE, load := x.load.ends cOk }
  m.segContents.foldl (fun d p => d.fillVa n p.1 p.2) ((Dev.takeFixed n fixed d).pinPages n m.segments)

/-- The image of a re-shard: new regions and what they run, over the context's own segments (R357). -/
def Image.reshardOver (new old : Image) : Image :=
  { new with
    segments := if new.segments = [] then old.segments else new.segments
    act := if new.act = [] then old.act else new.act, roundKey := old.roundKey, horizon := old.horizon }

/-! ### The ready queues (R351) -/

/-- A context joins the tail of its class. -/
def Dev.join (d : Dev) (n : Nat) : Dev :=
  let c := (d.ctx n).cls
  { d with ready := vSet d.ready c (vGet d.ready c [] ++ [n]) }

/-- A context leaves its ready queue. -/
def Dev.leave (d : Dev) (n : Nat) : Dev := { d with ready := d.ready.map fun l => l.filter (· != n) }

/-- Weight of a class (R358). -/
def Dev.weight (d : Dev) (cls : Nat) : Nat := d.objD 0x5001 (cls + 1) (2 ^ cls)

/-- Cell-time that a class used within the window, in ns (R351). -/
def Dev.cellTime (d : Dev) (cls : Nat) : Nat :=
  let from_ := d.time - d.objD 0x5000 5 100 * 1000000
  let past := (d.usage.filter fun u => u.1 = cls).map fun u => (u.2.2.1 - max from_ u.2.1) * u.2.2.2
  let now := (d.ctxs.filter fun p => p.2.state.holds && p.2.cls = cls).map fun p =>
    (d.time - max from_ p.2.claimedAt) * p.2.cells.length
  past.sum + now.sum

/-- Whether class a has a lower ratio of cell-time to weight than class b. -/
def Dev.lower (d : Dev) (a b : Nat) : Bool := decide (d.cellTime a * d.weight b < d.cellTime b * d.weight a)

/-- Whether every cell of a context can be claimed (R348, R349). -/
def Dev.claimable (d : Dev) (n : Nat) : Bool := (d.ctx n).cells.all fun c => !d.cellHeld n c

/-- The class whose head the default policy dispatches: lowest ratio, ties to the higher class (R351). -/
def Dev.pickClass (d : Dev) : Option Nat :=
  ((List.range 8).filter fun c => d.weight c != 0 && match vGet d.ready c [] with
    | n :: _ => d.claimable n
    | [] => false).foldl (fun best c => match best with
      | none => some c
      | some b => if d.lower b c then some b else some c) none

/-! ### Entry and resumption (R198, R199, R302, R349, R352) -/

/-- The exclusive use of slot images at entry: slot s holds the image that init names (R339). -/
def initSlots (m : Image) (r : RegionRec) (c : CoreId) : Vector Slot 4 :=
  r.init.map fun i => if i = 15 then clearSlot else m.slot c i

/-- The four slots of a core as they read (R303, R559). -/
def Dev.slotsOf (d : Dev) (c : CoreId) : Vector Slot 4 := Vector.ofFn fun i : Fin 4 => d.slotOf c i.val

/-- A core as a context first enters it (R349): registers reset, the initial gears loaded and kept in tier 2, the entry slot in force, step_no 0 (R279, R284; log entry 113). -/
def Dev.enterCore (d : Dev) (n : Nat) (m : Image) (r : RegionRec) (c : CoreId) : Dev :=
  let k := d.core c
  let slots := initSlots m r c
  let gear := r.entrySlot
  let s := vGet slots gear clearSlot
  let a := { clearArch with
    stat := { clearStat with run := .atGate, gear := gear, pc := s.startIdx }
    tensor := { clearTensor with plan := m.planAt c }, spanGear := gear }
  let changes := slotChanges (d.slotsOf c) slots
  let d := d.setCore c { clearCore with
    ctx := some n, region := r.region, arch := a.installHandles s.handlePlan, slots := slots
    slotEpoch := (k.slotEpoch + changes) % 2 ^ 32 }
  let d := d.updCtx n fun x => { x with kept := keepImages x.kept c slots }
  ((d.updCore c Core.enterGear).installQueues c gear).bump 0x4400 2 (residents slots)

/-- Local contents that an image supplies, written for every core of a record's rectangle (R198). -/
def Dev.writeContents (d : Dev) (m : Image) (cores : List CoreId) : Dev :=
  m.contents.foldl (fun d r => (cores.filter fun c => r.rect.has c).foldl (fun d c =>
    (d.localWrite c r.addr r.bytes).getD d) d) d

/-- A core scanned in from its record, its gears reloaded from the images kept for them and its contents restored (R84, R199, R284, R302). -/
def Dev.scanIn (d : Dev) (n region : Nat) (c : CoreId) (s : Saved) (mem : Option LocalMem) (shadow : Bool) : Dev :=
  let k := d.core c
  let a := { s.arch with
    stat := { s.arch.stat with
      run := if s.arch.stat.run = .scanning then (if s.reports = [] then .running else .atGate) else s.arch.stat.run }
    tensor := { s.arch.tensor with plan := (d.ctx n).image.planAt c } }
  let slots := (d.ctx n).keptSlots c
  (d.setCore c { clearCore with
    ctx := some n, region := region, arch := a, slots := slots
    slotEpoch := (k.slotEpoch + slotChanges (d.slotsOf c) slots) % 2 ^ 32
    usedSlots := s.used, mem := mem.getD k.mem, reports := s.reports
    shadows := if shadow then [a] else [] }).bump 0x4400 2 (residents slots) |>.bump 0x4400 0xC 1

/-- The code with which a record is refused at its scan-in to a core (R10, R302). -/
def Saved.refused (s : Saved) (n : Nat) (c : CoreId) : Option Code :=
  firstFail [
    (s.hdr.version / 256 != 1, cUnsupportedVersion),
    (s.hdr.x != c.x || s.hdr.y != c.y || s.hdr.ctx != n, cBadArgument),
    (s.hdr.check != 0, cBlockCheckFail)]

/-- Gate-class values that take effect for a region (R496). -/
def Dev.gateNow (d : Dev) : NMap Nat :=
  [(okey 0x4000 3, d.objD 0x4000 3 0), (okey 0x6000 1, d.objD 0x6000 1 20000)]

/-- Run-time record of a region that enters or resumes. -/
def Dev.newRt (d : Dev) (num step : Nat) (shadowed : Bool) : RegionRt :=
  { num := num, gateStep := step, settled := [], timer := false, replay := none, shadowed := shadowed, parked := false, parkedAt := 0,
    scanned := false, gateVals := d.gateNow, oldVals := [], maps := [], degraded := false }

/-- Whether a context that holds cells covers the row that is about to be retired (R30). -/
def Dev.coversRetiring (d : Dev) (n : Nat) : Bool :=
  match d.retiring with
  | some py => (d.regionsOnRow py).any fun q => q.1 = n
  | none => false

/-- Whether a row-map change that waits moves a cell of a region. -/
def Dev.moving (d : Dev) (n num : Nat) : Bool :=
  let cells := (((d.ctx n).image.regions.find? fun r => r.region = num).map RegionRec.cells).getD []
  d.moves.any fun m => m.rows.any fun p => cells.any fun c =>
    d.physRow c.2 = p.1 && mapColumn (vGet d.rowMap p.1 0) c.1 != mapColumn p.2 c.1

/-- Whether a region must hold at its last commit: a park or pre-emption is asked for, a move affects it, a checkpoint captures it, or its context waits for a retirement (R30, R350, R405, R457). -/
def Dev.mustPark (d : Dev) (n num : Nat) : Bool :=
  let x := d.ctx n
  x.gateReq.isSome || d.moving n num || d.coversRetiring n
    || (x.ckpt.state = 2 && x.ckpt.c = 0 && (x.rt? num).any fun r => decide (x.ckpt.a < r.gateStep))

/-- How far the device-wide count of CORE cycles has come by the cores' own cycles (R565). -/
def Dev.coreNow (d : Dev) : Nat := d.cores.foldl (fun m p => max m p.2.arch.stat.place) d.coreCount

/-- Cycles by which a core begins a step after its region's first column (R563). -/
def RegionRec.offset (r : RegionRec) (c : CoreId) : Nat := 16 * (c.x / 2 - r.cx0) / r.cw

/-- Cores of a region begin or resume a step, each at its column's offset, which no step counts, from one place of the device-wide count; how many CORE cycles have passed since the count was last known is free (R563, R565; log entry 32). -/
def Dev.staggered (d : Dev) (n num : Nat) (cores : List CoreId) : Dev :=
  match (d.ctx n).image.regions.find? fun r => r.region = num with
  | none => d
  | some r =>
    if cores.isEmpty then d
    else
      let (v, d) := d.fresh
      let at_ := d.coreNow + v
      cores.foldl (fun d c => d.updStat c fun s => { s with place := at_ + r.offset c }) { d with coreCount := at_ }

/-- Cores of a region that wait for their next step begin it (R372, R563), but not before the crossing commands that a roll-back runs again have completed (R328). -/
def Dev.begin_ (d : Dev) (n num : Nat) : Dev :=
  let cores := (d.ctx n).coresIn num
  let d := d.updRt n num fun r => { r with parked := false }
  if cores.any fun c => (d.arch c).dma.rerun then d
  else
    let due := cores.filter fun c =>
      let k := d.core c
      k.ctx = some n && k.arch.stat.run = .atGate && k.reports = [] && !k.arch.stat.lastGate
    (due.foldl (fun d c => d.updStat c fun s => { s with run := .running }) d).staggered n num due

/-- Shadows of cores that first enter: their state at entry (R377). -/
def Dev.shadowEntry (d : Dev) (cores : List CoreId) : Dev :=
  cores.foldl (fun d c => d.updCore c fun k =>
    { k with shadows := [{ k.arch with stat := { k.arch.stat with run := .atGate } }] }) d

/-! ### Leaving the cells (R199, R265, R291, R298 to R300, R346, R559) -/

/-- Whether a core's rings or its broom hold a message, or its reduction area holds an input (R350). -/
def MsgUnit.holds (u : MsgUnit) : Bool :=
  (u.rings.toList.any fun r => r.recs.any fun m => !m.pad) || !u.broom.isEmpty || !u.heldParts.isEmpty

/-- The record of a core's state for the save area or a checkpoint slot (R298, R300). Home-bank contents are included while the message unit holds anything, accumulator memory while any of it is in use or a hash slot is valid, and both in mid-step (R182, R350; log entry 16). -/
def Core.record (k : Core) (n : Nat) (c : CoreId) (mid : Bool) : Saved :=
  let s := k.arch.stat
  let home := mid || k.arch.msg.holds
  let acc := mid || !k.arch.tensor.acc.isEmpty || !k.arch.tensor.tags.isEmpty
  { hdr := { version := 0x0100, x := c.x, y := c.y, home := home, acc := acc, midStep := mid, gear := s.gear
             carry := k.arch.msg.carry, stepNo := s.stepNo, ctx := n
             bytes := 40960 + (if home then 262144 else 0) + (if acc then 65536 else 0), check := 0 }
    arch := k.arch, reports := k.reports, snaps := k.shadows.map (·.handles), used := k.usedSlots }

/-- The record of a core of a context: of a mid-step scan unless its region holds at its last commit. -/
def Dev.recordOf (d : Dev) (n : Nat) (c : CoreId) : Saved :=
  let k := d.core c
  k.record n c ((d.ctx n).midStep && !((d.ctx n).rt? k.region).any fun r => r.parked)

/-- Records of the cores of a context. -/
def Dev.records (d : Dev) (n : Nat) : NMap Saved :=
  (d.ctx n).allCores.foldl (fun l c => if (d.core c).ctx = some n then nmSet l (ckey c) (d.recordOf n c) else l) []

/-- Local contents of the cores of a context. -/
def Dev.contents (d : Dev) (n : Nat) : NMap LocalMem :=
  (d.ctx n).allCores.foldl (fun l c => nmSet l (ckey c) (d.core c).mem) []

/-- Ends a context's gear load: the slots that it was loading are empty (R354, R356). -/
def Dev.dropGearLoad (d : Dev) (n : Nat) : Dev :=
  if !(d.ctx n).gearLoad.busy then d
  else (d.emptyLoading (rectCores (d.ctx n).gearLoad.a)).updCtx n fun x => { x with gearLoad := x.gearLoad.cancelled }

/-- A core of a context that leaves the device is idle, with the idle program; unless the context is to return, its rings close and its broom is discarded (R265, R291, R559). -/
def Dev.leaveCore (d : Dev) (n : Nat) (keepMem : Bool) (c : CoreId) : Dev :=
  if (d.core c).ctx ≠ some n then d
  else
    let d := if keepMem then d else (List.range 4).foldl (fun d i => d.broomRetire c i) (d.closeRings c)
    let k := d.core c
    let idle := if d.idleGear then vSet clearCore.slots 0 d.idleSlot else clearCore.slots
    (d.setCore c { clearCore with
      slotEpoch := (k.slotEpoch + slotChanges k.slots idle) % 2 ^ 32
      mem := if keepMem then k.mem else clearCore.mem }).bump 0x4400 2 (if d.idleGear then 1 else 0)

/-- Cells and cores of a context that leaves the device; `keepMem` keeps its contents in place (R199, R350). Its translations leave the caches of the DMA engines (R299). -/
def Dev.release (d : Dev) (n : Nat) (keepMem : Bool) : Dev :=
  let x := d.ctx n
  let d := { d.dropGearLoad n with usage := d.usage ++ [(x.cls, x.claimedAt, d.time, x.cells.length)] }
  let d := x.allCores.foldl (fun d c => d.leaveCore n keepMem c) d
  { d with
    t2 := { d.t2 with tlb := d.t2.tlb.filter fun e => e.2.1 != n }
    rack := { d.rack with stationed := d.rack.stationed.filter fun h => h.hdr.dstCtx != n } }.powerCells x.cells (if keepMem then 1 else 2)

/-- Contents in cells that a context no longer runs in are gone from them. -/
def Dev.wipe (d : Dev) (n : Nat) : Dev :=
  (d.ctx n).allCores.foldl (fun d c =>
    if (d.core c).ctx.isNone then d.updCore c fun k => { k with mem := clearCore.mem } else d) d

/-- The contents of an absent context lie in its save area; cells that nothing has claimed are idle (R190, R197, R199). -/
def Dev.contentsLeave (d : Dev) (n : Nat) : Dev :=
  let x := d.ctx n
  let mems := d.contents n
  let d := (d.wipe n).updCtx n fun y => { y with savedMem := mems, contentsInPlace := false, copying := false }
  d.powerCells (x.cells.filter fun c => !d.cellHeld n c) 2

/-- Cells of a rectangle of a region's shape at a position. -/
def RegionRec.cellsAt (r : RegionRec) (p : Nat × Nat) : List (Nat × Nat) := ({ r with cx0 := p.1, cy0 := p.2 } : RegionRec).cells

/-- A replay is over for its region: a stand-in's rectangle is free again (R382). -/
def Dev.dropReplay (d : Dev) (n num : Nat) : Dev :=
  match ((d.ctx n).rt? num).bind (·.replay), (d.ctx n).image.regions.find? fun r => r.region = num with
  | some p, some r =>
    let d := d.updRt n num fun t => { t with replay := none }
    match p.standin with
    | some q => { d with holds := d.holds.filter fun c => !(r.cellsAt q).contains c }.powerCells (r.cellsAt q) 2
    | none => d
  | _, _ => d

/-- The replays of a context are over. -/
def Dev.dropReplays (d : Dev) (n : Nat) : Dev := (d.ctx n).regions.foldl (fun d r => d.dropReplay n r.num) d

/-- A context enters FAILED with a code: its state is retained in the save area, its cells are free (R346, R347). -/
def Dev.toFailed (d : Dev) (n : Nat) (code : Code) : Dev :=
  let d := d.dropReplays n
  let x := d.ctx n
  let d := d.leave n
  let d := if x.state.holds && !x.entering then
      let saved := d.records n
      let mems := d.contents n
      d.updCtx n fun y => { y with saved := saved, savedMem := mems }
    else d
  let d := if x.state.holds then d.release n false else d
  let d := (d.toState n .failed).updCtx n fun y => { y with
    lastCode := code, regions := [], gateReq := none, stopReq := false, entering := false, nextImage := none
    reshard := if y.reshard.busy then y.reshard.ends code else y.reshard
    ckpt := if y.ckpt.busy then y.ckpt.ends code else y.ckpt }
  if x.contentsInPlace then d.contentsLeave n else d

/-- A context whose cells are free of other contents is entered or resumed and issues (R347, R349, R352). -/
def Dev.enterNow (d : Dev) (n : Nat) : Dev :=
  let x := d.ctx n
  let m := x.image
  let place (d : Dev) (r : RegionRec) : Dev :=
    let new := r.cores.filter fun c => !x.entered || (nmGet x.saved (ckey c)).isNone
    let d := r.cores.foldl (fun d c =>
      match (if x.entered then nmGet x.saved (ckey c) else none) with
      | some s => d.scanIn n r.region c s (nmGet x.savedMem (ckey c)) (!x.midStep)
      | none => d.enterCore n m r c) d
    (d.writeContents m new).shadowEntry new
  let d := m.regions.foldl place d
  let step (r : RegionRec) : Nat := ((r.cores.head?).map fun c => (d.arch c).stat.stepNo).getD 0
  let old (r : RegionRec) : Bool := x.entered && x.midStep && (x.rt? r.region).any fun t => !t.shadowed
  let rt (r : RegionRec) : RegionRt :=
    let t := d.newRt r.region (step r) (!old r)
    if old r then { t with gateVals := ((x.rt? r.region).map (·.gateVals)).getD t.gateVals } else t
  let d := d.updCtx n fun y => { y with
    regions := m.regions.map rt
    entered := true, entering := false, saved := [], savedMem := [], contentsInPlace := false, midStep := false }
  let d := d.toState n .running
  let d := m.regions.foldl (fun d r => d.staggered n r.region (r.cores.filter fun c => (d.arch c).stat.run = .running)) d
  m.regions.foldl (fun d r => if d.mustPark n r.region then d.updRt n r.region fun t => { t with parked := true }
    else d.begin_ n r.region) d

/-- Scheduling events that a failed dispatch raises while an owner module answers them (R351, R353); the default policy picks again by itself. -/
def Dev.policyEvents (d : Dev) (k : Nat) : Dev := if d.objD 0x5000 3 0 = 1 then { d with schedWait := d.schedWait + k } else d

/-- A context is entered or resumed, unless a record is refused at its scan-in: then it enters FAILED with that code (R302, R347). -/
def Dev.enter (d : Dev) (n : Nat) : Dev :=
  let x := d.ctx n
  match if x.entered then x.allCores.findSome? fun c => (nmGet x.saved (ckey c)).bind fun s => s.refused n c else none with
  | some code => ((d.toFailed n code).eventCtx n code 8 1 0 0).policyEvents 2
  | none => d.enterNow n

/-! ### Checkpoints taken and restored (R457, R460) -/

/-- Bytes of one checkpoint slot of a context: header and directory, scan records, contents, local segments (R456, R458; log entry 26). -/
def Ctx.ckptBytes (x : Ctx) : Nat :=
  144 + (x.allCores.map fun c => 368640 + 262144 + x.image.nearBytes c).sum
    + ((x.image.segments.filter fun s => s.kind = 0).map fun s => s.length).sum

/-- Whether the device implements the format of a checkpoint (R10, R458). -/
def Ckpt.readable (k : Ckpt) : Bool := k.version / 256 = 1

/-- A checkpoint of another major version is refused (R10). -/
def Dev.unreadable? (d : Dev) (l : List Ckpt) : Dev := if l.all Ckpt.readable then d else d.raised cUnsupportedVersion

/-- Images of the initial gears of a context's cores, from which a context that has not entered here reloads them (R279, R284; log entry 113). -/
def Image.initKept (m : Image) : NMap Slot :=
  m.regions.foldl (fun l r => r.cores.foldl (fun l c => keepImages l c (initSlots m r c)) l) []

/-- The newest complete checkpoint of a context in local tier 2. -/
def newest (l : List Ckpt) (n : Nat) : Option Ckpt :=
  (l.filter fun k => k.ctx = n && k.complete).foldl (fun best k => match best with
    | some b => if b.seq < k.seq then some k else some b
    | none => some k) none

/-- Rewrites the save area, the local segments and the page-table map from a checkpoint, and asks the senders to replay their input logs (R416, R455, R460). -/
def Dev.restore (d : Dev) (n : Nat) (k : Ckpt) : Dev :=
  let d := (d.ctx n).frames.foldl (fun d f => d.giveFrames n f 1) d
  let away := k.pt.filter fun p => decide (2 ≤ p.2.home) || !p.2.valid
  let d := d.updCtx n fun x => { x with
    pt := away, saved := k.cores, savedMem := k.mems, entered := true, kept := (if x.kept = [] then x.image.initKept else x.kept)
    midStep := false, contentsInPlace := false
    delivered := k.delivered, fresh := [], lost := [], dmaHold := [], msgHold := [] }
  let d := k.pages.foldl (fun d p => d.fillVa n (p.1 * 65536) p.2) d
  k.delivered.foldl (fun d p => d.sendMgmt p.1 0 n p.2.1 0 0 (.replayReq (some (p.2.2.1, p.2.2.2)))) d

/-! ### Dispatch (R347, R349, R353) -/

/-- Contexts other than n whose contents lie in its cells (R199). -/
def Dev.contentsOn (d : Dev) (n : Nat) : List Nat :=
  (d.ctxs.filter fun p => p.1 != n && p.2.contentsInPlace && p.2.cells.any fun c => (d.ctx n).cells.contains c).map Prod.fst

/-- Entry goes on once the cells are free of other contents: a checkpoint to adopt comes first (R199, R460). -/
def Dev.tryEnter (d : Dev) (n : Nat) : Dev :=
  let x := d.ctx n
  if !x.entering || x.state != .resident || !(d.contentsOn n).isEmpty then d
  else if x.entered || x.adopt = 0xFFFE then d.enter n
  else if x.adopt = 0xFFFF then
    match newest d.ckpts n with
    | some k => ((d.restore n k).updCtx n fun x => { x with adopt := 0xFFFE }).enter n
    | none => d
  else d.sendMgmt x.adopt 0 n n 0 0 .ckptReq

/-- Claims the cells of a context: contents of other contexts there are copied to their save areas first, their near pages demoted (R199, R320, R348). -/
def Dev.claim (d : Dev) (n : Nat) : Dev :=
  let d := (d.leave n).toState n .resident
  let d := d.updCtx n fun x => { x with claimedAt := d.time, entering := true, quantumOver := false, gateReq := none }
  let d := (d.contentsOn n).foldl (fun d m => (d.demote m fun _ => true).updCtx m fun x => { x with copying := true }) d
  (d.powerCells (d.ctx n).cells 0).tryEnter n

/-- Row 6 of R343 repeated at the dispatch of a context after a row has been retired (R30, R349). -/
def Dev.outsideShape (d : Dev) (n : Nat) : Bool :=
  (d.ctx n).image.regions.any fun r => decide (30 < r.cx0 + r.cw) || decide (d.rows / 2 < r.cy0 + r.ch)

/-! ### Groomer tests that end early, and stand-ins (R382, R403, R412) -/

/-- Logical column of a physical column under an exclusion set; none for an excluded cell. -/
def colOf (excl px : Nat) : Option Nat :=
  if bit excl px then none else some ((List.range px).filter fun p => !bit excl p).length

/-- Logical cell that a physical cell carries (R21); none for an excluded cell or a retired row. -/
def Dev.logicalCell (d : Dev) (px py : Nat) : Option (Nat × Nat) :=
  match colOf (vGet d.rowMap py 0) px, d.logicalRow py with
  | some cx, some cy => some (cx, cy)
  | _, _ => none

/-- Logical cell that the groomer holds for a test in place (R391). -/
def Dev.groomCell? (d : Dev) : Option (Nat × Nat) :=
  match d.groom.test with
  | some t => if t.case_ = 2 then d.logicalCell (t.cell % 32) (t.cell / 32) else none
  | none => none

/-- The groomer's test ends at once, its cell untested and its slices idle again (R28, R403, R412): it gives up its hold and its map change. -/
def Dev.groomEnd (d : Dev) : Dev :=
  match d.groom.test with
  | none => d
  | some t =>
    let held := d.groomCell?
    let d := if t.stage = 1 then d.testPower t.cell false else d
    ({ d with
      groom := { d.groom with
        test := none, targets := if t.demand then (t.cell, 1) :: d.groom.targets else d.groom.targets }
      holds := match held with
        | some c => d.holds.erase c
        | none => d.holds
      moves := d.moves.filter fun m => m.purpose = 0 || m.copying || !(m.rows.any fun p => p.1 = t.cell / 32) }).bump
      0x6100 0xE 1

/-- A groomer test that a fence or a replay switch meets on its row ends at once (R412). -/
def Dev.groomAbort (d : Dev) (py : Nat) : Dev :=
  match d.groom.test with
  | none => d
  | some t => if t.cell / 32 = py then d.groomEnd else d

/-- Positions of a rectangle of a region's shape that lie apart from the region (R382). -/
def Dev.standinPlaces (d : Dev) (r : RegionRec) : List (Nat × Nat) :=
  ((List.range (d.rows / 2 + 1 - r.ch)).flatMap fun y => (List.range (31 - r.cw)).map fun x => (x, y)).filter fun p =>
    !((r.cellsAt p).any fun c => r.cells.contains c)

/-- An idle rectangle for a stand-in; a cell that only the groomer holds counts as idle (R382, R412). -/
def Dev.idleRect (d : Dev) (r : RegionRec) : Option (Nat × Nat) :=
  (d.standinPlaces r).find? fun p => (r.cellsAt p).all fun c => some c = d.groomCell? || !d.cellHeld 0xFFFF c

/-- A replay on a stand-in starts once a rectangle is idle and holds no contents (R382). -/
def Dev.tryStandin (d : Dev) (n num : Nat) : Dev :=
  match ((d.ctx n).rt? num).bind (·.replay), (d.ctx n).image.regions.find? fun r => r.region = num with
  | some p, some r =>
    if !p.waiting then d
    else
      let found : Option (Nat × Nat) := match p.standin with
        | some q => some q
        | none => d.idleRect r
      match found with
      | none => d
      | some q =>
        let cells := r.cellsAt q
        let d := if d.groomCell?.any fun c => cells.contains c then d.groomEnd else d
        let d := if p.standin.isSome then d else { d with holds := d.holds ++ cells }
        let others := (d.ctxs.filter fun x => x.2.contentsInPlace && x.2.cells.any fun c => cells.contains c).map Prod.fst
        let d := others.foldl (fun d m => (d.demote m fun _ => true).updCtx m fun x => { x with copying := true }) d
        let p' : Replay := { p with standin := some q, waiting := !others.isEmpty }
        let d := d.updRt n num fun t => { t with replay := some p' }
        if others.isEmpty then (((d.powerCells cells 0).bump 0x6000 8 1).bump 0x6000 9 1).begin_ n num else d
  | _, _ => d

/-- Whether a context stays in its cells over a retirement: it covers the row and stands at its last commits (R30; log entry 96). -/
def Dev.staysOver (d : Dev) (n : Nat) : Bool :=
  let x := d.ctx n
  d.coversRetiring n && x.gateReq != some false && x.state != .draining && !x.entering && x.regions.all (·.parked)

/-- The retirement of a row, with the contexts that stay in their cells, which go on from their last commits (R30). -/
def Dev.retireOver (d : Dev) (py : Nat) : Dev :=
  let stay := (d.ctxs.filter fun p => p.2.state.holds).map Prod.fst
  let kept := (d.ctxs.filter fun p => p.2.contentsInPlace).map Prod.fst
  let power (d : Dev) (l : List Nat) (mode : Nat) : Dev := l.foldl (fun d n => d.powerCells (d.ctx n).cells mode) d
  let d := ((power d (stay ++ kept) 2).retireNow py)
  let d := power (power d kept 1) stay 0
  stay.foldl (fun d n => (d.ctx n).regions.foldl (fun d r => if d.mustPark n r.num then d else d.begin_ n r.num) d) d

/-- Contexts that wait for cells are placed when the contents have left them, stand-ins that wait for cells start, and a retirement that waits for the last context is made, once R245 lets the epoch change (R30, R199, R382). -/
def Dev.cellsFreed (d : Dev) : Dev :=
  let d := d.ctxs.foldl (fun d p => d.tryEnter p.1) d
  let d := d.ctxs.foldl (fun d p => p.2.regions.foldl (fun d r => d.tryStandin p.1 r.num) d) d
  match d.retiring with
  | some py => if d.epochDrain ≠ 0 || d.ctxs.any fun p => p.2.state.holds && !d.staysOver p.1 then d else d.retireOver py
  | none => d

/-- Whether R347 lets a dispatch act on a context: READY and PREEMPTED claim cells, a parked one is released. -/
def Dev.dispatchCheck (d : Dev) (n : Nat) : Option Code :=
  let x := d.ctx n
  let waits := x.state = .ready || x.state = .preempted
  let parked := x.state = .resident && !x.entering
  firstFail [
    (d.lcDenied, cLifecycleDenied),
    (!d.inService || d.noDispatch || !(waits || parked), cStateInvalid),
    (waits && !d.claimable n, cBusy)]

/-- Dispatches a context that passes its checks: a region that no longer fits fails it (R30, R347, R349). -/
def Dev.dispatch (d : Dev) (n : Nat) : Dev :=
  let x := d.ctx n
  if x.state = .resident then
    let d := (d.updCtx n fun x => { x with gateReq := none }).toState n .running
    x.image.regions.foldl (fun d r => if d.mustPark n r.region then d else d.begin_ n r.region) d
  else if d.outsideShape n then ((d.toFailed n cNoCells).eventCtx n cNoCells 8 1 0 0).policyEvents 1
  else if !x.entered && x.adopt = 0xFFFF && (newest d.ckpts n).isNone then
    ((d.toFailed n cBlockCheckFail).updCtx n fun x => { x with adopt := 0xFFFE }).policyEvents 1
  else d.claim n

/-! ### Pre-emption and parking (R350, R354) -/

/-- Takes a checkpoint's scan records, contents, map and positions once every region is parked at the step; the pages follow (R457). -/
def Dev.capture (d : Dev) (n : Nat) : Dev :=
  let x := d.ctx n
  let slot := match newest d.ckpts n with
    | some k => 1 - k.slot
    | none => 0
  let local_ := (x.pt.filter fun p => p.2.valid && decide (p.2.home ≤ 1) &&
    (x.segOf (p.1 * 65536) 65536).any fun s => s.kind = 0).map Prod.fst
  let k : Ckpt := { version := 0x0100, ctx := n, slot := slot, seq := x.ckptSeq, step := x.ckpt.a, device := d.objD 0x2A01 1 0xFFFF, bytes := x.ckptBytes,
                    cores := d.records n, mems := d.contents n, pages := [], pt := x.pt, delivered := x.delivered,
                    todo := local_, isSealed := false, complete := false }
  let d := { d with ckpts := (d.ckpts.filter fun (j : Ckpt) => !(j.ctx = n && j.slot = slot)) ++ [k] }
  let d := d.updCtx n fun x => { x with ckpt := { x.ckpt with c := 1, b := slot }, ckptSeq := (x.ckptSeq + 1) % 2 ^ 32 }
  x.image.regions.foldl (fun d r => if d.mustPark n r.region then d else d.begin_ n r.region) d

/-- Every region of a context holds at its last commit: a park leaves it RESIDENT, a checkpoint is captured, a pre-emption waits for the scan (R350, R457). -/
def Dev.allParked (d : Dev) (n : Nat) : Dev :=
  let x := d.ctx n
  if !(x.regions.all fun r => r.parked) || !(x.state = .running || x.state = .blocked) then d
  else
    let d := if x.ckpt.state = 2 && x.ckpt.c = 0 then d.capture n else d
    let d := if x.gateReq = some true then d.toState n .resident else d
    if d.retiring.isSome then d.cellsFreed else d

/-- A region whose executed steps have committed holds, or begins its next step when nothing keeps it (R350, R372, R405). -/
def Dev.parkOrBegin (d : Dev) (n num : Nat) : Dev :=
  let x := d.ctx n
  let ended := d.allEnded (x.coresIn num)
  let free := match x.rt? num with
    | some r => r.settled = [] && r.replay.isNone && (x.coresIn num).all fun c =>
        let k := d.core c
        k.arch.stat.ended || (k.arch.stat.run = .atGate && k.reports = [])
    | none => false
  if d.mustPark n num then
    if free || ended then (d.updRt n num fun r => { r with parked := true, parkedAt := if r.parked then r.parkedAt else d.time }).allParked n else d
  else d.begin_ n num

/-- Regions of a context that need not reach another gate hold at once. -/
def Dev.parkIdle (d : Dev) (n : Nat) : Dev :=
  (d.ctx n).image.regions.foldl (fun d r =>
    if d.mustPark n r.region && (d.ctx n).state.holds && !(d.ctx n).entering then d.parkOrBegin n r.region else d) d

/-- Asks for a park or a pre-emption at a gate (R350). -/
def Dev.askGate (d : Dev) (n : Nat) (park : Bool) : Dev :=
  (d.updCtx n fun x => { x with gateReq := some park, reqSince := d.time }).parkIdle n

/-- Scheduling decisions that stop a context (R347, R350). -/
def Dev.preemptGate (d : Dev) (n : Nat) (park : Bool) : Dev :=
  let st := (d.ctx n).state
  if (if park then st = .running else st = .running ∨ st = .blocked ∨ st = .resident) then d.askGate n park
  else d.reply cStateInvalid

/-! ### The default policy (R351) -/

/-- Running contexts that the default policy pre-empts at a gate: an expired quantum, or cells that a head of a higher class with a lower ratio needs (R351). -/
def Dev.toPreempt (d : Dev) : List Nat :=
  let heads := (List.range 8).filterMap fun c => if d.weight c = 0 then none else (vGet d.ready c []).head?.map fun n => (c, n)
  (d.ctxs.filter fun p => p.2.state = .running && p.2.gateReq.isNone &&
    (p.2.quantumOver || heads.any fun h => decide (p.2.cls < h.1) && d.lower h.1 p.2.cls &&
      (d.ctx h.2).cells.any fun c => p.2.cells.contains c)).map Prod.fst

/-- Dispatches the head that the default policy picks; one that fails is an event of its own, so that the policy picks again (R351). -/
def Dev.dispatchHead (d : Dev) : Nat → Dev
  | 0 => d
  | fuel + 1 =>
    if !d.inService || d.noDispatch || d.lcDenied then d
    else match (d.pickClass.bind fun c => (vGet d.ready c []).head?) with
      | some n => if ((d.dispatch n).ctx n).state = .failed then (d.dispatch n).dispatchHead fuel else d.dispatch n
      | none => d

/-- The default policy answers one scheduling event (R351). -/
def Dev.defaultPolicy (d : Dev) : Dev :=
  let d := d.dispatchHead (d.ctxs.length + 1)
  d.toPreempt.foldl (fun d n => d.askGate n false) d

/-- A scheduling event (R351, R353): the owner module receives it in place of the default policy. -/
def Dev.schedule (d : Dev) : Dev :=
  if d.objD 0x5000 3 0 = 1 then { d with schedWait := d.schedWait + 1 } else d.defaultPolicy

/-! ### Roll-back (R328, R332, R377) -/

/-- A crossing command of the committed step starts again; DMA commands of rolled-back steps are gone (R328). -/
def QEntry.restart (e : QEntry) : QEntry :=
  match e.cmd with
  | .dma put q bs src dst _ => { e with cmd := .dma put q bs src dst (dmaDesc bs).startOff, started := false }
  | _ => e

/-- The step before a step number. -/
def stepBefore (n : Nat) : Nat := (n + 2 ^ 32 - 1) % 2 ^ 32

/-- The DMA commands that run again after a roll-back to a shadow, before the next step is replayed: the crossing commands of the committed step, those that had completed too (R328). -/
def Arch.dmaAgain (a : Arch) : List QEntry :=
  let done := a.dma.crossed.filter fun e => e.step = stepBefore a.stat.stepNo
  (done.map fun e => { e.restart with sb := 0 }) ++ (vGet a.units 3 clearUnit).queue.map QEntry.restart

/-- A core put back to its gate shadow (R328, R377). -/
def Core.toShadow (k : Core) : Core :=
  match k.shadows with
  | [] => k
  | a :: _ =>
    let again := a.dmaAgain
    { k with
      arch := { a with
        units := vSet a.units 3 { vGet a.units 3 clearUnit with queue := again }
        dma := { a.dma with crossed := [], tries := 0, rerun := !again.isEmpty } }
      shadows := [a], reports := [], usedSlots := []
      slotEpoch := if k.arch.stat.gear = a.stat.gear then k.slotEpoch else (k.slotEpoch + 1) % 2 ^ 32 }

/-- Whether a packet runs between two cores of a list on this device. -/
def Packet.within (p : Packet) (cores : List CoreId) : Bool :=
  p.head.dkind = 0 && p.head.srcDev = 0xFFFF && cores.contains ⟨p.head.srcX, p.head.srcY⟩
    && (p.head.mcast || cores.contains ⟨p.head.dstX, p.head.dstY⟩)

/-- Released and steered messages whose placement in a region was not committed are delivered again in their order (R375, R483). -/
def Dev.redeliver (d : Dev) (n num : Nat) : Dev :=
  let here (p : Option (Nat × Nat)) : Bool := p.any fun p => p.1 = num
  let again := (d.ctx n).msgHold.filter fun h => here h.placedIn
  let steered := d.steerBuf.filter fun h => h.ctx = n && here h.placedIn
  let d := d.updCtx n fun x => { x with msgHold := x.msgHold.map fun h => if here h.placedIn then { h with placedIn := none } else h }
  let d := { d with steerBuf := d.steerBuf.map fun h => if h.ctx = n && here h.placedIn then { h with placedIn := none } else h }
  let d := again.foldl (fun d h => d.sendHeld h.dstX h.dstY h.msg) d
  steered.foldl (fun d h => d.sendHeld h.x h.y h.msg) d

/-- The position just before the first of the payloads that came from one sending context. -/
def beforeFirst (dev ctx : Nat) (l : List RemoteIn) : Option (Nat × Nat) :=
  let ps := (l.filter fun f => f.dev = dev && f.ctx = ctx).map fun f => (f.step, f.idx)
  match ps.foldl (fun (best : Option (Nat × Nat)) p => match best with
    | none => some p
    | some b => if p.1 < b.1 ∨ (p.1 = b.1 ∧ p.2 < b.2) then some p else some b) none with
  | none => none
  | some (0, 0) => none
  | some (s + 1, 0) => some (s, 2 ^ 32 - 1)
  | some (s, i + 1) => some (s, i)

/-- Payloads of other devices placed in a region and not committed are requested again from their senders' input logs (R375, R455). -/
def Dev.rerequest (d : Dev) (n num : Nat) : Dev :=
  let mine := (d.ctx n).fresh.filter fun f => f.region = num
  let d := d.updCtx n fun x => { x with
    fresh := x.fresh.filter fun f => f.region != num
    lost := x.lost ++ mine.map fun f => (f.dev, f.ctx, f.step, f.idx) }
  (mine.map fun f => (f.dev, f.ctx)).dedup.foldl (fun d p => d.sendMgmt p.1 0 n p.2 0 0 (.replayReq (beforeFirst p.1 p.2 mine))) d

/-- Whether a region stands at its last commit: no step has settled or begun since. -/
def Dev.atCommit (d : Dev) (n num : Nat) : Bool :=
  (((d.ctx n).rt? num).any fun r => r.settled.isEmpty) && ((d.ctx n).coresIn num).all fun c =>
    let k := d.core c
    k.reports.isEmpty && (k.arch.stat.run = .atGate || k.arch.stat.run = .idle)

/-- A region returns to its last commit, unless it stands there (R377): what its cores have in flight to one another is discarded, its credit returns and completion flits too, which the shadows count as arrived (log entry 116). -/
def Dev.rollback (d : Dev) (n num : Nat) : Dev :=
  if d.atCommit n num then d
  else
  let cores := (d.ctx n).coresIn num
  let d := cores.foldl (fun d c => if (d.core c).ctx = some n then d.updCore c Core.toShadow else d) d
  let step : Nat := ((cores.head?).map fun c => (d.arch c).stat.stepNo).getD 0
  let d := { d with mesh := { d.mesh with transit := d.mesh.transit.filter fun p => !(p.within cores && decide (p.head.vc ≤ 1)) } }.routersGo
  let d := d.updCtx n fun x => { x with
    dmaHold := x.dmaHold.filter fun h => !(h.region = num && !h.released)
    msgHold := x.msgHold.filter fun h => !(h.region = num && !h.released) }
  let d := d.updRt n num fun r => { r with
    gateStep := step, settled := [], timer := false, degraded := false, gateVals := r.oldVals.headD r.gateVals, oldVals := [] }
  ((d.redeliver n num).rerequest n num).bump 0x6000 7 1

/-- Every region of a context returns to its last commit. -/
def Dev.rollbackAll (d : Dev) (n : Nat) : Dev :=
  (d.ctx n).regions.foldl (fun d r => if r.shadowed then d.rollback n r.num else d) d

/-- A context fails with a code after its regions have rolled back; a scheduling event follows, and another when its cells are released (R347, R351, R380). -/
def Dev.fail (d : Dev) (n : Nat) (code : Code) : Dev :=
  let st := (d.ctx n).state
  if st = .free ∨ st = .loaded then d
  else
    let d := if st.holds && !(d.ctx n).entering then d.rollbackAll n else d
    let d := (d.toFailed n code).cellsFreed.schedule
    if st.holds then d.schedule else d

/-- A context drains: steps not committed are rolled back, its rings close, its cores stop (R265, R347). -/
def Dev.drain (d : Dev) (n : Nat) : Dev :=
  let d := (d.dropReplays n).rollbackAll n
  let d := (d.ctx n).allCores.foldl (fun d c =>
    (d.closeRings c).updStat c fun s => { s with run := .idle, ended := true }) d
  ((d.toState n .draining).updCtx n fun x => { x with stopReq := false, gateReq := none }).schedule

/-! ### Commands on contexts (R347, R350, R358) -/

/-- Devices that an image names in channels, reduction leaves and far segments (R442). -/
def Image.devices (m : Image) : List Nat :=
  (m.placed.flatMap fun p => p.slot.chanPlan.map fun k => k.dstDev) ++ (m.trees.flatMap fun t => t.leaves.map fun l => l.dev)
    ++ (m.segments.filter fun s => s.kind = 1).map fun s => s.dev

/-- Starts a context (R347, R442). -/
def Dev.start (d : Dev) (n : Nat) : Dev :=
  let x := d.ctx n
  match firstFail [
    (x.state != .loaded, cStateInvalid),
    (x.image.devices.any fun v => v != 0xFFFF && !(x.peerList.any fun p => p.1 = v), cBadArgument)] with
  | some c => d.reply c
  | none => ((d.toState n .ready).join n).schedule

/-- The meaning of CTX_START. -/
def execCtxStart (ctx : Nat) (s : State) : Host.Outcome State Fault Refusal := s.onDev fun d => d.start ctx

/-- Whether a pre-emption leaves a context no commit to come: its issue has stopped in mid-step, or all its regions hold for the scan. -/
def Ctx.noCommit (x : Ctx) : Bool := x.midStep || (x.gateReq.isSome && x.regions.all (·.parked))

/-- Stops a context at its next commit (R347), or at once where a pre-emption leaves no commit to come: the stop wins over the pre-emption (R354). -/
def Dev.stopCtx (d : Dev) (n : Nat) : Dev :=
  let x := d.ctx n
  if x.state = .running ∨ x.state = .blocked then
    if x.noCommit then (d.updCtx n fun x => { x with midStep := false }).drain n else d.updCtx n fun x => { x with stopReq := true }
  else d.reply cStateInvalid

/-- The meaning of CTX_STOP. -/
def execCtxStop (ctx : Nat) (s : State) : Host.Outcome State Fault Refusal := s.onDev fun d => d.stopCtx ctx

/-- The meaning of CTX_PREEMPT_GATE. -/
def execCtxPreemptGate (ctx : Nat) (s : State) : Host.Outcome State Fault Refusal := s.onDev fun d => d.preemptGate ctx false

/-- The meaning of CTX_PARK. -/
def execCtxPark (ctx : Nat) (s : State) : Host.Outcome State Fault Refusal := s.onDev fun d => d.preemptGate ctx true

/-- Issue stops at once in every core; a region in a replay rolls back to its last commit and is scanned there; a context that is to stop drains (R82, R350, R354). -/
def Dev.midStop (d : Dev) (n : Nat) : Dev :=
  if (d.ctx n).stopReq then d.drain n
  else
  let d := (d.ctx n).regions.foldl (fun d r =>
    if r.replay.isSome && r.shadowed then
      ((d.dropReplay n r.num).rollback n r.num).updRt n r.num fun t => { t with parked := true }
    else if r.parked then d
    else ((d.ctx n).coresIn r.num).foldl (fun d c =>
      if (d.arch c).live then d.updStat c fun s => { s with run := .scanning } else d) d) d
  d.updCtx n fun x => { x with midStep := true, gateReq := some false }

/-- A pre-emption in mid-step (R347, R350). -/
def Dev.preemptMid (d : Dev) (n : Nat) : Dev :=
  let x := d.ctx n
  if x.entering || !(x.state = .running || x.state = .blocked || x.state = .resident) then d.reply cStateInvalid
  else d.midStop n

/-- The meaning of CTX_PREEMPT_MID. -/
def execCtxPreemptMid (ctx : Nat) (s : State) : Host.Outcome State Fault Refusal := s.onDev fun d => d.preemptMid ctx

/-- The meaning of PREEMPT_WAIT_EXPIRY: a pre-emption at a gate that has not reached its commit becomes one in mid-step (R350, R354). -/
def execPreemptWaitExpiry (ctx : Nat) (s : State) : Host.Outcome State Fault Refusal :=
  s.onDev fun d =>
    let x := d.ctx ctx
    if x.gateReq = some false && !x.midStep && !x.entering && (x.state = .running || x.state = .blocked) && !(x.regions.all (·.parked))
    then d.midStop ctx else d

/-- Frees a context: its reservation returns zero-filled, and its long-operation objects go on reporting their most recent requests (R344, R347, R355; log entry 44). -/
def Dev.unload (d : Dev) (n : Nat) : Dev :=
  let x := d.ctx n
  if x.state = .loaded ∨ x.state = .failed then
    let d := (x.frames ++ x.fixed).foldl Dev.freeFrame d
    let kept (o : LongOp) : LongOp := if o.busy then o.cancelled else o
    { (d.setCtx n { clearCtx with
          windows := x.windows, lastOp := x.lastOp
          load := kept x.load, gearLoad := kept x.gearLoad, migrate := kept x.migrate, reshard := kept x.reshard, ckpt := kept x.ckpt }) with
      inlog := d.inlog.filter fun e => e.ctx != n
      steerBuf := d.steerBuf.filter fun (e : SteerMsg) => e.ctx != n
      t2 := { d.t2 with tlb := d.t2.tlb.filter fun e => e.2.1 != n, fills := d.t2.fills.filter fun f => f.1 != n } }
  else d.reply cStateInvalid

/-- The meaning of CTX_UNLOAD. -/
def execCtxUnload (ctx : Nat) (s : State) : Host.Outcome State Fault Refusal := s.onDev fun d => d.unload ctx

/-- Kills a context (R347): a kill names no code, and last_code is kept. -/
def Dev.kill (d : Dev) (n : Nat) : Dev :=
  let x := d.ctx n
  if x.state = .free ∨ x.state = .loaded then d.reply cStateInvalid else d.fail n x.lastCode

/-- The meaning of CTX_KILL. -/
def execCtxKill (ctx : Nat) (s : State) : Host.Outcome State Fault Refusal := s.onDev fun d => d.kill ctx

/-! ### Scan-out (R267, R298 to R301, R379) -/

/-- Whether a core's state can be captured: no tensor, vector or message command is in progress (R82, R301). -/
def Arch.still (a : Arch) : Bool :=
  [0, 1, 2].all fun u => (vGet a.units u clearUnit).queue.all fun e => !e.started || e.creditWait

/-- Whether a region can be scanned out: parked at a commit, where a row-map change that is due has been made first (R354), or stopped in mid-step with its settled steps committed, its commands done and its messages placed. -/
def Dev.scanReady (d : Dev) (n : Nat) (r : RegionRt) : Bool :=
  let x := d.ctx n
  let cores := x.coresIn r.num
  x.state.holds && !x.entering && !r.scanned && (d.mesh.transit.all fun p => !(p.within cores && p.head.vc = 0))
    && (if x.midStep then r.parked || (r.settled = [] && cores.all fun c => (d.arch c).still)
        else x.gateReq = some false && x.regions.all fun t => t.parked && !d.moving n t.num)

/-- Applies a re-shard to a pre-empted context: records of cores outside the new regions are discarded (R357). -/
def Dev.reshardApply (d : Dev) (n : Nat) : Dev :=
  let x := d.ctx n
  match x.nextImage with
  | none => d
  | some m =>
    let gone := x.allCores.filter fun c => !m.regions.any fun r => r.rect.has c
    let left := x.cells.filter fun c => !(m.regions.any fun r => r.cells.contains c) && !d.cellHeld n c
    let d := d.powerCells left 2
    let d := gone.foldl (fun d c => if (d.core c).ctx.isNone then d.updCore c fun k => { k with mem := clearCore.mem } else d) d
    (d.updCtx n fun y => { y with
      image := m.reshardOver y.image, nextImage := none
      saved := y.saved.filter fun p => m.regions.any fun r => r.rect.has (coreOfKey p.1)
      kept := y.kept.filter fun p => m.regions.any fun r => r.rect.has (coreOfKey (p.1 / 4))
      savedMem := y.savedMem.filter fun p => m.regions.any fun r => r.rect.has (coreOfKey p.1)
      reshard := { y.reshard.ends cOk with c := y.saved.length } }).pinPages n m.segments

/-- Every region has been scanned out: the context is PREEMPTED, its cells are free, its contents stay in place (R199, R350, R351). -/
def Dev.preempted (d : Dev) (n : Nat) : Dev :=
  let x := d.ctx n
  let d := d.bump 0x5000 (if x.midStep then 8 else 7) 1
  let d := d.release n true
  let d := (d.toState n .preempted).updCtx n fun y => { y with contentsInPlace := true, gateReq := none, stopReq := false }
  (((d.reshardApply n).join n).cellsFreed.schedule).schedule

/-- A core of a region that is scanned out: its record goes to the save area. -/
def Dev.scanCore (d : Dev) (n : Nat) (c : CoreId) : Dev :=
  let s := d.recordOf n c
  (d.updCtx n fun x => { x with saved := nmSet x.saved (ckey c) s }).bump 0x4400 0xB 1

/-- The contents of a pre-empted context have been copied to its save area, and a context that waited for its cells is placed (R199). -/
def Dev.contentsCopied (d : Dev) (n : Nat) : Dev :=
  let x := d.ctx n
  if !x.copying then d
  else
    (d.contentsLeave n).cellsFreed

/-- The meaning of CONTENTS_COPY_COMPLETE. -/
def execContentsCopyComplete (ctx : Nat) (s : State) : Host.Outcome State Fault Refusal :=
  s.onDev fun d => d.contentsCopied ctx

/-! ### Admission and re-sharding (R343, R357) -/

/-- The image of a load has been read: refused with its code, or admitted (R343). -/
def Dev.admission (d : Dev) (n : Nat) (bs : List Byte) (leases : List (Nat × Nat)) : Dev :=
  let x := d.ctx n
  if x.load.busy then
    match d.admitImage bs x.windows leases 0 n with
    | .error c => ((d.raised c).updCtx n fun x => { x with load := x.load.ends c, lastCode := c }).bump 0x5000 6 1
    | .ok m => d.admitted n m (m.fixedFrames (keptBytes bs))
  else if x.reshard.state = 1 then
    let has := x.reservedFrames + x.frames.length + x.fixed.length
    match d.admitImage bs x.windows leases has n with
    | .error c => (d.raised c).updCtx n fun x => { x with reshard := x.reshard.ends c, lastCode := c }
    | .ok m =>
      let more := m.frames (keptBytes bs) - has
      let fixed := min more (m.fixedFrames (keptBytes bs) - x.fixed.length)
      let d := Dev.takeFixed n fixed (d.updCtx n fun x => { x with
        nextImage := some m, reshard := { x.reshard with state := 2 }
        reservedFrames := x.reservedFrames + (more - fixed), reservedBytes := x.reservedBytes + more * 65536 })
      if x.state = .preempted then d.reshardApply n else d.askGate n false
  else d

/-- The meaning of ADMISSION: the bytes read from the host window, and the far leases that their devices confirm (R444). -/
def execAdmission (ctx : Nat) (image : List Byte) (leases : List (Nat × Nat)) (s : State) : Host.Outcome State Fault Refusal :=
  s.onDev fun d => d.admission ctx image leases

/-- Requests a re-shard of a context (R356, R357, R606). -/
def Dev.reshardGo (d : Dev) (n window offset bytes : Nat) : Dev :=
  let x := d.ctx n
  let runs := x.state = .running || x.state = .blocked || x.state = .resident || x.state = .preempted
  match firstFail [(!d.inService || !runs, cStateInvalid), (x.opBusy, cBusy)] with
  | some c => d.reply c
  | none =>
    match sourceCheck x window offset bytes with
    | some c => d.reply c
    | none => (d.updCtx n fun x => { x with reshard := ⟨1, 0, cPending, window, offset, bytes, 0⟩ }).emit
        (.hostRead window offset bytes)

/-- The meaning of CTX_RESHARD_GO: the source stands in 0x5002:02 to 0x5002:04. -/
def execCtxReshardGo (ctx : Nat) (s : State) : Host.Outcome State Fault Refusal :=
  s.onDev fun d => d.reshardGo ctx (d.objD 0x5002 2 0) (d.objD 0x5002 3 0) (d.objD 0x5002 4 0)

/-- Cancels a re-shard that has not been applied (R356). -/
def Dev.reshardCancel (d : Dev) (n : Nat) : Dev :=
  if (d.ctx n).reshard.busy then
    d.updCtx n fun x => { x with reshard := x.reshard.cancelled, nextImage := none, gateReq := if x.midStep then x.gateReq else none }
  else d.reply cStateInvalid

/-- The meaning of CTX_RESHARD_CANCEL. -/
def execCtxReshardCancel (ctx : Nat) (s : State) : Host.Outcome State Fault Refusal := s.onDev fun d => d.reshardCancel ctx

/-! ### Gear loads (R279, R282, R356) -/

/-- Refusals of a gear load (R282, R356, R562). `rect` holds x0, y0, x1, y1 in successive bytes. -/
def Dev.gearLoadCheck (d : Dev) (n image rect : Nat) : Option Code :=
  let x := d.ctx n
  let cores := rectCores rect
  let slot (c : CoreId) : Nat := bits (x.image.gearHdr c image) 17 16
  let meets (s t : Slot) : Bool :=
    rangesMeet s.codeBase s.codeLen t.codeBase t.codeLen || rangesMeet s.swBase s.swLen t.swBase t.swLen
  let known (c : CoreId) : Bool := x.image.hasImage c image && (x.image.regionAt c).isSome
  firstFail [
    (!d.inService, cStateInvalid),
    (x.gearLoad.busy, cBusy),
    (!(x.state = .resident || x.state = .running), cStateInvalid),
    (cores.any fun c => known c && ((d.arch c).stat.gear = slot c || (d.core c).usedSlots.any fun u => u.1 = slot c), cBusy),
    (cores.any fun c => known c && (List.range 4).any fun i =>
      i != slot c && ((d.core c).slot i).state != 0 && meets (x.image.slot c image) ((d.core c).slot i), cBadArgument),
    (decide (16 ≤ image) || cores.isEmpty || cores.any fun c => !known c, cBadArgument)]

/-- Requests a gear load: its packets set out (R279, R282). -/
def Dev.gearLoadGo (d : Dev) (n image rect : Nat) : Dev :=
  match d.gearLoadCheck n image rect with
  | some c => d.reply c
  | none =>
    let d := d.updCtx n fun x => { x with gearLoad := ⟨2, 0, cPending, rect, image, 0, 0⟩ }
    { d with lastReq := nmSet d.lastReq (okey 0x4403 7) n }.sendLoad n image (rectOf rect) (rectCores rect)

/-- The rectangle of gear.load, packed. -/
def Dev.gearRect (d : Dev) : Nat :=
  pack [(0, d.objD 0x4403 3 0), (8, d.objD 0x4403 4 0), (16, d.objD 0x4403 5 0), (24, d.objD 0x4403 6 0)]

/-- The meaning of GEAR_LOAD_GO: the operands stand in 0x4403:01 to 0x4403:06. -/
def execGearLoadGo (s : State) : Host.Outcome State Fault Refusal :=
  s.onDev fun d => d.gearLoadGo (d.objD 0x4403 1 0) (d.objD 0x4403 2 0) d.gearRect

/-- Cancels a gear load (R356). -/
def Dev.gearLoadCancel (d : Dev) (n : Nat) : Dev :=
  if (d.ctx n).gearLoad.busy then d.dropGearLoad n else d.reply cStateInvalid

/-- The meaning of GEAR_LOAD_CANCEL. -/
def execGearLoadCancel (s : State) : Host.Outcome State Fault Refusal :=
  s.onDev fun d => d.gearLoadCancel (d.objD 0x4403 1 0)

/-! ### Timers and the policy module (R347, R351, R353) -/

/-- The meaning of QUANTUM_EXPIRY. -/
def execQuantumExpiry (ctx : Nat) (s : State) : Host.Outcome State Fault Refusal :=
  s.onDev fun d =>
    let x := d.ctx ctx
    if x.state.holds && x.quantumUs != 0 then (d.updCtx ctx fun x => { x with quantumOver := true }).schedule else d

/-- The meaning of BLOCK_TIMEOUT: a hold-space wait (0), a SUSPECT_PEER stall (1) or a remote pause (2) has lasted ctx.cur.block_us (R347). -/
def execBlockTimeout (ctx cause : Nat) (s : State) : Host.Outcome State Fault Refusal :=
  s.onDev fun d =>
    if (d.ctx ctx).state = .running then
      ((d.toState ctx .blocked).updCtx ctx fun x => { x with blockCause := cause }).schedule
    else d

/-- The condition that blocked a context clears (R347). -/
def Dev.unblock (d : Dev) (n : Nat) : Dev := if (d.ctx n).state = .blocked then d.toState n .running else d

/-- The meaning of POLICY_DECISION: the owner module answers an event with none (0), dispatch (1), park (2), pre-empt at a gate (3) or in mid-step (4), set class (5) or quantum (6) (R350, R353). -/
def execPolicyDecision (op ctx value : Nat) (s : State) : Host.Outcome State Fault Refusal :=
  s.onDev fun d =>
    if d.schedWait = 0 then d
    else
      let d := { d with schedWait := d.schedWait - 1 }
      match op with
      | 1 => match d.dispatchCheck ctx with
        | some c => d.reply c
        | none => d.dispatch ctx
      | 2 => d.preemptGate ctx true
      | 3 => d.preemptGate ctx false
      | 4 => d.preemptMid ctx
      | 5 =>
        if 8 ≤ value then d.reply cBadArgument
        else
          let waits := (vGet d.ready (d.ctx ctx).cls []).contains ctx
          let d := (d.leave ctx).updCtx ctx fun x => { x with cls := value }
          if waits then d.join ctx else d
      | 6 => d.updCtx ctx fun x => { x with quantumUs := value }
      | _ => d

/-- The meaning of POLICY_TIMEOUT (R353). -/
def execPolicyTimeout (s : State) : Host.Outcome State Fault Refusal :=
  s.onDev fun d =>
    if d.schedWait = 0 then d else ({ d with schedWait := d.schedWait - 1 }.bump 0x5000 9 1).defaultPolicy

/-! ### Hold space (R332) -/

/-- Whether a payload is a granule. -/
def RelBody.isGranule : RelBody → Bool
  | .granule .. => true
  | _ => false

/-- Whether a released granule's acknowledgement is still to come, from a device that is not expelled (R332, R347). -/
def Dev.owed (d : Dev) (n : Nat) (h : HeldGranule) : Bool :=
  h.released && match h.dev with
    | none => !h.acked
    | some dev => !d.expelled dev && d.inlog.any fun e =>
        e.ctx = n && e.dev = dev && e.region = h.region && e.step = h.step && !e.acked && e.body.isGranule

/-- The hold space of a step is freed when all of its granules have been acknowledged (R332). -/
def Dev.holdFree (d : Dev) (n : Nat) : Dev :=
  let l := (d.ctx n).dmaHold
  let stays (h : HeldGranule) : Bool := !h.released || (l.any fun g => g.region = h.region && g.step = h.step && d.owed n g)
  d.updCtx n fun x => { x with dmaHold := l.filter stays }

/-! ### The end of draining (R347, R450) -/

/-- Whether all held traffic of a context is acknowledged, apart from traffic for expelled devices (R347). -/
def Dev.drained (d : Dev) (n : Nat) : Bool :=
  let x := d.ctx n
  (x.msgHold.all fun h => !h.released || h.placedIn.isSome) && (x.dmaHold.all fun h => !h.released)
    && d.inlog.all fun e => e.ctx != n || e.acked || d.expelled e.dev

/-- A draining context returns to LOADED and its cells are free (R265, R347, R351). -/
def Dev.drainDone (d : Dev) (n : Nat) : Dev :=
  let d := d.holdFree n
  if (d.ctx n).state != .draining || !d.drained n then d
  else
    let d := (d.ctx n).allCores.foldl (fun d c => d.closeRings c) d
    let d := { (d.release n false) with inlog := d.inlog.map fun (e : Released) => if e.ctx = n then { e with acked := true } else e }
    let d := (d.toState n .loaded).updCtx n fun x => { x with
      entered := false, regions := [], msgHold := [], dmaHold := [], fresh := [], lost := [] }
    d.cellsFreed.schedule

/-- The meaning of DRAIN_COMPLETE. -/
def execDrainComplete (ctx : Nat) (s : State) : Host.Outcome State Fault Refusal := s.onDev fun d => d.drainDone ctx

/-! ### The DMA engine's commands (R324 to R328) -/

/-- The crossing commands that a roll-back runs again on a core have completed: the region's next step begins once those of all its cores have (R328). -/
def Dev.rerunDone (d : Dev) (c : CoreId) : Dev :=
  let a := d.arch c
  if !a.dma.rerun || (a.live && !(vGet a.units 3 clearUnit).queue.isEmpty) then d
  else
    let d := d.updArch c fun a => { a with dma := { a.dma with rerun := false } }
    match (d.core c).ctx with
    | none => d
    | some n =>
      let waits := ((d.ctx n).rt? (d.core c).region).all fun r => r.parked || r.replay.any (·.waiting)
      if waits then d else d.parkOrBegin n (d.core c).region

/-- The meaning of DMA_COMMAND_START. -/
def execDmaCommandStart (c : CoreId) (s : State) : Host.Outcome State Fault Refusal := s.onDev fun d => (d.dmaStart c).rerunDone c

/-- The meaning of DMA_GRANULE_COMPLETE: how the granule ended, and how many cycles after the core's own cycle. -/
def execDmaGranuleComplete (c : CoreId) (ge : GranuleRes) (s : State) : Host.Outcome State Fault Refusal :=
  s.onDev fun d => (d.granule c ge.ends ge.late).rerunDone c

/-- The meaning of REMOTE_FETCH_TIMEOUT: an attempt to fetch a faulted page got no reply (R317). -/
def execRemoteFetchTimeout (ctx page : Nat) (s : State) : Host.Outcome State Fault Refusal :=
  s.onDev fun d =>
    let d := d.fetchTimeout ctx page
    (d.coresOf ctx).foldl Dev.rerunDone d

end Sys2Proof.Machine
end

