-- ==== Sys2Proof/Machine/Fence.lean ====
section
/-! DEFINITION. Fencing, watching, draining the device and retiring a row (R29, R30, R386, R400 to R403, R412). -/

namespace Sys2Proof.Machine

/-- Every resident context is asked to leave at a gate (R354). -/
def Dev.preemptAll (d : Dev) : Dev :=
  (d.ctxs.filter fun p => p.2.state.holds && p.2.state != .draining).foldl (fun d p => d.askGate p.1 false) d

/-- The device drains every context and flags itself for replacement (R29, R386). -/
def Dev.drainDevice (d : Dev) : Dev :=
  ({ d with keep := { d.keep with replace := cDeviceDrainedReplace } }.eventDev cDeviceDrainedReplace 8 0 0 0).preemptAll

/-- Regions of a context roll back to their last commit and hold there for a pre-emption (R386). -/
def Dev.backOut (d : Dev) (n : Nat) : Dev :=
  let d := (d.dropReplays n).rollbackAll n
  d.updCtx n fun x => { x with
    gateReq := some false, reqSince := d.time, regions := x.regions.map fun r => { r with parked := true } }

/-- Whether a context still fits when a row is gone (R30, R32). -/
def Dev.fitsRetired (d : Dev) (n : Nat) : Bool := (d.ctx n).image.regions.all fun r => decide (r.cy0 + r.ch < d.rows / 2)

/-- A row begins its retirement, and no other change of its map is due any more: regions on it roll back and hold there, every other context is pre-empted at its next gate, and so is one that no longer fits (R30; log entry 96). -/
def Dev.retireRow (d : Dev) (py : Nat) : Dev :=
  let on := (d.regionsOnRow py).filter fun q => (d.ctx q.1).state != .draining && !(d.ctx q.1).entering
  let stays (n : Nat) : Bool := (on.any fun q => q.1 = n) && d.fitsRetired n
  let d := { d with retiring := some py, moves := d.moves.filter fun m => !(m.rows.any fun p => p.1 = py) }.defect 7 cSparesExhausted (256 * py) 0xFFFF 0
  let d := on.foldl (fun d q =>
    if ((d.ctx q.1).rt? q.2).any (·.shadowed) then (d.dropReplay q.1 q.2).rollback q.1 q.2 else d) d
  let live := (d.ctxs.filter fun p => p.2.state.holds && p.2.state != .draining).map Prod.fst
  let d := live.foldl (fun d n => if stays n then d else d.askGate n false) d
  ((live.filter stays).foldl (fun d n => d.parkIdle n) d).cellsFreed

/-- A row needs a third excluded cell, which the event names (R29, R30). -/
def Dev.sparesExhausted (d : Dev) (px py : Nat) : Dev :=
  let d := (d.raised cSparesExhausted).record cSparesExhausted 8 0 0xFFFF 0xFFFF (px + 256 * py) true 0 0
  if d.objD 0x2000 9 0 = 0 ∨ d.keep.retired.isSome ∨ d.retiring.isSome then d.drainDevice else d.retireRow py

/-- A map change joins those that wait for parks; the change that waits for the same row is recomputed with it (R405, R412). -/
def Dev.addMove (d : Dev) (purpose py new : Nat) : Dev :=
  { d with moves := (d.moves.filter fun m => m.copying || !(m.rows.any fun p => p.1 = py)) ++ [⟨purpose, [(py, new)], false⟩] }

/-- Whether a move has cells to move that a running context holds. -/
def Dev.moveRegions (d : Dev) (m : Move) : List (Nat × Nat) :=
  m.rows.flatMap fun p => (d.regionsOnRow p.1).filter fun q =>
    (((d.ctx q.1).image.regions.find? fun r => r.region = q.2).map RegionRec.cells).getD [] |>.any fun c =>
      d.physRow c.2 = p.1 && mapColumn (vGet d.rowMap p.1 0) c.1 != mapColumn p.2 c.1

/-- Fences a cell (R402). `ownTest` says that the groomer's own test of the cell found the fault. -/
def Dev.fenceCell (d : Dev) (px py : Nat) (ownTest : Bool) : Dev :=
  if d.keep.retired = some py ∨ d.isFenced px py ∨ 32 ≤ px ∨ 32 ≤ py then d
  else
    let d := (d.raised cCoreFenced).record cCoreFenced 8 0 0xFFFF 0xFFFF (px + 256 * py) true 0 0
    let d := if ownTest then d else d.groomAbort py
    let old := vGet d.rowMap py 0
    let wasReplay := old != homeMap (d.fenced py) && old = replayMap (d.fenced py)
    let d := { d with keep := { (d.keep.superseded px py) with fences := vSet d.keep.fences py (d.fenced py + 2 ^ px) } }
    let d := (d.defect 1 cCoreFenced (px + 256 * py) 0xFFFF 0).bump 0x6102 2 1
    if d.retiring = some py then d
    else if 2 < (colsOf (d.fenced py)).length then d.sparesExhausted px py
    else
      let new := if wasReplay then replayMap (d.fenced py) else homeMap (d.fenced py)
      if new = old then d
      else
        let m : Move := ⟨0, [(py, new)], false⟩
        if (d.moveRegions m).isEmpty && decide (d.epochDrain = 0) then d.setRows [(py, new)] fun _ => false
        else (d.moveRegions m).foldl (fun d q => d.parkOrBegin q.1 q.2) (d.addMove 0 py new)

/-- REPLAY_CONFIRMED_CORE for an ordinary cell (R383, R384, R400). -/
def Dev.watchCore (d : Dev) (px py logical seq : Nat) : Dev :=
  let again := d.watchedBefore 2 (px / 2) (py / 2)
  let d := d.defect 2 cReplayConfirmedCore (px + 256 * py) logical seq
  if again then d.fenceCell (px / 2) (py / 2) false else d

/-- REPLAY_CONFIRMED_CHECKER: the groomer tests the cell next (R383, R389). -/
def Dev.target (d : Dev) (cell origin : Nat) : Dev :=
  { d with groom := { d.groom with targets := d.groom.targets ++ [(cell, origin)] } }

/-- The checker watch that follows a targeted test that passed (R400). -/
def Dev.watchChecker (d : Dev) (px py logical seq : Nat) : Dev :=
  let again := d.watchedBefore 3 (px / 2) (py / 2)
  let d := d.defect 3 cReplayConfirmedChecker (px + 256 * py) logical seq
  if again then d.fenceCell (px / 2) (py / 2) false else d

/-- A margin-only fail watch-lists a core of the cell that failed; the third such event fences the cell (R396, R400). -/
def Dev.watchMargin (d : Dev) (px py phase : Nat) : Dev :=
  let d := d.defect 4 0 (px + 256 * py) 0xFFFF phase
  if 3 ≤ d.marginEvents (px / 2) (py / 2) then d.fenceCell (px / 2) (py / 2) true else d

end Sys2Proof.Machine
end

