-- ==== Sys2Proof/Machine/Release.lean ====
section
/-! DEFINITION. Release of held traffic at a commit, the input log, and the start of checkpoints (R332, R342, R374, R375, R440, R453, R455 to R457), and released traffic received (R440, R441, R443, R444). -/

namespace Sys2Proof.Machine

/-! ### Checkpoint requests (R356, R456, R457) -/

/-- Whether the checkpoint area holds both slots of a context beside those of the others (R456). -/
def Dev.ckptRoom (d : Dev) (n : Nat) : Bool :=
  let others := ((d.ckpts.map (·.ctx)).filter (· != n)).dedup
  decide (2 * (((others.map fun m => (d.ctx m).ckptBytes).sum) + (d.ctx n).ckptBytes) ≤ d.objD 0x6202 1 256 * 2 ^ 30)

/-- Refusals of a checkpoint request: no entered context, an operation under way, a step that has settled, no room. -/
def Dev.ckptCheck (d : Dev) (n step : Nat) : Option Code :=
  let x := d.ctx n
  firstFail [
    (!(x.state.holds || x.state = .preempted || x.state = .ready) || x.state = .draining, cStateInvalid),
    (x.ckpt.busy, cBusy),
    (x.regions.any fun r => decide (step < r.gateStep), cBadArgument),
    (!d.ckptRoom n, cNoMemory)]

/-- Requests a checkpoint at the commit of a step (R457). -/
def Dev.ckptGo (d : Dev) (n step : Nat) : Dev :=
  match d.ckptCheck n step with
  | some c => d.reply c
  | none => (d.updCtx n fun x => { x with ckpt := ⟨2, 0, cPending, step, 0, 0, 0⟩ }).parkIdle n

/-- The next step of a context: the highest that a region has still to settle. -/
def Ctx.nextStep (x : Ctx) : Nat := (x.regions.map (·.gateStep)).foldl max 0

/-! ### The input log (R440, R453, R455) -/

/-- Bytes of a released payload. -/
def RelBody.bytes : RelBody → Nat
  | .msg _ _ m => 16 * m.hdr.length
  | .credit .. => 16
  | .granule _ _ data => data.length

/-- Size of the input log, bytes (R453). -/
def Dev.logBudget (d : Dev) : Nat := d.objD 0x6201 1 64 * 2 ^ 30

/-- Bytes that the input log holds. -/
def Dev.logBytes (d : Dev) : Nat := (d.inlog.map fun e => e.body.bytes).sum

/-- Marks the entries that can be sent: in order, to a resident peer, in the log, at most 1 MiB unacknowledged to each destination (R440, R441, R450, R455). -/
def Dev.pushGo (d : Dev) : List Released → List Released → List Released
  | done, [] => done.reverse
  | done, e :: rest =>
    let same := done.filter fun f => f.ctx = e.ctx && f.dev = e.dev && f.rctx = e.rctx
    let unacked := ((same.filter fun f => f.sent && !f.acked).map fun f => f.body.bytes).sum
    let fits := decide ((done.map fun f => f.body.bytes).sum + e.body.bytes ≤ d.logBudget)
    let go := !e.sent && fits && same.all (fun f => f.sent) && decide (unacked + e.body.bytes ≤ 2 ^ 20)
      && (d.ctx e.ctx).peersIn.contains e.dev && !d.expelled e.dev
    d.pushGo ({ e with sent := e.sent || go } :: done) rest

/-- Sends what the log can send now. -/
def Dev.pushReleases (d : Dev) : Dev :=
  let l := d.pushGo [] d.inlog
  let now := (d.inlog.zip l).filter fun p => !p.1.sent && p.2.sent
  now.foldl (fun d p => d.sendReleased p.2) { d with inlog := l }

/-- Numbers the payloads of a step towards one destination context and enters them in the log; one that the log already holds keeps its place (R440, R453). -/
def Dev.logStep (d : Dev) (n num step dev : Nat) (bodies : List RelBody) : Dev :=
  let rctx := ((d.ctx n).peerCtx dev).getD n
  let base := (d.inlog.filter fun e => e.ctx = n && e.dev = dev && e.rctx = rctx && e.step = step && e.region != num).length
  bodies.zipIdx.foldl (fun d p =>
    let e : Released := ⟨n, dev, rctx, step, base + p.2, num, p.1, false, false⟩
    if d.inlog.any fun f => f.ctx = n && f.dev = dev && f.rctx = rctx && f.step = step && f.region = num && f.idx = base + p.2
    then d else { d with inlog := d.inlog ++ [e] }) d

/-- A full log makes releases wait; the contexts whose entries fill it take a checkpoint (R455). -/
def Dev.logFull (d : Dev) : Dev :=
  if d.logBytes ≤ d.logBudget then d
  else ((d.inlog.map fun (e : Released) => e.ctx).dedup).foldl (fun d n =>
    if (d.ckptCheck n (d.ctx n).nextStep).isNone then d.ckptGo n (d.ctx n).nextStep else d) (d.bump 0x6201 5 1)

/-! ### Release of a step (R332, R342, R373 to R375) -/

/-- Released messages of a step: replies go to the send queues, messages of this device onto the packet network, the others into the log (R342, R440, R484). -/
def Dev.releaseMsgs (d : Dev) (n num step : Nat) : Dev :=
  let mine (h : HeldMsg) : Bool := h.region = num && h.step = step && !h.released
  let reply (h : HeldMsg) : Bool := h.dstDev = 0xFFFF && h.dstX = 0xF0
  let l := (d.ctx n).msgHold.filter mine
  let d := { d with sendq := d.sendq ++ (l.filter reply).map fun (h : HeldMsg) => (⟨n, h.dstY, h.msg, d.time⟩ : ReplyMsg) }
  let d := d.updCtx n fun x => { x with
    msgHold := (x.msgHold.filter fun h => !(mine h && (reply h || h.dstDev != 0xFFFF))).map fun h =>
      if mine h then { h with released := true } else h }
  let late := (d.ctx n).msgHold.filter fun h => h.region = num && h.step = step && h.released && !h.sent && d.heldForOrder h
  (d.bump 0x4200 0xD ((late.map fun h => ceilDiv h.msg.hdr.length 16).sum)).flushHeld n

/-- A sender's share of what a ring passed in a step (R260). -/
def Ring.returns (r : Ring) (step : Nat) : List (Sender × Nat × Bool × Nat) :=
  let l := r.passed.filter fun p => p.step = step && !p.pad && !p.mcast
  ((l.map fun p => (p.src, p.inc, p.closed)).dedup).map fun k =>
    (k.1, k.2.1, k.2.2, ((l.filter fun p => p.src = k.1 && p.inc = k.2.1 && p.closed = k.2.2).map (·.units)).sum)

/-- Credit returns of a step: core, ring, sender, incarnation, closed mark and share (R260, R261, R374). -/
def Dev.stepReturns (d : Dev) (n num step : Nat) : List (CoreId × Nat × Sender × Nat × Bool × Nat) :=
  ((d.ctx n).coresIn num).flatMap fun c => (List.range 16).flatMap fun q =>
    (((d.arch c).msg.ring q).returns step).map fun p => (c, q, p)

/-- A ring after the commit of a step: the units passed in it leave held (R260, R374). -/
def Ring.committed (r : Ring) (step : Nat) : Ring :=
  let l := r.passed.filter fun p => p.step = step
  { r with
    held := r.held - ((l.filter fun p => p.inHeld).map (·.units)).sum
    passed := r.passed.filter fun p => p.step != step }

/-- A message unit after the commit of a step: held space returned, multicast allotments restored (R262, R374). -/
def MsgUnit.committed (u : MsgUnit) (step : Nat) : MsgUnit :=
  { u with
    rings := u.rings.map fun r => r.committed step
    chans := u.chans.map fun k => if k.mcast then { k with credits := k.allot } else k }

/-- A core after the commit of a step: the shadows of later gates forget the held units too, so that no roll-back brings them back (R260, R262, R374). -/
def Core.passedBack (k : Core) (step : Nat) : Core :=
  let f (a : Arch) : Arch := { a with msg := a.msg.committed step }
  { k with arch := f k.arch, shadows := k.shadows.map f }

/-- Releases a held granule: to the log for a peer, to the host, or in place when the page has become local (R332). -/
def Dev.releaseGranule (d : Dev) (n : Nat) (h : HeldGranule) : Dev :=
  match (d.ctx n).leaf (h.va / 65536) with
  | none => d
  | some l => if l.home = 2 then d else d.writePlace (l.place (h.va % 65536)) h.data n

/-- Device of a granule bound for a peer, and its payload. -/
def Ctx.granuleTo (x : Ctx) (h : HeldGranule) : Option (Nat × RelBody) :=
  match x.leaf (h.va / 65536) with
  | none => none
  | some l =>
    match l.place (h.va % 65536) with
    | .peer dev addr => some (dev, .granule (((x.segOf h.va 1).map fun s => s.lease).getD 0) addr h.data)
    | _ => none

/-- A granule after its release: one bound for a peer or for the host stays held until it is acknowledged (R332). -/
def Ctx.granuleHeld (x : Ctx) (h : HeldGranule) : Option HeldGranule :=
  match x.leaf (h.va / 65536) with
  | none => none
  | some l =>
    match l.place (h.va % 65536) with
    | .peer dev _ => some { h with released := true, dev := some dev }
    | .host _ _ => some { h with released := true }
    | _ => none

/-- Everything that a committed step sends out of its region is released (R332, R342, R373, R374, R440). -/
def Dev.releaseStep (d : Dev) (n num step : Nat) : Dev :=
  let x := d.ctx n
  let msgs := x.msgHold.filter fun h => h.region = num && h.step = step && !h.released && h.dstDev != 0xFFFF
  let rets := d.stepReturns n num step
  let grans := x.dmaHold.filter fun h => h.region = num && h.step = step && !h.released
  let bodies (dev : Nat) : List RelBody :=
    ((msgs.filter fun h => h.dstDev = dev).map fun h => .msg h.dstX h.dstY h.msg)
      ++ ((rets.filter fun p => p.2.2.1.dev = dev).map fun p => .credit p.2.2.1 p.1 p.2.1 p.2.2.2.1 p.2.2.2.2.1 p.2.2.2.2.2)
      ++ (grans.filterMap fun h => x.granuleTo h).filterMap fun p => if p.1 = dev then some p.2 else none
  let devs := ((msgs.map fun h => h.dstDev) ++ (rets.map fun p => p.2.2.1.dev)
    ++ (grans.filterMap fun h => x.granuleTo h).map Prod.fst).dedup.filter (· != 0xFFFF)
  let d := d.releaseMsgs n num step
  let d := (rets.filter fun p => p.2.2.1.dev = 0xFFFF).foldl (fun d p =>
    d.giveBack p.1 p.2.2.1 p.2.1 p.2.2.2.1 p.2.2.2.2.1 false p.2.2.2.2.2) d
  let d := (x.coresIn num).foldl (fun d c => d.updCore c fun k => k.passedBack step) d
  let d := grans.foldl (fun d h => d.releaseGranule n h) d
  let after (h : HeldGranule) : Option HeldGranule :=
    if h.region = num && h.step = step && !h.released then x.granuleHeld h else some h
  let d := (d.bump 0x3102 4 ((grans.map fun h => h.data.length).sum)).updCtx n fun y => { y with dmaHold := y.dmaHold.filterMap after }
  let d := devs.foldl (fun d dev => d.logStep n num step dev (bodies dev)) d
  d.logFull.pushReleases

/-- Deliveries into a region that a commit covers are free to be forgotten (R375, R440, R483). -/
def Dev.settleIn (d : Dev) (n num step : Nat) : Dev :=
  let done (p : Option (Nat × Nat)) : Bool := p.any fun p => p.1 = num && decide (p.2 ≤ step)
  let d := d.updCtx n fun x => { x with
    msgHold := x.msgHold.filter fun h => !done h.placedIn
    fresh := x.fresh.filter fun f => !(f.region = num && decide (f.inStep ≤ step)) }
  { d with steerBuf := d.steerBuf.filter fun (h : SteerMsg) => !(h.ctx = n && done h.placedIn) }

/-! ### Released traffic received (R440, R443, R444) -/

/-- Last payload delivered from a sending context. -/
def Ctx.lastFrom (x : Ctx) (dev ctx : Nat) : Option (Nat × Nat) :=
  (x.delivered.find? fun p => p.1 = dev && p.2.1 = ctx).map fun p => (p.2.2.1, p.2.2.2)

/-- Order of positions in the release of a context (R440). -/
def posLe (a b : Nat × Nat) : Bool := decide (a.1 < b.1) || (a.1 = b.1 && decide (a.2 ≤ b.2))

/-- Notes a delivery: the position advances, a payload asked for again is no longer missing. -/
def Ctx.deliveredAt (x : Ctx) (dev ctx step idx : Nat) : Ctx :=
  if x.lost.contains (dev, ctx, step, idx) then { x with lost := x.lost.erase (dev, ctx, step, idx) }
  else { x with delivered := (x.delivered.filter fun p => !(p.1 = dev && p.2.1 = ctx)) ++ [(dev, ctx, step, idx)] }

/-- The lease that a device's context holds under a number (R444). -/
def Dev.leaseOf (d : Dev) (lease dev ctx : Nat) : Option Lease :=
  match nmGet d.rack.leases lease with
  | some l => if l.dev = dev && l.ctx = ctx then some l else none
  | none => none

/-- Whether a lease covers a range. -/
def Lease.covers (l : Lease) (addr n : Nat) : Bool := decide (addr + n ≤ l.frames * 65536)

/-- Delivers the body of a released payload; none when it cannot be placed yet or is refused (R250, R440, R443, R444). -/
def Dev.deliverBody (d : Dev) (f : FrameHdr) (b : RelBody) (check : Nat) : Option Dev :=
  match b with
  | .msg x y m =>
    let r := (d.arch ⟨x, y⟩).msg.ring m.hdr.queue
    if r.state = 1 && !r.fits m.hdr.length then none else some (d.sendHeld x y m)
  | .credit dst src queue inc closed units =>
    some (d.creditReturn ⟨dst.x, dst.y⟩ ⟨src.x, src.y, f.srcDev⟩ queue inc closed units (d.arch ⟨dst.x, dst.y⟩).stat.cyc)
  | .granule lease addr data =>
    if crc64 data ≠ check then none
    else
      match d.leaseOf lease f.srcDev f.srcCtx with
      | none => none
      | some l => if l.w && l.covers addr data.length then some (d.writeT2 (l.first * 65536 + addr) data) else none

/-- The core of this device that a released payload goes to. -/
def RelBody.core? : RelBody → Option CoreId
  | .msg x y _ => some ⟨x, y⟩
  | .credit dst .. => some ⟨dst.x, dst.y⟩
  | .granule .. => none

/-- A payload placed in a region that has not committed the step is remembered until it does (R375). -/
def Dev.rememberIn (d : Dev) (n : Nat) (f : FrameHdr) (b : RelBody) : Dev :=
  match b.core?.bind fun c => d.rtOf c with
  | some r => d.updCtx n fun x => { x with fresh := x.fresh ++ [⟨r.num, r.gateStep, f.srcDev, f.srcCtx, f.step, f.relIdx⟩] }
  | none => d

/-- Whether two payloads travel between the same contexts. -/
def sameWay (a b : FrameHdr) : Bool := a.srcDev = b.srcDev && a.srcCtx = b.srcCtx && a.dstCtx = b.dstCtx

/-- A released payload comes to its station (R440, R441, R444): a duplicate is discarded and counted, one that comes out of order or for a context that is not here is left to be resent, a granule that is refused is answered, a message whose ring has no room is held with all that follow it, and the others are delivered and acknowledged. -/
def Dev.releasedAt (d : Dev) (h : StationIn) : Dev :=
  let f := h.hdr
  let ctx := f.dstCtx
  let x := d.ctx ctx
  let again := x.lost.contains (f.srcDev, f.srcCtx, f.step, f.relIdx)
  let last := x.lastFrom f.srcDev f.srcCtx
  let held := d.rack.stationed.filter fun k => sameWay k.hdr f
  let before := match held.getLast? with
    | some k => some (k.hdr.step, k.hdr.relIdx)
    | none => last
  let dup := !again && last.any fun p => posLe (f.step, f.relIdx) p
  let next := again || f.relIdx = 0 || before.any fun p => p.1 = f.step && p.2 + 1 = f.relIdx
  let hold (d : Dev) : Dev := { d with rack := { d.rack with stationed := d.rack.stationed ++ [h] } }
  if dup then (d.bump 0x6201 4 1).sendRelAck f.srcDev ctx f.srcCtx f.step f.relIdx
  else if !next || held.any fun k => k.hdr.step = f.step && k.hdr.relIdx = f.relIdx then d
  else if h.body.core?.isSome && (!x.state.holds || x.state = .draining || x.entering) then d
  else if !held.isEmpty then hold d
  else
    match d.deliverBody f h.body h.check with
    | none =>
      match h.body with
      | .granule lease addr _ => d.sendFar 1 f.srcDev ctx f.srcCtx (.farReply lease addr none)
      | _ => hold d
    | some d =>
      let d := (d.rememberIn ctx f h.body).updCtx ctx fun x => x.deliveredAt f.srcDev f.srcCtx f.step f.relIdx
      d.sendRelAck f.srcDev ctx f.srcCtx f.step f.relIdx

/-- A released payload arrives from a link (R425, R440). -/
def Dev.releasedIn (d : Dev) (n : Nat) (f : FrameHdr) (b : RelBody) (check : Nat) : Dev :=
  (d.crosses n f.dstCtx).releasedAt ⟨n, f, b, check⟩

/-- The stations try the payloads that they hold again, in their order (R440; log entry 120). -/
def Dev.stationsGo (d : Dev) : Dev :=
  d.rack.stationed.foldl Dev.releasedAt { d with rack := { d.rack with stationed := [] } }

end Sys2Proof.Machine
end

