-- ==== Sys2Proof/Machine/Gate.lean ====
section
/-! DEFINITION. GATE, the gate network, commit, roll-back and tandem replay (R85, R109, R206, R207, R294 to R297, R367 to R388, R604, R605). -/

namespace Sys2Proof.Machine

/-! ### GATE (R85, R109, R206, R295 to R297, R328, R342, R363) -/

/-- Whether the DMA queue holds only crossing commands accepted in the current step (R85, R328). -/
def Arch.onlyCrossing (a : Arch) : Bool :=
  (vGet a.units 3 clearUnit).queue.all fun e => e.step = a.stat.stepNo && match e.cmd with
    | .dma put _ bs _ _ _ => !put && (dmaDesc bs).cross
    | _ => false

/-- Whether the next step would find no free hold space: the earlier steps' traffic still fills more than the shares of H steps (R332, R342; log entry 25). -/
def Dev.holdFull (d : Dev) (c : CoreId) : Bool :=
  match (d.core c).ctx with
  | none => false
  | some n =>
    let x := d.ctx n
    let step := (d.arch c).stat.stepNo
    let old (e : Released) : Bool := e.ctx = n && !e.acked
    let logMsgs := ((d.inlog.filter fun e => old e && !e.body.isGranule).map fun e => e.body.bytes).sum
    let msgs := ((x.msgHold.filter fun h => h.step != step).map fun h => 16 * h.msg.hdr.length).sum + logMsgs
    let grans := ((x.dmaHold.filter fun h => h.step != step).map fun h => h.data.length).sum
    decide (x.image.horizon * x.image.msgHoldBytes < msgs) || decide (x.image.horizon * x.image.holdBytes < grans)

/-- The waits of GATE (R85, R202, R328, R342, R363): first those that are counted, for the tensor and the vector unit and the verdicts, then those that are late. -/
def gateWait (c : CoreId) (d : Dev) (w : At) : Except (Stall × At) At :=
  match arithWait d c w with
  | .error e => .error e
  | .ok w =>
    let a := d.arch c
    if !a.checker.pendingV.isEmpty then .error (.verdictHold, w)
    else
      match sendWait d c (w.waitVerdicts a.checker.judged) with
      | .error e => .error e
      | .ok w =>
        if !a.onlyCrossing then .error (.dmaBusy, w)
        else
          let u := vGet a.units 3 clearUnit
          if !a.verify.isEmpty then .error (.verifySet, w)
          else if d.holdFull c then .error (.holdSpace, w)
          else .ok (w.waitEnd u 3 u.lastEnd u.mark)

/-- The entry of the cadence block that a core's step is compared with (R294, R295). -/
def Core.cadenceEntry (k : Core) : Nat :=
  let p := vGet (k.slot k.arch.spanGear).parts 7 []
  let period := max 1 (bits (leNat (memRead p 0 64)) 32 24)
  leNat (memRead p (64 + 4 * (k.arch.spanIdx % period)) 4)

/-- The comparison of the issue count at a gate (R61, R295, R296, R425). -/
def Dev.cadenceCheck (d : Dev) (c : CoreId) : Dev :=
  let k := d.core c
  let want := k.cadenceEntry
  let count := k.arch.stat.issue
  if want = 0xFFFFFFFF then d.bump 0x4400 9 1
  else if k.arch.stat.throttle ≠ 0 ∨ (d.rtOf c).any (·.degraded) ∨ want = count then d
  else
    let d := d.updStat c fun s => { s with clean := false, suspects := ⟨cCadenceDeviation, 1, want, count⟩ :: s.suspects }
    (d.eventCore c cCadenceDeviation 0 3 want count).bump 0x4400 8 1

/-- The comparison of the rings' greatest occupancies with the cadence block's marks (R297). -/
def Dev.ringMarks (d : Dev) (c : CoreId) : Dev :=
  let p := leNat (memRead (vGet ((d.core c).slot (d.arch c).spanGear).parts 7 []) 0 64)
  (List.range 16).foldl (fun d q =>
    let r := (d.arch c).msg.ring q
    let mark := bits p (139 + 12 * q) (128 + 12 * q)
    if mark < r.peak then ((d.raised cRingHwExceeded).record cRingHwExceeded 3 0 ((d.core c).ctx.getD 0xFFFF) (c.x + 256 * c.y) 0xFFFF false
      (pack [(0, q), (16, r.peak)]) mark).bump 0x4400 0xA 1 else d) d

/-- Every dirty paired entry advances to the copy written in the step (R206). -/
def Arch.advanceHandles (a : Arch) : Arch :=
  { a with handles := a.handles.map fun p =>
      if p.2.valid && p.2.mode = 1 && p.2.dirty then
        (p.1, { p.2 with gen := (p.2.gen + 1) % (p.2.copiesM1 + 1), dirty := false })
      else p }

/-- The first suspect code that a core that is not clean reports. -/
def CoreStat.suspectCode (s : CoreStat) : Code :=
  match s.suspects.getLast? with
  | some r => r.code
  | none => s.exc.code

/-- The core at its gate: the report, the counts kept and cleared, the next step's number, span and state (R67, R109, R295, R364). The rows of the step just ended do not count for the ramp of the next one's first command, whose window of 16 counted cycles R100 leaves open across a GATE (DESIGN CHOICE, log entry 105). -/
def Core.atGate (k : Core) (last : Bool) : Core :=
  let a := k.arch
  let s := a.stat
  let rep : GateRep := { a.report false with code := if s.clean then 0 else s.suspectCode, ended := last }
  let a := a.advanceHandles
  let a := { a with
    stat := { s with
      run := .atGate, prevIssue := s.issue, prevLate := s.late, issue := 0, late := 0, throttle := 0, throttled := false, lates := [], holds := [],
      stepNo := (s.stepNo + 1) % 2 ^ 32, clean := true, suspects := [], lastGate := last }
    checker := clearChecker
    dma := { a.dma with crossed := a.dma.crossed.filter fun e => e.step = s.stepNo }
    tensor := { a.tensor with drains := 0, rowEnd := none }
    verified := []
    msg := { a.msg with rings := a.msg.rings.map fun r => { r with peak := r.occ } }
    spanGear := if a.shifted then s.gear else a.spanGear, spanIdx := if a.shifted then 0 else a.spanIdx + 1, shifted := false }
  { k with arch := a, reports := k.reports ++ [rep] }

/-- GATE issues (R109): comparisons, report, and the gate timer of the region. -/
def Dev.gate (d : Dev) (c : CoreId) (last : Bool) : Dev :=
  let d := (d.cadenceCheck c).ringMarks c
  let d := d.updCore c fun k => k.atGate last
  let d := match (d.core c).reports.getLast? with
    | some r => d.emit (.gateReport c r)
    | none => d
  match (d.core c).ctx with
  | some n => d.updRt n (d.core c).region fun r => { r with timer := true }
  | none => d

/-- The meaning of GATE. -/
def execGate (c : CoreId) (g : Common) (last : Bool) (s : State) : Host.Outcome State Fault Refusal :=
  s.onDev fun d => d.present c g ⟨0, true, []⟩
    { wait := gateWait c, check := noCheck, effect := fun d _ => d.firstCycle c fun d => d.gate c last }

/-! ### When a gate can settle (R369, R604) -/

/-- Cores that take part in a region's gate (R109). -/
def Dev.gateCores (d : Dev) (n num : Nat) : List CoreId := ((d.ctx n).coresIn num).filter fun c => !(d.arch c).stat.ended

/-- The report of a core for a step. -/
def Core.reportOf (k : Core) (step : Nat) : Option GateRep := k.reports.find? fun r => r.step = step

/-- Reports of a region's cores for the step whose gate settles next. -/
def Dev.gateReports (d : Dev) (n : Nat) (r : RegionRt) : List (CoreId × GateRep) :=
  (d.gateCores n r.num).filterMap fun c => ((d.core c).reportOf r.gateStep).map fun p => (c, p)

/-- Messages that the cores of a region have sent to themselves, and those that have been placed (R604). -/
def Dev.sentDone (d : Dev) (cores : List CoreId) : Nat × Nat :=
  ((cores.map fun c => (d.arch c).msg.sentIn).sum, (cores.map fun c => (d.arch c).msg.doneIn).sum)

/-- Whether every core has reported and the counts of R604 agree, or a core has stopped. -/
def Dev.canSettle (d : Dev) (n : Nat) (r : RegionRt) : Bool :=
  let x := d.ctx n
  let reps := d.gateReports n r
  let counts := d.sentDone (x.coresIn r.num)
  x.state.holds && x.state != .draining && !x.entering && !r.parked && !r.scanned && !reps.isEmpty
    && reps.length = (d.gateCores n r.num).length
    && (counts.1 = counts.2 || reps.any fun p => p.2.stopped)

/-! ### A clean gate (R26, R372, R377, R419, R496) -/

/-- A write of fence.cmd whose resident regions have all passed a clean gate starts its fence (R419). -/
def Dev.fencePassed (d : Dev) (passed : Nat × Nat → Bool) : Dev :=
  let waits := d.fenceWaits.map fun w => { w with regions := w.regions.filter fun q => !passed q && (d.ctx q.1).state.holds }
  let due := waits.filter fun w => w.regions.isEmpty
  due.foldl (fun d w => d.fenceCell w.px w.py false) { d with fenceWaits := waits.filter fun w => !w.regions.isEmpty }

/-- A message unit as the gate shadow holds it: the credit returns from the region's own cores that are on their way have arrived, and no multicast message awaits its completion (R604; log entry 116). -/
def MsgUnit.shadow (u : MsgUnit) (returns : List Packet) : MsgUnit :=
  returns.foldl (fun u p =>
    let n := ((p.units.head?).getD 0).toNat
    u.credited ⟨p.head.srcX, p.head.srcY, 0xFFFF⟩ (bits n 3 0) (bits n 11 4) (bits n 28 16) (bit n 12)) { u with mcastWait := [] }

/-- The cores of a region at the beginning of their next step, which the gate shadow holds (R222, R377). -/
def Core.settleCore (k : Core) (step : Nat) (returns : List Packet) : Core :=
  let run := k.arch.stat.run
  let k := { k.beginStep with reports := k.reports.filter fun r => r.step != step }
  let k := { k with arch := { k.arch with stat := { k.arch.stat with run := run } } }
  { k with shadows := k.shadows ++ [{ k.arch with msg := k.arch.msg.shadow returns }] }

/-- Credit returns on their way to a core from cores of a list. -/
def Dev.returnsTo (d : Dev) (c : CoreId) (cores : List CoreId) : List Packet :=
  d.mesh.transit.filter fun p => p.head.vc = 1 && p.head.body = 1 && p.within cores && p.dests.contains (ckey c)

/-- Whether a region may run ahead: no more than H steps have settled and not committed (R372). -/
def Ctx.mayRun (x : Ctx) (num : Nat) : Bool := (x.rt? num).any fun r => decide (r.settled.length ≤ x.image.horizon)

/-- A region goes on to its next step when its horizon allows it and nothing holds it (R372, R350). -/
def Dev.goOn (d : Dev) (n num : Nat) : Dev :=
  if (d.ctx n).stopReq then d
  else if d.mustPark n num then d.parkOrBegin n num
  else if (d.ctx n).mayRun num then d.begin_ n num
  else d

/-- A gate that settles clean (R26, R207, R372, R377, R496). -/
def Dev.settleClean (d : Dev) (n num : Nat) : Dev :=
  match (d.ctx n).rt? num with
  | none => d
  | some r =>
    let cores := (d.ctx n).coresIn num
    let d := cores.foldl (fun d c => d.updCore c fun k => k.settleCore r.gateStep (d.returnsTo c cores)) d
    let d := if r.degraded then d.bump 0x2A00 0xA 1 else d
    let vals := d.gateNow
    let old := d
    let d := d.updRt n num fun t => { t with
      settled := t.settled ++ [t.gateStep], gateStep := (t.gateStep + 1) % 2 ^ 32, timer := false
      gateVals := vals, oldVals := t.oldVals ++ [t.gateVals], maps := [], degraded := false }
    let d := if r.maps = [] then d else d.moved old (((d.ctx n).image.regions.filter fun q => q.region = num).flatMap RegionRec.cells)
    (d.fencePassed fun q => q = (n, num)).goOn n num

/-! ### Commit (R109, R207, R347, R371 to R375) -/

/-- Takes the committed generation of every paired entry from a step's snapshot; an entry that a later SHIFT has installed is not that of the snapshot and keeps its own (R207, R209). -/
def Arch.commitHandles (a snap : Arch) : Arch :=
  { a with handles := a.handles.map fun p =>
      let s := snap.handle p.1
      if p.2.mode = 1 && s.valid && p.2.sameEntry s then (p.1, { p.2 with cgen := s.gen }) else p }

/-- A core at the commit of a step of which `left` settled steps remain uncommitted, this one included: the slots that were in force in later steps are still those of steps not committed (R207, R282, R288, R373). -/
def Core.commit (k : Core) (step left : Nat) : Core :=
  let shadows := k.shadows.drop (k.shadows.length - left)
  match shadows with
  | [] => k
  | snap :: _ =>
    { k with
      arch := k.arch.commitHandles snap, shadows := shadows.map fun a => a.commitHandles snap
      usedSlots := k.usedSlots.filter fun u => 0 < (u.2 + 2 ^ 32 - step) % 2 ^ 32 && decide ((u.2 + 2 ^ 32 - step) % 2 ^ 32 < 2 ^ 31) }

/-- Cores whose last step has committed end: idle, closed to their senders (R109, R265). -/
def Dev.endCores (d : Dev) (cores : List CoreId) (step : Nat) : Dev :=
  cores.foldl (fun d c =>
    let s := (d.arch c).stat
    if s.lastGate && !s.ended && s.stepNo = (step + 1) % 2 ^ 32 then
      let d := (d.closeRings c).updStat c fun s => { s with run := .idle, ended := true }
      d.updCore c fun k => { k with shadows := k.shadows.map fun _ => k.arch }
    else d) d

/-- The head settled step of a region commits (R373), and the context drains, parks or goes on (R109, R347, R350). -/
def Dev.commitStep (d : Dev) (n num step left : Nat) : Dev :=
  let cores := (d.ctx n).coresIn num
  let d := d.releaseStep n num step
  let d := cores.foldl (fun d c => d.updCore c fun k => k.commit step left) d
  let d := (d.updRt n num fun t => { t with settled := t.settled.drop 1, oldVals := t.oldVals.drop 1, shadowed := true }).settleIn n num step
  let d := (d.updCtx n fun x => { x with steps := x.steps + 1 }).bump 0x6000 6 1
  let d := (d.endCores cores step).stationsGo
  let x := d.ctx n
  if x.stopReq || d.allEnded x.allCores then d.drain n
  else d.goOn n num

/-! ### Tandem replay: what was found (R383 to R385) -/

/-- What a decision comes to, least severe first (R385). -/
inductive Decided where
  | agreed
  | checker
  | core
  | fails (code : Code)
  | unresolved
deriving DecidableEq, Repr

/-- Severity of an outcome (R385). -/
def Decided.rank : Decided → Nat
  | .agreed => 0
  | .checker => 1
  | .core => 2
  | .fails _ => 3
  | .unresolved => 4

/-- Status code of an outcome. -/
def Decided.code : Decided → Code
  | .agreed => cOk
  | .checker => cReplayConfirmedChecker
  | .core => cReplayConfirmedCore
  | .fails c => c
  | .unresolved => cUnresolvedDisagreement

/-- The decision of one suspect record. -/
structure Decision where
  core : CoreId
  suspect : Code
  outcome : Decided
  ordinal : Nat
  observed : Nat
  expected : Nat
  replayed : Nat
  /-- Physical core that the decision names. -/
  phys : Nat × Nat
  /-- Physical core on which the original ran. -/
  own : Nat × Nat
  /-- The cell is watch-listed: not when a near-store row or a tier-2 frame is at fault (R384). -/
  watch : Bool
deriving DecidableEq, Repr

/-- R383 for one record: `seen` is the replay's check of the recorded row, column or lane of the recorded command. -/
def decideMismatch (o : Suspect) (seen : Option Check) : Decided :=
  match seen with
  | none => .unresolved
  | some r =>
    if o.check.sameObserved r then .checker
    else if o.check.passesAs r then .core
    else .unresolved

/-- The check that a replay made where the original has its suspect record (R383). -/
def GateRep.seenAt (now : GateRep) (o : Suspect) : Option Check :=
  match now.results.find? fun r => r.1 = o.ordinal with
  | some r => r.2.find? fun k => k.at_ o.check
  | none => none

/-- R384 for one record that CHECK_MISMATCH did not raise. -/
def decideOther (o : SusRec) (now : GateRep) : Decided :=
  let same := now.suspects.any fun r => r.code = o.code && r.kind = o.kind && r.place = o.place && (o.kind = 0 || r.detail = o.detail)
  match o.kind with
  | 1 =>
    if now.stopped then .unresolved
    else if now.issue = o.place then .core
    else if now.issue = o.detail then .fails cCadenceDeviation
    else .unresolved
  | 2 =>
    if same then .fails cCadenceDeviation
    else if now.suspects.any fun r => r.kind = 2 then .unresolved
    else .core
  | 3 => if now.suspects.any fun r => r.kind = 3 then .fails cCadenceDeviation else .agreed
  | _ =>
    if same then .fails o.code
    else if now.suspects.any fun r => r.kind = 0 && r.place = o.place then .unresolved
    else .core

/-- The neighbour whose router drives an input port (R384). -/
def drives (c : CoreId) (port : Nat) : CoreId := (acrossPort c port).1

/-- Decisions of the records of one core. The values of a count deviation and of a time-out are counts (R296, R370). -/
def coreDecisions (c : CoreId) (o now : GateRep) (phys : CoreId → Nat × Nat) : List Decision :=
  let stray := o.suspects.any fun r => r.kind = 2
  let mism := match o.suspect with
    | none => []
    | some r =>
      let seen := now.seenAt r
      [⟨c, cCheckMismatch, decideMismatch r seen, r.ordinal, r.check.observedWord, r.check.expectedWord,
        (seen.map Check.observedWord).getD 0, phys c, phys c, true⟩]
  let rest := (o.suspects.filter fun r => r.kind != 4 && !(stray && r.kind = 1)).map fun r =>
    let counts : Bool := r.kind = 1 || r.kind = 3
    ⟨c, r.code, decideOther r now, 0, if counts then r.detail else 0, if counts then r.place else 0, if counts then now.issue else 0,
      phys (if r.kind = 2 then drives c r.place else c), phys c, r.kind != 0 || r.detail = 0⟩
  mism ++ rest

/-- Suspect results that the replay raised where the original raised none (R385). -/
def newSuspects (o : Option GateRep) (now : GateRep) : List SusRec :=
  now.suspects.filter fun r => !((o.map (·.suspects)).getD []).any fun p =>
    p.code = r.code && (p.kind = r.kind || (r.kind = 1 && p.kind = 2)) && (r.kind = 1 || r.kind = 2 || r.kind = 3 || p.place = r.place)

/-- A disagreement at a point where the original had no record (R385, R605). -/
def newDecision (c : CoreId) (ordinal replayed : Nat) (p : Nat × Nat) : Decision :=
  ⟨c, 0, .unresolved, ordinal, 0, 0, replayed, p, p, false⟩

/-- Decisions of a core's new suspect results. -/
def newDecisions (c : CoreId) (o : Option GateRep) (now : GateRep) (p : Nat × Nat) : List Decision :=
  (newSuspects o now).map fun r =>
    newDecision c (if r.kind = 4 then r.place else 0)
      (if r.kind = 4 then ((now.suspect.filter fun v => v.ordinal = r.place).map (·.check.observedWord)).getD 0
        else if r.kind = 1 then r.detail else 0) p

/-- The gate timer's records that the replay cleared are decided together (R384): when they lie in one cell, one decision names it; otherwise they stay open, which the second component says. -/
def timerDecisions (ds : List Decision) : List Decision × Bool :=
  match ds.filter fun e => e.outcome = .agreed with
  | [] => (ds, false)
  | e :: rest =>
    if rest.all fun q => q.phys.1 / 2 = e.phys.1 / 2 && q.phys.2 / 2 = e.phys.2 / 2 then
      (ds.filterMap fun q => if q.outcome != .agreed then some q else if q.core = e.core then some { q with outcome := .core } else none, false)
    else (ds, true)

/-! ### Tandem replay: acting on the decision (R381 to R386, R605) -/

/-- Writes the record of a decision (R388); `at_` and `places` are its words for the core and for the physical cores. -/
def Dev.lastDecision (d : Dev) (n step : Nat) (e : Decision) (at_ places : Nat) : Dev :=
  let seq := (d.objD 0x6001 1 0 + 1) % 2 ^ 32
  [(1, seq), (2, n), (3, step), (4, at_), (5, places), (6, e.suspect), (7, e.outcome.code),
    (8, e.ordinal), (9, e.observed), (10, e.expected), (11, e.replayed)].foldl (fun d p => d.setObj 0x6001 p.1 p.2) d

/-- Raises and records the outcome of a tandem replay with integ.last.seq (R597). -/
def Dev.replayEvent (d : Dev) (n : Nat) (code : Code) (logical physical : Nat) : Dev :=
  (d.raised code).record code 8 0 n logical physical false (d.objD 0x6001 1 0) 0

/-- One decision: its record, its event and counter, and its watch-list action (R383 to R385, R389, R400). -/
def Dev.decided (d : Dev) (n step : Nat) (e : Decision) : Dev :=
  let now := d.physCore e.core
  let at_ := e.core.x + 256 * e.core.y
  let d := d.lastDecision n step e at_ (pack [(0, e.own.1), (8, e.own.2), (16, now.1), (24, now.2)])
  let seq := d.objD 0x6001 1 0
  let place := e.phys.1 + 256 * e.phys.2
  match e.outcome with
  | .core =>
    let d := (d.replayEvent n cReplayConfirmedCore at_ place).bump 0x6000 0xA 1
    if e.watch then d.watchCore e.phys.1 e.phys.2 at_ seq else d
  | .checker =>
    let d := (d.replayEvent n cReplayConfirmedChecker at_ place).bump 0x6000 0xB 1
    { d with groom := { d.groom with
        targets := d.groom.targets ++ [(e.phys.2 / 2 * 32 + e.phys.1 / 2, 0)]
        blame := d.groom.blame ++ [(e.phys.2 / 2 * 32 + e.phys.1 / 2, place, at_, seq)] } }
  | .unresolved => (d.replayEvent n cUnresolvedDisagreement at_ place).bump 0x6000 0xC 1
  | _ => d

/-- A disagreement that no core's record stands for, as when the two copies of the gate tree disagree again (R386). -/
def Dev.undecided (d : Dev) (n step : Nat) : Dev :=
  let d := d.lastDecision n step (newDecision ⟨0, 0⟩ 0 0 (0, 0)) 0xFFFF 0xFFFFFFFF
  (d.replayEvent n cUnresolvedDisagreement 0xFFFF 0xFFFF).bump 0x6000 0xC 1

/-- A replay ends: a stand-in's rectangle is free again, and the messages that waited for it go on (R382). -/
def Dev.replayEnds (d : Dev) (n num : Nat) : Dev :=
  match ((d.ctx n).rt? num).bind (·.replay) with
  | some p =>
    let d := (d.dropReplay n num).flushHeld n
    if p.standin.isSome then d.cellsFreed else d
  | none => d

/-- A disagreement that cannot be resolved: the region stays at its last commit, the context is pre-empted there, the device drains (R386). -/
def Dev.unresolved (d : Dev) (n num : Nat) : Dev := (((d.rollback n num).replayEnds n num).backOut n).drainDevice.schedule

/-- No further replay is possible: every original record is unresolved (R382, R385). -/
def Dev.giveUp (d : Dev) (n num : Nat) (p : Replay) : Dev :=
  let ds := p.originals.flatMap fun o =>
    (coreDecisions (coreOfKey o.1) o.2 o.2 fun c => (nmGet p.phys (ckey c)).getD (d.physCore c)).map fun e =>
      { e with outcome := .unresolved, replayed := 0 }
  let d := if ds.isEmpty then d.undecided n p.step else ds.foldl (fun d e => d.decided n p.step e) d
  d.unresolved n num

/-- Whether a physical row runs its replay map, where that differs from its home map. -/
def Dev.onReplayMap (d : Dev) (py : Nat) : Bool :=
  let f := d.fenced py
  vGet d.rowMap py 0 = replayMap f && replayMap f != homeMap f

/-- Physical rows that carry a region. -/
def Dev.rowsOf (d : Dev) (n num : Nat) : List Nat :=
  (((((d.ctx n).image.regions.find? fun r => r.region = num).map fun r =>
    (List.range r.ch).map fun j => d.physRow (r.cy0 + j))).getD []).dedup

/-- Rows that carry a region take new maps at one epoch; the other regions on them follow at their next gates, and groomer tests on them end (R26, R381, R387, R412). -/
def Dev.takeMaps (d : Dev) (n num : Nat) (maps : List (Nat × Nat)) : Dev :=
  let d := maps.foldl (fun d p => d.groomAbort p.1) d
  let held := { d with moves := d.moves.filter fun m => m.copying || !(m.rows.any fun p => maps.any fun q => q.1 = p.1) }
  let freed := (d.moves.filter fun m => !held.moves.contains m).flatMap d.moveRegions
  let parked (q : Nat × Nat) : Bool := ((d.ctx q.1).rt? q.2).any fun r => r.parked
  let d := held.setRows maps fun q => q != (n, num) && !parked q
  (freed.filter fun q => q != (n, num) && parked q).foldl (fun d q => d.parkOrBegin q.1 q.2) d

/-- The rows of a region take their other maps (R381). -/
def Dev.switchRows (d : Dev) (n num : Nat) : Dev :=
  d.takeMaps n num ((d.rowsOf n num).map fun py => (py, d.otherMap py))

/-- The rows of a region that run their replay maps return to their home maps (R380). -/
def Dev.homeRows (d : Dev) (n num : Nat) : Dev :=
  match ((d.rowsOf n num).filter d.onReplayMap).map fun py => (py, homeMap (d.fenced py)) with
  | [] => d
  | maps => d.takeMaps n num maps

/-- Contexts of the lowest class that holds cells leave at a gate, to free a stand-in (R382). -/
def Dev.freeLowest (d : Dev) (n : Nat) : Dev :=
  let l := d.ctxs.filter fun p => p.1 != n && (p.2.state = .running || p.2.state = .blocked || p.2.state = .resident) && !p.2.entering
  let low := (l.map fun p => p.2.cls).foldl min 7
  (l.filter fun p => p.2.cls = low).foldl (fun d p => d.askGate p.1 false) d

/-- Starts a tandem replay of the step after a region's last commit (R381, R382, R385). `originals` are the reports that were not clean, `phys` the physical cores that they name. -/
def Dev.startReplay (d : Dev) (n num step starts : Nat) (originals : List (CoreId × GateRep)) (phys : NMap (Nat × Nat)) : Dev :=
  match (d.ctx n).image.regions.find? fun r => r.region = num with
  | none => d
  | some r =>
    let same (py : Nat) : Bool := replayMap (d.fenced py) = homeMap (d.fenced py)
    let standin := originals.any fun p => same (d.physRow (p.1.y / 2))
    let p : Replay := ⟨step, starts, originals.map fun q => (ckey q.1, q.2), none, standin, phys⟩
    if !standin then
      let d := d.updRt n num fun t => { t with replay := some p }
      ((d.switchRows n num).bump 0x6000 8 1).begin_ n num
    else if (d.standinPlaces r).isEmpty then d.giveUp n num p
    else
      let d := (d.updRt n num fun t => { t with replay := some p }).tryStandin n num
      if ((((d.ctx n).rt? num).bind (·.replay)).any fun p => p.waiting && p.standin.isNone) then d.freeLowest n else d

/-! ### A gate that is not clean (R380, R385, R387) -/

/-- A hard fault: the physical cell is fenced, the region rolls back and runs again on the new home map, or its replay starts again (R380, R385). -/
def Dev.hardFaultGate (d : Dev) (n num : Nat) (bad : List (Nat × Nat)) : Dev :=
  let old := ((d.ctx n).rt? num).bind (·.replay)
  let d := d.rollback n num
  let d := d.updRt n num fun t => { t with parked := true, parkedAt := d.time }
  let d := if old.isNone then d.homeRows n num else d
  let d := bad.foldl (fun d p => d.fenceCell (p.1 / 2) (p.2 / 2) false) d
  match old with
  | none => (d.bump 0x6000 0xD 1).parkOrBegin n num
  | some p =>
    if d.objD 0x6000 2 3 ≤ p.starts then d.giveUp n num p
    else
      let d := (d.updRt n num fun t => { t with replay := some { p with starts := p.starts + 1 } }).bump 0x6000 8 1
      if p.standin.isSome then (d.bump 0x6000 9 1).begin_ n num else d.parkOrBegin n num

/-- A gate that settles not clean outside a replay acts on its most severe report (R380); a region without a commit to return to fails its context, and the cell of a hard fault is fenced all the same (R379). -/
def Dev.settleBad (d : Dev) (n num step : Nat) (reps : List (CoreId × GateRep)) : Dev :=
  let hard := reps.filter fun p => p.2.hardFault
  let refused := reps.find? fun p => p.2.programError
  let bad := reps.filter fun p => !p.2.clean
  let code : Code := ((bad.head?).map fun p => p.2.code).getD 0
  let x := d.ctx n
  if !(x.rt? num).any (·.shadowed) then
    let phys := hard.map fun p => d.physCore p.1
    let d := (d.updRt n num fun t => { t with parked := true }).bump 0x6000 0x10 1
    (phys.foldl (fun d p => d.fenceCell (p.1 / 2) (p.2 / 2) false) d).fail n code
  else if !hard.isEmpty then d.hardFaultGate n num (hard.map fun p => d.physCore p.1)
  else
    match refused with
    | some p => d.fail n p.2.code
    | none =>
      let named := bad.flatMap fun p => p.1 :: (p.2.suspects.filter fun r => r.kind = 2).map fun r => drives p.1 r.place
      let phys := named.foldl (fun l c => nmSet l (ckey c) (d.physCore c)) []
      (d.rollback n num).startReplay n num step 1 bad phys

/-- Decisions of a replayed step (R383 to R385). -/
def replayDecisions (p : Replay) (reps : List (CoreId × GateRep)) (phys : CoreId → Nat × Nat) :
    List Decision :=
  p.originals.flatMap fun o =>
    let c := coreOfKey o.1
    match reps.find? fun r => r.1 = c with
    | none => []
    | some now => coreDecisions c o.2 now.2 phys

/-- A gate settles in a replay: the records are decided, and the most severe outcome acts (R385, R605). -/
def Dev.settleReplay (d : Dev) (n num : Nat) (p : Replay) (reps : List (CoreId × GateRep)) (clean : Bool) : Dev :=
  let hard := reps.filter fun r => r.2.hardFault
  if !hard.isEmpty then d.hardFaultGate n num (hard.map fun r => d.physCore r.1)
  else
    let phys (c : CoreId) : Nat × Nat := (nmGet p.phys (ckey c)).getD (d.physCore c)
    let original (c : CoreId) : Option GateRep := (p.originals.find? fun o => o.1 = ckey c).map Prod.snd
    let refused := reps.filter fun r => r.2.programError
    let early (r : CoreId × GateRep) : Bool := (original r.1).any fun o => o.stopped && decide (o.issue ≤ r.2.issue)
    let judged := timerDecisions (replayDecisions p reps phys)
    let ds := judged.1 ++ (reps.flatMap fun r => newDecisions r.1 (original r.1) r.2 (phys r.1))
      ++ (refused.filter fun r => !early r).map fun r => newDecision r.1 0 0 (phys r.1)
    let split := !clean && reps.all fun r => r.2.clean
    let worst := (ds.map fun e => e.outcome.rank).foldl max (if split then 4 else 0)
    let d := ds.foldl (fun d e => d.decided n p.step e) d
    let d := if judged.2 then d.bump 0x6000 0xF 1 else d
    let d := if split then d.undecided n p.step else d
    if worst = 4 then d.unresolved n num
    else
      match refused.head?, ds.find? fun e => e.outcome.rank = 3 with
      | some r, _ => (d.replayEnds n num).fail n r.2.code
      | none, some e => (d.replayEnds n num).fail n e.outcome.code
      | none, none => (d.replayEnds n num).settleClean n num

/-- The gate of a region settles (R369, R380): each of the two copies of the tree gives the AND of clean, which a failure of that copy inverts (`flipA`, `flipB`); copies that disagree count as not clean. A gate that is not clean waits until the epoch may change (R245, R381; log entry 117). -/
def Dev.gateSettle (d : Dev) (n num : Nat) (flipA flipB : Bool) : Dev :=
  match (d.ctx n).rt? num with
  | none => d
  | some r =>
    if !d.canSettle n r then d
    else
      let reps := d.gateReports n r
      let all := reps.all fun p => p.2.clean
      let agree : Bool := xor all flipA == xor all flipB
      let clean := xor all flipA && xor all flipB
      if !clean && decide (d.epochDrain ≠ 0) then d
      else
      let d := if agree then d else d.bump 0x6000 0xE 1
      match r.replay with
      | some p => if p.waiting then d else d.settleReplay n num p reps clean
      | none => if clean then d.settleClean n num else d.settleBad n num r.gateStep reps

/-- The meaning of GATE_SETTLE. -/
def execGateSettle (ctx region : Nat) (flipA flipB : Bool) (s : State) :
    Host.Outcome State Fault Refusal :=
  s.onDev fun d => d.gateSettle ctx region flipA flipB

/-! ### Commit and the gate timer (R367, R370, R371) -/

/-- A step's read-back is verified and the step commits, or a block that failed makes it suspect (R367, R371). -/
def Dev.stepCommit (d : Dev) (n num : Nat) (bad : Option CoreId) : Dev :=
  match (d.ctx n).rt? num with
  | none => d
  | some r =>
    match r.settled with
    | [] => d
    | step :: _ =>
      match bad with
      | none => d.commitStep n num step r.settled.length
      | some c =>
        if d.epochDrain ≠ 0 then d else
        let rep : GateRep := ⟨step, false, 0, 0, 0, false, false, cBlockCheckFail, none, [⟨cBlockCheckFail, 0, 2 ^ 20, 0⟩], [], false, false⟩
        let d := d.eventCore c cBlockCheckFail 8 3 0 0
        d.settleBad n num step [(c, rep)]

/-- The meaning of STEP_COMMIT; `bad` names the core that wrote a held block whose read-back failed. -/
def execStepCommit (ctx region : Nat) (bad : Option CoreId) (s : State) : Host.Outcome State Fault Refusal :=
  s.onDev fun d => d.stepCommit ctx region bad

/-- A core that the gate timer stops; its detail words are the expected count and 0xFFFFFFFF (R370, R597). -/
def Dev.timerStop (d : Dev) (c : CoreId) : Dev :=
  let s := (d.arch c).stat
  let want := (d.core c).cadenceEntry
  let d := d.updArch c fun a =>
    { a with
      stat := { a.stat with
        run := .stopped, clean := false, programError := false, hardFault := false, exc := ⟨cCadenceDeviation, 0, 0, 0⟩
        excWhere := s.lastPc + 4096 * s.gear, excDetail0 := want, excDetail1 := 0xFFFFFFFF, stall := none
        suspects := ⟨cCadenceDeviation, 3, want, 0xFFFFFFFF⟩ :: a.stat.suspects }
      units := a.units.map CmdUnit.cut }
  let d := d.updArch c Arch.recount
  (d.updCore c Core.reportStop).eventCore c cCadenceDeviation 7 3 want 0xFFFFFFFF

/-- The meaning of GATE_TIMER_EXPIRY (R370): it stops every core of the region that has not reported, but not while the context is BLOCKED or the region parked. -/
def execGateTimerExpiry (ctx region : Nat) (s : State) : Host.Outcome State Fault Refusal :=
  s.onDev fun d =>
    match (d.ctx ctx).rt? region with
    | none => d
    | some r =>
      if !r.timer || r.parked || (d.ctx ctx).state = .blocked then d
      else (d.gateCores ctx region).foldl (fun d c =>
        if ((d.core c).reportOf r.gateStep).isNone then d.timerStop c else d) d

/-! ### Scan-out (R301, R354, R387) -/

/-- A stopped core ends a mid-step scan (R354, R380, R387): a hard fault fences its cell and the region is scanned at its last commit, to run again from there; a refusal fails the context; any other report rolls the region back in place. -/
def Dev.scanAbandon (d : Dev) (n num : Nat) (stopped : List CoreId) : Dev :=
  let bad := (stopped.filter fun c => (d.arch c).stat.hardFault).map d.physCore
  let refused := stopped.find? fun c => (d.arch c).stat.programError
  let code : Code := ((stopped.head?).map fun c => (d.arch c).stat.exc.code).getD 0
  let fence (d : Dev) : Dev := bad.foldl (fun d p => d.fenceCell (p.1 / 2) (p.2 / 2) false) d
  let parks (d : Dev) : Dev := (d.rollback n num).updRt n num fun r => { r with parked := true, parkedAt := d.time }
  if !((d.ctx n).rt? num).any (·.shadowed) then
    (fence (d.updRt n num fun r => { r with parked := true })).bump 0x6000 0x10 1 |>.fail n code
  else if !bad.isEmpty then (fence (parks d)).bump 0x6000 0xD 1
  else
    match refused with
    | some c => d.fail n (d.arch c).stat.exc.code
    | none => parks d

/-- A region's records have been written to the save area (R301). -/
def Dev.scanOut (d : Dev) (n num : Nat) : Dev :=
  match (d.ctx n).rt? num with
  | none => d
  | some r =>
    let cores := (d.ctx n).coresIn num
    let stopped := cores.filter fun c => (d.arch c).stat.run = .stopped
    if (d.ctx n).midStep && !r.parked && !stopped.isEmpty then d.scanAbandon n num stopped
    else if !d.scanReady n r then d
    else
      let d := d.dropGearLoad n
      let d := cores.foldl (fun d c => d.scanCore n c) d
      let mid := (d.ctx n).midStep && !r.parked
      let d := d.updRt n num fun t => { t with scanned := true, shadowed := !mid }
      if (d.ctx n).regions.all fun t => t.scanned then d.preempted n else d

/-- The meaning of SCAN_OUT_COMPLETE. -/
def execScanOutComplete (ctx region : Nat) (s : State) : Host.Outcome State Fault Refusal :=
  s.onDev fun d => d.scanOut ctx region

/-! ### Near-store rows (R195, R196) -/

/-- Spare rows left on a die of a slice: 123 less those mapped out (R191, R195). -/
def Keep.spareLeft (k : Keep) (px py die : Nat) : Nat :=
  123 - (k.nearRows.filter fun r => r.1 = py * 64 + px && r.2 / 8192 = die).length

/-- Maps out a row of a core's slice: one record, one event; without a spare row the cell is fenced (R195, R196). -/
def Dev.mapRow (d : Dev) (px py die row : Nat) (logical : Option CoreId) : Dev :=
  if d.keep.spareLeft px py die = 0 then d.fenceCell (px / 2) (py / 2) false
  else
    let l := match logical with
      | some c => c.x + 256 * c.y
      | none => 0xFFFF
    let d := { d with keep := { d.keep with nearRows := (py * 64 + px, die * 8192 + row) :: d.keep.nearRows } }
    let d := d.defect 5 cNearRowMapped (pack [(0, px), (8, py), (16, die), (18, row)]) l 0
    (d.raised cNearRowMapped).record cNearRowMapped 11 0 (((logical.bind fun c => (d.core c).ctx)).getD 0xFFFF) l (px + 256 * py) false 0 0

/-- The meaning of NEAR_ROW_MAPPED: the oldest row of a core's slice that is to be mapped out has been copied to a spare row of its die; `lost` are further 16-byte quarters that read uncorrectable in the copy, and the requester that was held, if any, has waited `wait` cycles (R195, R196). -/
def execNearRowMapped (c : CoreId) (lost : List Nat) (loser wait : Nat) (s : State) : Host.Outcome State Fault Refusal :=
  s.onDev fun d =>
    match (d.slice (d.physKey c)).due with
    | [] => d
    | row :: rest =>
      let p := d.physCore c
      let d := d.updSlice (d.physKey c) fun x => { x with due := rest, rowErrs := x.rowErrs.filter fun e => e.1 != row }
      let mine := lost.filter fun q => nearRow (16 * q) = row
      let d := d.updCore c fun k => { k with mem := { k.mem with badNear := k.mem.badNear ++ mine.filter fun q => !k.mem.badNear.contains q } }
      (d.mapRow p.1 p.2 (row / 8192) (row % 8192) (some c)).lateFor c loser wait

end Sys2Proof.Machine
end

