-- ==== Sys2Proof/Machine/Heal.lean ====
section
/-! DEFINITION. Self-test, fencing, moves of contents, the scrubber, memory tests, recovery, alerts and time capture (R389 to R419). -/

namespace Sys2Proof.Machine

/-! ### Which cell is tested next (R389, R391, R392, R395) -/

/-- Physical cell of a cell number, pcy * 32 + pcx. -/
def cellAt (n : Nat) : Nat × Nat := (n % 32, n / 32)

/-- Whether the groomer skips a cell: fenced, or in the retired row (R389). -/
def Dev.skipped (d : Dev) (n : Nat) : Bool := d.isFenced (n % 32) (n / 32) || d.keep.retired = some (n / 32)

/-- Whether some absent context's contents lie in a logical cell (R199). -/
def Dev.contentsAt (d : Dev) (cell : Nat × Nat) : Bool := d.ctxs.any fun p => p.2.contentsInPlace && p.2.cells.contains cell

/-- How a cell is placed for its test (R391): 1 excluded, 2 idle, 3 otherwise. -/
def Dev.testCase (d : Dev) (n : Nat) : Nat :=
  match d.logicalCell (n % 32) (n / 32) with
  | none => 1
  | some c => if d.cellHeld 0xFFFF c || d.contentsAt c then 3 else 2

/-- Near-store contents of the busiest moving cell of a map change, bytes (R407). -/
def Dev.busiest (d : Dev) (rows : List (Nat × Nat)) : Nat :=
  let ofCell (p : Nat × Ctx) (c : Nat × Nat) : Nat := ((cellCores c).map fun k => p.2.image.nearBytes k).sum
  (rows.flatMap fun r => d.ctxs.flatMap fun p =>
    (p.2.cells.filter fun c => d.physRow c.2 = r.1 && mapColumn (vGet d.rowMap r.1 0) c.1 != mapColumn r.2 c.1).map (ofCell p)).foldl max 0

/-- Length of a move at R407's figures, ns. -/
def Dev.moveNs (d : Dev) (rows : List (Nat × Nat)) : Nat := max 82000 (8600 * d.busiest rows / 2 ^ 20) + 5000

/-- Groomer pause of a region within the window (R395). -/
def Dev.paused (d : Dev) (q : Nat × Nat) : Nat :=
  let window := d.objD 0x6100 4 60 * 1000000000
  ((d.groom.pauses.filter fun p => (p.1, p.2.1) = q && decide (d.time ≤ p.2.2.1 + window)).map fun p => p.2.2.2).sum

/-- Whether a move would exceed a region's pause budget; `moves` is how many moves are counted (R395). -/
def Dev.overBudget (d : Dev) (m : Move) (moves : Nat) : Bool :=
  let window := d.objD 0x6100 4 60 * 1000000000
  (d.moveRegions m).any fun q => decide (d.objD 0x6100 3 5000 * window < (d.paused q + moves * d.moveNs m.rows) * 1000000)

/-- Whether the groomer defers a cell (R392, R395, R412, R571). `dues` is the number of successive sweeps that deferred it. -/
def Dev.defers (d : Dev) (n dues : Nat) : Bool :=
  let py := n / 32
  d.pow.cap != 0 || d.pow.warned || d.testCase n = 3 && ((colsOf (d.fenced py)).length = 2 || d.onReplayMap py
    || (d.moves.any fun m => m.rows.any fun p => p.1 = py)
    || (decide (dues < 2) && d.overBudget ⟨1, [(py, groomMap (d.fenced py) (n % 32))], false⟩ 2))

/-- Successive sweeps that deferred a cell. -/
def Groom.dues (g : Groom) (n : Nat) : Nat := (g.deferredLast.filter (· = n)).length

/-- The end of a sweep (R389, R392): the deferred cells are remembered, rows on their replay maps are due to return. -/
def Dev.sweepEnds (d : Dev) : Dev :=
  let g := d.groom
  let last := g.deferred.flatMap fun c => List.replicate (g.dues c + 1) c
  let back := (List.range 32).filter fun py => d.onReplayMap py
  let d := { d with groom := { g with
    next := 0, deferred := [], deferredLast := last, sweepStart := d.time, returns := back } }
  (d.bump 0x6100 8 1).setObj 0x6100 9 ((d.time - g.sweepStart) / 1000000000)

/-- The next cell of the sweep that is not deferred; deferred cells are counted, and the sweep ends after its last cell (R389, R394). -/
def Dev.sweepPick : Nat → Dev → Dev × Option Nat
  | 0, d => (d, none)
  | fuel + 1, d =>
    let n := d.groom.next
    if 1024 ≤ n then (d.sweepEnds, none)
    else
      let d := { d with groom := { d.groom with next := n + 1 } }
      if d.skipped n || d.groom.targets.any (fun t => t.1 = n) then Dev.sweepPick fuel d
      else if d.defers n (d.groom.dues n) then
        Dev.sweepPick fuel ({ d with groom := { d.groom with deferred := d.groom.deferred ++ [n] } }.bump 0x6100 0xD 1)
      else (d, some n)

/-- The next cell to test: the first target that is not deferred, else the sweep's (R389). -/
def Dev.pickCell (d : Dev) : Dev × Option (Nat × Bool) :=
  let live := d.groom.targets.filter fun t => !d.skipped t.1
  let d := { d with groom := { d.groom with targets := live } }
  match live.find? fun t => !d.defers t.1 0 with
  | some t => ({ d.bump 0x6100 0xD (live.takeWhile fun u => u != t).length with
      groom := { d.groom with targets := live.erase t } }, some (t.1, t.2 = 1))
  | none =>
    match Dev.sweepPick 1025 (d.bump 0x6100 0xD live.length) with
    | (d, some n) => (d, some (n, false))
    | (d, none) => (d, none)

/-! ### Starting a test (R391, R392, R394, R415) -/

/-- A map change for the groomer: its regions are asked to park (R405). -/
def Dev.groomMove (d : Dev) (purpose py new : Nat) : Dev :=
  let d := d.addMove purpose py new
  (d.moveRegions ⟨purpose, [(py, new)], false⟩).foldl (fun d q => d.parkOrBegin q.1 q.2) d

/-- The next due return of a row to its home map (R392). -/
def Dev.returnRow (d : Dev) (py : Nat) : Dev :=
  let d := { d with groom := { d.groom with returns := d.groom.returns.erase py } }
  let new := homeMap (d.fenced py)
  let m : Move := ⟨2, [(py, new)], false⟩
  if vGet d.rowMap py 0 = new ∨ d.keep.retired = some py ∨ d.overBudget m 1 then d
  else if (d.moveRegions m).isEmpty && d.busiest m.rows = 0 && d.epochDrain = 0 then d.setRows [(py, new)] fun _ => false
  else d.groomMove 2 py new

/-- Starts the test of a cell (R391). -/
def Dev.startTest (d : Dev) (n : Nat) (demand : Bool) : Dev :=
  let k := d.testCase n
  let d := if demand then { d with groomCell := { d.groomCell with state := 2 } } else d
  let d := { d with groom := { d.groom with test := some ⟨n, k, if k = 3 then 0 else 1, demand⟩ } }
  match k with
  | 1 => d.testPower n true
  | 2 =>
    match d.logicalCell (n % 32) (n / 32) with
    | some c => { d with holds := d.holds ++ [c] }.testPower n true
    | none => d
  | _ => d.groomMove 1 (n / 32) (groomMap (d.fenced (n / 32)) (n % 32))

/-- Whether a fence or a replay is in progress on any row: the interval stops (R415). -/
def Dev.healBusy (d : Dev) : Bool :=
  (d.moves.any fun m => m.purpose = 0) || d.ctxs.any fun p => p.2.regions.any fun r => r.replay.isSome

/-- The meaning of GROOM_TEST_START (R394): the interval has passed. A sweep that has ended gives its interval to a row's return or to the next sweep's first cell (R389, R392). -/
def execGroomTestStart (s : State) : Host.Outcome State Fault Refusal :=
  s.onDev fun d =>
    if d.objD 0x6100 1 1 = 0 ∨ d.groom.test.isSome ∨ d.healBusy ∨ !d.moves.isEmpty then d
    else
      match d.groom.returns with
      | py :: _ => d.returnRow py
      | [] =>
        match d.pickCell with
        | (d, some (n, demand)) => d.startTest n demand
        | (d, none) => match d.groom.returns, Dev.sweepPick 1025 d with
          | py :: _, _ => d.returnRow py
          | [], (d, some n) => d.startTest n false
          | [], (d, none) => d

/-! ### The end of a test (R390, R393, R396, R399, R400) -/

/-- A test gives back its cell (R391): nothing, the hold, or the return move. -/
def Dev.testReturns (d : Dev) (t : GroomTest) : Dev :=
  match t.case_ with
  | 1 => { d with groom := { d.groom with test := none } }
  | 2 =>
    let held := d.groomCell?
    { d with
      groom := { d.groom with test := none }
      holds := match held with
        | some c => d.holds.erase c
        | none => d.holds }.cellsFreed
  | _ =>
    let d := { d with groom := { d.groom with test := some { t with stage := 2 } } }
    d.groomMove 2 (t.cell / 32) (homeMap (d.fenced (t.cell / 32)))

/-- The groomer's own test fences its cell (R393, R403). -/
def Dev.testFences (d : Dev) (t : GroomTest) : Dev :=
  let held := if t.case_ = 2 then d.groomCell? else none
  let d := { d with
    groom := { d.groom with test := none }
    holds := match held with
      | some c => d.holds.erase c
      | none => d.holds }
  d.fenceCell (t.cell % 32) (t.cell / 32) true

/-- Checker watches of a cell whose targeted test has passed (R400). -/
def Dev.blamed (d : Dev) (n : Nat) (passed : Bool) : Dev :=
  let l := d.groom.blame.filter fun b => b.1 = n
  let d := { d with groom := { d.groom with blame := d.groom.blame.filter fun b => b.1 != n } }
  if passed then l.foldl (fun d b => d.watchChecker (b.2.1 % 256) (b.2.1 / 256) b.2.2.1 b.2.2.2) d else d

/-- A core of a physical cell, px and py. -/
def cellCore (n k : Nat) : Nat × Nat := (n % 32 * 2 + k % 2, n / 32 * 2 + k / 2)

/-- Rows that failed the near-store phases are mapped out; a slice without a spare row fails the cell (R390, R196). -/
def Dev.testRows (d : Dev) (n : Nat) (rows : List (Nat × Nat × Nat)) : Dev :=
  rows.foldl (fun d r =>
    let c := cellCore n r.1
    if d.keep.spareLeft c.1 c.2 r.2.1 = 0 then d else d.mapRow c.1 c.2 r.2.1 r.2.2 none) d

/-- Whether a test's rows leave a slice without a spare row (R196). -/
def Dev.rowsShort (d : Dev) (n : Nat) (rows : List (Nat × Nat × Nat)) : Bool :=
  rows.any fun r => let c := cellCore n r.1
    decide (d.keep.spareLeft c.1 c.2 r.2.1 < (rows.filter fun q => q.1 = r.1 && q.2.1 = r.2.1).length)

/-- The record and the end of a cell test on demand (R399). -/
def Dev.demandEnds (d : Dev) (t : GroomTest) (fenced : Bool) (margin : List (Nat × Nat)) : Dev :=
  if !t.demand then d
  else
    let d := { d with groomCell := d.groomCell.ends cOk }
    if fenced then d.result cCoreFenced (1 + 2 ^ 32 * (t.cell % 32 + 256 * (t.cell / 32)))
    else margin.foldl (fun d p =>
      let c := cellCore t.cell p.1
      d.result cOk (4 + 2 ^ 32 * (c.1 + 256 * c.2))) d

/-- A test ends: the slices and banks that it used are idle again (R28, R390). -/
def Dev.testEnds (d : Dev) (e : TestEnd) (rows : List (Nat × Nat × Nat)) : Dev :=
  match d.groom.test with
  | none => d
  | some t =>
    if t.stage ≠ 1 then d
    else
      let short := d.rowsShort t.cell rows
      let d := ((d.testPower t.cell false).bump 0x6100 0xA 1).testRows t.cell rows
      let margin := match e with
        | .margin l => if d.objD 0x6100 5 6 = 0 then [] else l
        | _ => []
      if e = .fail ∨ short then
        let d := (d.bump 0x6100 0xB (if e = .fail then 1 else 0)).blamed t.cell false
        (d.testFences t).demandEnds t true []
      else
        let d := (d.bump 0x6100 0xC (if margin.isEmpty then 0 else 1)).blamed t.cell true
        let d := margin.foldl (fun d p => let c := cellCore t.cell p.1
          d.watchMargin c.1 c.2 p.2) d
        let fenced := d.isFenced (t.cell % 32) (t.cell / 32)
        let d := if fenced then
            let held := if t.case_ = 2 then d.groomCell? else none
            { d with groom := { d.groom with test := none }, holds := match held with
              | some c => d.holds.erase c
              | none => d.holds }
          else d.testReturns t
        d.demandEnds t fenced margin

/-- The meaning of GROOM_TEST_COMPLETE: the result, and the rows that failed the near-store phases (core, die, row). -/
def execGroomTestComplete (e : TestEnd) (rows : List (Nat × Nat × Nat)) (s : State) : Host.Outcome State Fault Refusal :=
  s.onDev fun d => d.testEnds e rows

/-- The meaning of WATCH_EXPIRY (R401). -/
def execWatchExpiry (s : State) : Host.Outcome State Fault Refusal := s.onDev fun d => d.closeOld

/-! ### Moves (R27, R404 to R407) -/

/-- Whether every region that a move affects has parked (R405). -/
def Dev.moveReady (d : Dev) (m : Move) : Bool :=
  !m.copying && (d.moveRegions m).all fun q => ((d.ctx q.1).rt? q.2).any fun r => r.parked

/-- A block holds a pattern with which its check word disagrees (R406). -/
def LocalMem.lose (m : LocalMem) (near : Bool) (blk : Nat) (pattern : List Byte) (diff : Nat) : LocalMem :=
  let m := (m.write near (blk * 4096) pattern).getD m
  if near then { m with chkNear := nmSet m.chkNear blk diff } else { m with chkHome := nmSet m.chkHome blk diff }

/-- A block of local memory that fails is left with a pattern whose check fails; the specification states neither the pattern nor its check (R398, R406; log entry 118). -/
def Dev.loseBlock (d : Dev) (c : CoreId) (near : Bool) (blk : Nat) : Dev :=
  let (d, pattern) := d.drawFree 4096
  { d with free := d.free + 1 }.updCore c fun k => { k with mem := k.mem.lose near blk pattern (1 + Config.freeNat d.free % (2 ^ 64 - 1)) }

/-- The copies of the oldest move that is ready begin, once no packet of the other epoch bit is in flight (R245): near-homed pages on the moving cells are demoted first (R320, R405). -/
def Dev.contentsMove (d : Dev) (lostBlocks : List (CoreId × Bool × Nat)) (lostShadows : List Nat) : Dev :=
  match if d.epochDrain = 0 then d.moves.find? fun m => d.moveReady m else none with
  | none => d
  | some m =>
    let moving (c : CoreId) : Bool := m.rows.any fun p => d.physRow (c.y / 2) = p.1
      && mapColumn (vGet d.rowMap p.1 0) (c.x / 2) != mapColumn p.2 (c.x / 2)
    let owners := (d.ctxs.filter fun p => p.2.allCores.any moving).map Prod.fst
    let d := owners.foldl (fun d n => d.demote n moving) d
    let d := lostBlocks.foldl (fun d b =>
      if moving b.1 then d.loseBlock b.1 b.2.1 b.2.2 else d) d
    let d := { d with moves := d.moves.map fun k => if k = m then { k with copying := true } else k }
    lostShadows.foldl (fun d n => if owners.contains n then d.fail n cBlockCheckFail else d) d

/-- The meaning of CONTENTS_MOVE: `lostBlocks` are the blocks that fail as they leave (core, near store or home bank, block), `lostShadows` the contexts whose shadow record fails (R406). -/
def execContentsMove (lostBlocks : List (CoreId × Bool × Nat)) (lostShadows : List Nat) (s : State) :
    Host.Outcome State Fault Refusal :=
  s.onDev fun d => d.contentsMove lostBlocks lostShadows

/-- Counts a region's groomer pause (R395). -/
def Dev.addPause (d : Dev) (q : Nat × Nat) : Dev :=
  match (d.ctx q.1).rt? q.2 with
  | none => d
  | some r =>
    let ns := d.time - r.parkedAt
    { (d.bump 0x6100 0xF (ns / 1000)) with groom := { d.groom with pauses := d.groom.pauses ++ [(q.1, q.2, d.time, ns)] } }

/-- A move's copies have ended: the epoch changes, which R245 permits once no packet of the other bit is in flight, the regions resume, the groomer goes on (R405, R407). -/
def Dev.moveComplete (d : Dev) : Dev :=
  match if d.epochDrain = 0 then d.moves.find? fun m => m.copying else none with
  | none => d
  | some m =>
    let regions := d.moveRegions m
    let d := { d with moves := d.moves.erase m }.setRows m.rows fun _ => false
    let d := if m.purpose = 0 then d else regions.foldl Dev.addPause d
    let d := match d.groom.test with
      | some t =>
        if m.purpose = 1 && t.stage = 0 then { d with groom := { d.groom with test := some { t with stage := 1 } } }.testPower t.cell true
        else if m.purpose = 2 && t.stage = 2 then { d with groom := { d.groom with test := none } }
        else d
      | none => d
    (regions.foldl (fun d q => d.parkOrBegin q.1 q.2) d).cellsFreed

/-- The meaning of MOVE_COMPLETE. -/
def execMoveComplete (s : State) : Host.Outcome State Fault Refusal := s.onDev fun d => d.moveComplete

/-- A region has not parked in time (R405): the groomer gives up its move, a fence pre-empts the region's context in mid-step. -/
def Dev.parkTimeout (d : Dev) (n num : Nat) : Dev :=
  if ((d.ctx n).rt? num).all (·.parked) then d
  else
    match d.moves.find? fun m => !m.copying && (d.moveRegions m).contains (n, num) with
    | none => d
    | some m =>
      if m.purpose = 0 then if (d.ctx n).midStep then d else d.midStop n
      else
        let regions := d.moveRegions m
        let d := { d with moves := d.moves.erase m }
        let d := match d.groom.test with
          | some t =>
            if m.purpose = 1 then
              { (d.bump 0x6100 0xD 1) with groom := { d.groom with
                test := none, deferred := if t.demand then d.groom.deferred else d.groom.deferred ++ [t.cell]
                targets := if t.demand then (t.cell, 1) :: d.groom.targets else d.groom.targets } }
            else { d with groom := { d.groom with test := none, returns := d.groom.returns ++ m.rows.map Prod.fst } }
          | none => { d with groom := { d.groom with returns := d.groom.returns ++ m.rows.map Prod.fst } }
        regions.foldl (fun d q => d.parkOrBegin q.1 q.2) d

/-- The meaning of PARK_WAIT_TIMEOUT. -/
def execParkWaitTimeout (ctx region : Nat) (s : State) : Host.Outcome State Fault Refusal :=
  s.onDev fun d => d.parkTimeout ctx region

/-! ### fence.cmd (R419) -/

/-- A write of fence.cmd: refused for a fenced or retired cell; it waits for a clean gate of every resident region on the row. -/
def Dev.fenceCmd (d : Dev) (px py : Nat) : Dev :=
  if 32 ≤ px ∨ 32 ≤ py ∨ d.isFenced px py ∨ d.keep.retired = some py then d.reply cBadArgument
  else
    let rs := (d.regionsOnRow py).filter fun q => (d.ctx q.1).state.holds && !(d.ctx q.1).entering
    if rs.isEmpty then d.fenceCell px py false
    else { d with fenceWaits := d.fenceWaits ++ [⟨px, py, rs⟩] }

/-- The meaning of FENCE_CMD: the value written to fence.cmd. -/
def execFenceCmd (value : Nat) (s : State) : Host.Outcome State Fault Refusal :=
  s.onDev fun d => d.fenceCmd (bits value 7 0) (bits value 15 8)

/-! ### The patrol scrub and memory tests (R398, R399) -/

/-- Retires a free frame (R398, R399). -/
def Dev.retireFree (d : Dev) (frame : Nat) : Dev :=
  { d with keep := { d.keep with frames := frame :: d.keep.frames } }.defect 6 cBlockCheckFail frame 0xFFFF 0

/-- The scrubber reads a block (R398). `near` names a core, die and row of the near store; otherwise `blk` is a tier-2 block. -/
def Dev.scrub (d : Dev) (near : Option (CoreId × Nat × Nat)) (blk : Nat) (e : ScrubEnd) : Dev :=
  let d := d.bump 0x6101 2 1
  match e with
  | .good => d
  | .transient => (d.bump 0x6101 3 1).bump 0x3100 4 (if near.isNone then 1 else 0)
  | .lost =>
    let d := d.bump 0x6101 4 1
    match near with
    | some (c, die, row) =>
      let p := d.physCore c
      (d.loseBlock c true blk).mapRow p.1 p.2 die row (some c)
    | none =>
      let f := blk / 16
      let d := d.bump 0x3100 5 1
      if d.keep.frames.contains f then d
      else if d.t2.used.contains f then d.retireFrame f blk
      else d.retireFree f

/-- The meaning of SCRUB_READ. -/
def execScrubRead (near : Option (CoreId × Nat × Nat)) (blk : Nat) (e : ScrubEnd) (s : State) :
    Host.Outcome State Fault Refusal :=
  s.onDev fun d => d.scrub near blk e

/-- Frames that a memory test takes off the free lists at a time: at most 1 GiB, beyond those that pager.reserved_64k counts (R399). -/
def Dev.testFrames (d : Dev) : Nat := min 16384 d.freeFrames

/-- Starts a memory test (R399). -/
def Dev.memtestStart (d : Dev) : Dev :=
  if d.memtest.busy then d.reply cBusy
  else { d with memtest := ⟨2, 0, cPending, d.testFrames, 0, 0, 0⟩, t2 := { d.t2 with pinned := d.t2.pinned + d.testFrames } }

/-- The meaning of MEMTEST_START. -/
def execMemtestStart (s : State) : Host.Outcome State Fault Refusal := s.onDev Dev.memtestStart

/-- The frames of a memory test return to the free lists. -/
def Dev.memtestOver (d : Dev) (o : LongOp) : Dev :=
  { d with memtest := o, t2 := { d.t2 with pinned := d.t2.pinned - d.memtest.a } }

/-- Cancels a memory test (R356). -/
def Dev.memtestCancel (d : Dev) : Dev := if d.memtest.busy then d.memtestOver d.memtest.cancelled else d.reply cStateInvalid

/-- The meaning of MEMTEST_CANCEL. -/
def execMemtestCancel (s : State) : Host.Outcome State Fault Refusal := s.onDev Dev.memtestCancel

/-- The meaning of MEMTEST_COMPLETE: every frame that failed is retired and gives one partial-result record (R399). -/
def execMemtestComplete (failed : List Nat) (s : State) : Host.Outcome State Fault Refusal :=
  s.onDev fun d =>
    if !d.memtest.busy then d
    else failed.foldl (fun d f => (d.retireFree f).result cBlockCheckFail f) (d.memtestOver (d.memtest.ends cOk))

/-- The named cell is the next targeted cell (R399). -/
def Dev.groomCellStart (d : Dev) (px py : Nat) : Dev :=
  match firstFail [(d.groomCell.busy, cBusy), (decide (32 ≤ px) || decide (32 ≤ py) || d.skipped (py * 32 + px), cBadArgument)] with
  | some c => d.reply c
  | none => { d with
      groomCell := ⟨1, 0, cPending, py * 32 + px, 0, 0, 0⟩
      groom := { d.groom with targets := (py * 32 + px, 1) :: d.groom.targets } }

/-- The meaning of GROOM_CELL_START. -/
def execGroomCellStart (px py : Nat) (s : State) : Host.Outcome State Fault Refusal := s.onDev fun d => d.groomCellStart px py

/-- Cancels a cell test on demand (R356): a test that has started ends as one of the sweep. -/
def Dev.groomCellCancel (d : Dev) : Dev :=
  if !d.groomCell.busy then d.reply cStateInvalid
  else { d with
    groomCell := d.groomCell.cancelled
    groom := { d.groom with
      targets := d.groom.targets.filter fun t => !(t.2 = 1 && t.1 = d.groomCell.a)
      test := d.groom.test.map fun t => { t with demand := false } } }

/-- The meaning of GROOM_CELL_CANCEL. -/
def execGroomCellCancel (s : State) : Host.Outcome State Fault Refusal := s.onDev Dev.groomCellCancel

/-! ### Recovery (R416, R417) -/

/-- A FAILED context is rewritten from a checkpoint and queued, or stays FAILED (R416). -/
def Dev.recoverCtx (d : Dev) (n : Nat) (localOk : Bool) (buddy : Option Ckpt) : Dev :=
  let found : Option Ckpt := match newest d.ckpts n with
    | some k => if localOk then some k else buddy
    | none => buddy
  let d := d.unreadable? found.toList
  match found.filter Ckpt.readable with
  | none => { ((d.raised cBlockCheckFail).updCtx n fun x => { x with lastCode := cBlockCheckFail }) with recover := (⟨2, 0, cPending, n, 0, 0, 0⟩ : LongOp).ends cBlockCheckFail }
  | some k =>
    let d := { (d.restore n k) with recover := (⟨2, 0, cPending, n, 0, 0, 0⟩ : LongOp).ends cOk }
    ((d.toState n .preempted).join n).schedule

/-- The meaning of RECOVER_CHECKPOINT: requested for the context of ctx.select, or by a write of recover.checkpoint that waits, or started by the device when recover.auto is 1. `localOk` says that the newest local checkpoint verifies, `buddy` is the buddy copy when it verifies. -/
def execRecoverCheckpoint (auto : Option Nat) (localOk : Bool) (buddy : Option Ckpt) (s : State) :
    Host.Outcome State Fault Refusal :=
  s.onDev fun d =>
    match auto with
    | some n => if d.objD 0x6105 4 1 = 1 && (d.ctx n).state = .failed then d.recoverCtx n localOk buddy else d
    | none =>
      let n := d.objD 0x5100 1 0
      if d.recover.state = 1 then d.recoverCtx d.recover.a localOk buddy
      else if (d.ctx n).state != .failed then d.reply cStateInvalid
      else if d.recover.busy then d.reply cBusy
      else d.recoverCtx n localOk buddy

/-- Re-initialises a context: its regions return to their last commits, held messages are delivered again, it resumes (R417). -/
def Dev.reinitCtx (d : Dev) (n : Nat) : Dev :=
  let x := d.ctx n
  let runs := (x.state = .running || x.state = .blocked || x.state = .resident) && !x.entering
  if !runs || x.regions.any (fun r => !r.shadowed || r.scanned) then d.reply cStateInvalid
  else
    let d := { (d.rollbackAll n) with reinit := (⟨2, 0, cPending, n, 0, 0, 0⟩ : LongOp).ends cOk }
    x.image.regions.foldl (fun d r => (d.replayEnds n r.region).parkOrBegin n r.region) d

/-- The meaning of REINIT_CONTEXT. -/
def execReinitContext (ctx : Nat) (s : State) : Host.Outcome State Fault Refusal := s.onDev fun d => d.reinitCtx ctx

/-- Every translation cache is flushed and pending faults are tried afresh (R417). -/
def Dev.reinitPager (d : Dev) : Dev :=
  { d with
    t2 := { d.t2 with tlb := [], fills := d.t2.fills.map fun f => (f.1, f.2.1, 0) }
    reinit := (⟨2, 0, cPending, 3 * 2 ^ 28, 0, 0, 0⟩ : LongOp).ends cOk }

/-- The meaning of REINIT_PAGER. -/
def execReinitPager (s : State) : Host.Outcome State Fault Refusal := s.onDev Dev.reinitPager

/-! ### Alerts and time capture (R414, R415) -/

/-- Whether an enabled cause is set (R414). -/
def Dev.alertDue (d : Dev) : Bool := (d.objD 0x6104 1 0).land (d.objD 0x6104 2 7) != 0

/-- ALERT_N after a change of its causes or its mask: asserted at once, deasserted not before its minimum of 10 µs (R414). -/
def Dev.alertUpdate (d : Dev) : Dev :=
  if d.alertDue then
    if d.alertN then d else { d with alertN := true, alertSince := d.time }.emit (.pin 0 true)
  else if d.alertN && decide (d.alertSince + 10000 ≤ d.time) then { d with alertN := false }.emit (.pin 0 false)
  else d

/-- An event sets a cause (R414): 0 thermal, 1 power cap, 2 membership. -/
def Dev.alert (d : Dev) (cause : Nat) : Dev := (d.setObj 0x6104 1 ((d.objD 0x6104 1 0).lor (2 ^ cause))).alertUpdate

/-- Ones written to alert.cause clear causes (R414). -/
def Dev.alertClear (d : Dev) (value : Nat) : Dev :=
  let c := d.objD 0x6104 1 0
  (d.setObj 0x6104 1 (c - c.land (value % 8))).alertUpdate

/-- The meaning of ALERT_CAUSE_WRITE. -/
def execAlertCauseWrite (value : Nat) (s : State) : Host.Outcome State Fault Refusal := s.onDev fun d => d.alertClear value

/-- The meaning of ALERT_MIN_WIDTH_EXPIRY. -/
def execAlertMinWidthExpiry (s : State) : Host.Outcome State Fault Refusal :=
  s.onDev fun d => if d.alertN && !d.alertDue then { d with alertN := false }.emit (.pin 0 false) else d

/-- The meaning of PPS_IN_EDGE: the edge is captured unless PTP holds the capture unit within the window (R415). -/
def execPpsInEdge (ptp : Bool) (s : State) : Host.Outcome State Fault Refusal :=
  s.onDev fun d => if ptp then d.bump 0x6104 3 1 else { d with ppsTime := d.time }

end Sys2Proof.Machine
end

