-- ==== Sys2Proof/Machine/Links.lean ====
section
/-! DEFINITION. Alaosh links: training, identity, frames, released traffic, markers, residency and relay (R420 to R445, R452 to R455, R518, R519). -/

namespace Sys2Proof.Machine

/-! ### Identity records (R432, R520) -/

/-- SHA3-512 of a value's little-endian bytes. -/
def shaNat (v n : Nat) : Nat := (Config.sha3 (natLe v n)).toNat

/-- The configuration digest (R520). -/
def Dev.cfgDigest (d : Dev) : Nat := (Config.sha3 (natLe (d.objD 0x6200 4 0) 8 ++ natLe (d.objD 0x1001 1 0) 256)).toNat

/-- The record that the device sends on a link (R432). -/
def Dev.identRec (d : Dev) (n : Nat) : IdentRec :=
  let l := d.link n
  let dim := d.objD (0x2B00 + n) 6 7
  { version := 0x0100, archMajor := 1, archMinor := 0, majors := 1, minor := 0, features := 0, serial := d.sec.fuses.serial
    fwDigest := d.sec.fwDigest % 2 ^ 256, cfgDigest := d.cfgDigest % 2 ^ 256, epoch := d.epoch, device := d.self
    coord := d.objD 0x2A01 2 0 % 2 ^ 48, link := n, dim := dim % 8, dir := dim / 8 % 2, tTx := d.time, tEcho := l.lastTx
    tHold := if l.known then d.time - l.lastRx else 0 }

/-- A record as the 1,024-bit number of link.N.partner (R432, R462). -/
def identWord (r : IdentRec) : Nat :=
  pack [(0, r.version), (16, r.archMajor), (24, r.archMinor), (32, r.majors), (40, r.minor), (64, r.features), (128, r.serial),
    (192, r.fwDigest), (448, r.cfgDigest), (704, r.epoch), (736, r.device), (752, r.coord), (800, r.link), (806, r.dim),
    (809, r.dir), (816, r.tTx), (880, r.tEcho), (944, r.tHold)]

/-- Sends an identity record (R432). -/
def Dev.sendIdent (d : Dev) (n : Nat) : Dev :=
  d.linkSend n ⟨{ d.frameHdr 5 2 0 with flits := 8 }, .ident (d.identRec n), 0⟩

/-! ### Link states (R423 to R427) -/

/-- Records an event of a link with its index and its peer (R597). -/
def Dev.linkEvent (d : Dev) (code n : Nat) : Dev :=
  d.eventDev code 12 0 (pack [(0, n), (16, (d.link n).partnerDev)]) 0

/-- The partner map changes (R427). -/
def Dev.partnerChange (d : Dev) : Dev := d.setObj 0x2A00 6 ((d.objD 0x2A00 6 0 + 1) % 2 ^ 32)

/-- A link enters a state for a reason (R423, R427). -/
def Dev.linkTo (d : Dev) (n st code : Nat) : Dev :=
  if d.linkState n = st then d else ((d.setObj (0x2B00 + n) 1 st).setObj (0x2B00 + n) 8 code).partnerChange

/-- A link goes DOWN (R423, R424, R429). -/
def Dev.linkDown (d : Dev) (n code : Nat) : Dev :=
  ((d.linkTo n 0 code).setObj (0x2B00 + n) 2 0).updLink n fun l => { l with known := false }

/-- A link goes to FENCED (R423, R431, R451). -/
def Dev.linkFenced (d : Dev) (n code : Nat) : Dev := d.linkTo n 5 code

/-- Whether a link is in IDENT or beyond. -/
def Dev.linkUp (d : Dev) (n : Nat) : Bool := decide (2 ≤ d.linkState n)

/-- The meaning of LINK_SIGNAL_DETECT (R420, R423). -/
def execLinkSignalDetect (n : Nat) (s : State) : Host.Outcome State Fault Refusal :=
  s.onDev fun d =>
    if d.linkAbsent n || d.linkState n != 0 || d.objD (0x2B00 + n) 4 1 = 0 then d else d.linkTo n 1 0

/-- The meaning of LINK_RETRY_TIMER (R423). -/
def execLinkRetryTimer (n : Nat) (s : State) : Host.Outcome State Fault Refusal :=
  s.onDev fun d =>
    if d.linkAbsent n || d.linkState n != 0 || d.objD (0x2B00 + n) 4 1 = 0 then d else d.linkTo n 1 0

/-- Widest width that trained lanes allow (R424). -/
def linkWidth (lanes : Nat) : Nat :=
  if lanes % 16 = 15 then 4 else if lanes % 4 = 3 || lanes / 4 % 4 = 3 then 2 else if lanes % 16 = 0 then 0 else 1

/-- A link enters IDENT: RS mode, full credits, a record sent, degraded below x4 (R421, R423 to R425, R432). -/
def Dev.linkTrained (d : Dev) (n lanes : Nat) : Dev :=
  let w := linkWidth lanes
  if d.linkState n != 1 || w = 0 then d
  else
    let d := ((d.linkTo n 2 0).setObj (0x2B00 + n) 2 w).setObj (0x2B00 + n) 3 1
    let d := d.updLink n fun l => { l with credits := clearLink.credits, known := false, epochWait := false }
    let d := if w = 4 then d else (d.setObj (0x2B00 + n) 8 cLinkDegraded).linkEvent cLinkDegraded n
    d.sendIdent n

/-- The meaning of LINK_TRAINED: the lanes that trained, as a bit mask. -/
def execLinkTrained (n lanes : Nat) (s : State) : Host.Outcome State Fault Refusal := s.onDev fun d => d.linkTrained n lanes

/-- The meaning of LINK_TRAIN_FAILED (R423, R426). -/
def execLinkTrainFailed (n : Nat) (s : State) : Host.Outcome State Fault Refusal :=
  s.onDev fun d => if d.linkState n = 1 then (d.linkDown n cLinkTrainFailed).linkEvent cLinkTrainFailed n else d

/-- The meaning of IDENT_TIMEOUT: no record within 10 ms of IDENT (R423). -/
def execIdentTimeout (n : Nat) (s : State) : Host.Outcome State Fault Refusal :=
  s.onDev fun d => if d.linkState n = 2 && !(d.link n).known then d.linkDown n 0 else d

/-- The meaning of LINK_FRAME_TIMEOUT: no valid frame for 50 µs (R424). -/
def execLinkFrameTimeout (n : Nat) (s : State) : Host.Outcome State Fault Refusal :=
  s.onDev fun d => if d.linkUp n then d.linkDown n 0 else d

/-- The meaning of FEC_EVALUATION: whether the counts of the last 60 s show a ratio no worse than 1e-12 on every trained lane (R422). -/
def execFecEvaluation (n : Nat) (clean : Bool) (s : State) : Host.Outcome State Fault Refusal :=
  s.onDev fun d =>
    if !d.linkUp n then d
    else if d.objD 0x2A00 1 1 = 0 then d.setObj (0x2B00 + n) 3 1
    else if clean then d.setObj (0x2B00 + n) 3 0 else d

/-- The commands of link.N.cmd on links that a BX350 lacks are refused (R39). -/
def Dev.linkCmd (d : Dev) (n : Nat) (from_ : List Nat) (f : Dev → Dev) : Dev :=
  if d.linkAbsent n || !from_.contains (d.linkState n) then d.reply cStateInvalid else f d

/-- Retrains a link (R425). -/
def Dev.linkRetrain (d : Dev) (n : Nat) : Dev := d.linkCmd n [0, 2, 3, 4] fun d => d.linkTo n 1 0

/-- The meaning of LINK_RETRAIN. -/
def execLinkRetrain (n : Nat) (s : State) : Host.Outcome State Fault Refusal := s.onDev fun d => d.linkRetrain n

/-- Fences a link (R423). -/
def Dev.linkFence (d : Dev) (n : Nat) : Dev := d.linkCmd n [3, 4] fun d => d.linkFenced n 0

/-- The meaning of LINK_FENCE. -/
def execLinkFence (n : Nat) (s : State) : Host.Outcome State Fault Refusal := s.onDev fun d => d.linkFence n

/-- Unfences a link: not while an order keeps the device itself out (R423, R451). -/
def Dev.linkUnfence (d : Dev) (n : Nat) : Dev := d.linkCmd n (if d.objD 0x6200 7 0 = 1 then [] else [5]) fun d => (d.linkTo n 2 0).sendIdent n

/-- The meaning of LINK_UNFENCE. -/
def execLinkUnfence (n : Nat) (s : State) : Host.Outcome State Fault Refusal := s.onDev fun d => d.linkUnfence n

/-! ### Receiving frames (R422, R428 to R431, R436) -/

/-- Drops the held frames up to an acknowledged sequence. -/
def ackHeld (held : List LinkFrame) (ack : Nat) : List LinkFrame :=
  if held.any fun f => f.hdr.seq = ack then (held.dropWhile fun f => f.hdr.seq != ack).drop 1 else held

/-- Sends an ack frame when anything is unacknowledged (R429). -/
def Dev.linkAck (d : Dev) (n : Nat) : Dev :=
  if (d.link n).unackedRx = 0 then d else d.linkControl n (d.frameHdr 1 2 0)

/-- Sends a nak naming the expected sequence (R429, R436). -/
def Dev.linkNak (d : Dev) (n reason : Nat) : Dev := d.linkControl n { d.frameHdr 2 2 0 with aux := reason }

/-- Times of a list that lie in the second before a time (R422, R431). -/
def lastSecond (l : List Nat) (now : Nat) : List Nat := l.filter fun t => decide (now < t + 1000000000)

/-- A malformed frame or packet: more than 16 in one second fence the link (R431). -/
def Dev.linkMalformed (d : Dev) (n : Nat) : Dev :=
  let l := d.time :: lastSecond (d.link n).malformedAt d.time
  let d := (d.bump 0x2A00 8 1).updLink n fun k => { k with malformedAt := l }
  if 16 < l.length then d.linkFenced n 0 else d

/-- Resends held frames from a sequence: 8 resendings without acknowledgement take the link DOWN, more than 8 frames in any second leave the no-FEC mode (R422, R429). -/
def Dev.linkReplay (d : Dev) (n seq : Nat) : Dev :=
  let l := d.link n
  let rest := l.held.dropWhile fun f => f.hdr.seq != seq
  if rest.isEmpty then d
  else
    let recent := List.replicate rest.length d.time ++ lastSecond l.replaysAt d.time
    let again := rest.map fun f => { f with tries := f.tries + 1 }
    let d := (d.updLink n fun l => { l with held := again, replaysAt := recent }).bump (0x2B00 + n) 9 rest.length
    let d := if 8 < recent.length && d.objD (0x2B00 + n) 3 1 = 0 then d.setObj (0x2B00 + n) 3 1 else d
    if again.any fun f => decide (8 < f.tries) then d.linkDown n 0
    else again.foldl (fun d f => d.emit (.frame n f)) d

/-- What every valid frame brings: acknowledgements and credits (R429, R430). -/
def Dev.frameFields (d : Dev) (n : Nat) (f : FrameHdr) : Dev :=
  let d := d.updLink n fun l => { l with held := ackHeld l.held f.ack }
  let i := chanIdx f.creditVc f.creditSub
  (d.updLink n fun l => { l with credits := vSet l.credits i (min 32 (vGet l.credits i 0 + f.credit)) }).linkPump n

/-- Takes a frame (R423, R428, R429, R431, R436): whether its content is acted on. Frames of types 1 to 4 stand outside the sequence. -/
def Dev.frameIn (d : Dev) (n : Nat) (f : FrameHdr) : Dev × Bool :=
  let l := d.link n
  if !d.linkUp n then (d, false)
  else if !f.crcOk then (d.linkNak n 1, false)
  else if f.version / 16 != 1 || decide (9 ≤ f.kind) then
    ((if f.seq = l.rxSeq then d.updLink n fun l => { l with rxSeq := (l.rxSeq + 1) % 4096 } else d).linkMalformed n, false)
  else if 1 ≤ f.kind ∧ f.kind ≤ 4 then (d.frameFields n f, true)
  else if f.seq ≠ l.rxSeq then (d.linkNak n 1, false)
  else if f.vc ≠ 2 ∧ d.epoch < f.epoch then
    ((d.linkNak n 2).linkSend n ⟨d.frameHdr 0 2 0, .orderReq, 0⟩, false)
  else
    let d := (d.frameFields n f).updLink n fun l => { l with rxSeq := (l.rxSeq + 1) % 4096, unackedRx := l.unackedRx + 1 }
    let d := if 64 ≤ (d.link n).unackedRx then d.linkAck n else d
    let d := d.linkControl n { d.frameHdr 3 2 0 with credit := 1, creditVc := f.vc, creditSub := f.sub }
    if f.vc ≠ 2 ∧ f.epoch < d.epoch then
      let d := d.bump 0x2A00 9 1
      if l.staleRaised.contains f.epoch then (d, false)
      else ((d.updLink n fun l => { l with staleRaised := f.epoch :: l.staleRaised }).linkEvent cEpochStale n, false)
    else if !carries (d.linkState n) f.vc && f.kind != 5 then (d, false)
    else if f.vc ≠ 2 ∧ (d.expelled f.srcDev ∨ d.expelled l.partnerDev) then (d, false)
    else (d, true)

/-- Acts on a frame that is taken. -/
def Dev.onFrame (d : Dev) (n : Nat) (f : FrameHdr) (g : Dev → Dev) : Dev :=
  let (d, ok) := d.frameIn n f
  if ok then g d else d

/-- The meaning of LINK_ACK_FRAME. -/
def execLinkAckFrame (n : Nat) (f : FrameHdr) (s : State) : Host.Outcome State Fault Refusal :=
  s.onDev fun d => d.onFrame n { f with kind := 1 } id

/-- The meaning of LINK_NAK_FRAME: the sequence named is the frame's seq, the reason 1 for a CRC failure or gap, 2 for an epoch ahead (R429, R436). -/
def execLinkNakFrame (n : Nat) (f : FrameHdr) (s : State) : Host.Outcome State Fault Refusal :=
  s.onDev fun d => d.onFrame n { f with kind := 2 } fun d =>
    if f.aux = 2 then d.updLink n fun l => { l with epochWait := true } else d.linkReplay n f.seq

/-- The meaning of LINK_CREDIT_FRAME. -/
def execLinkCreditFrame (n : Nat) (f : FrameHdr) (s : State) : Host.Outcome State Fault Refusal :=
  s.onDev fun d => d.onFrame n { f with kind := 3 } id

/-- The meaning of LINK_IDLE_FRAME. -/
def execLinkIdleFrame (n : Nat) (f : FrameHdr) (s : State) : Host.Outcome State Fault Refusal :=
  s.onDev fun d => d.onFrame n { f with kind := 4 } id

/-- The meaning of LINK_ACK_TIMER. -/
def execLinkAckTimer (n : Nat) (s : State) : Host.Outcome State Fault Refusal :=
  s.onDev fun d => if d.linkUp n then d.linkAck n else d

/-! ### Identity and agreement (R433 to R435) -/

/-- Offset of a partner's TIME, partner minus local (R433). -/
def identOffset (r : IdentRec) (tRx : Nat) : Int :=
  (r.tTx : Int) + ((tRx : Int) - r.tEcho - r.tHold) / 2 - tRx

/-- Disagreements that confine a link to management (R435). -/
def Dev.disagreements (d : Dev) (r : IdentRec) : List Code :=
  (if r.archMajor ≠ 1 ∨ r.cfgDigest ≠ d.cfgDigest % 2 ^ 256 ∨ r.device = d.self ∨ r.device = 0xFFFF then [cConfigMismatch] else [])
    ++ (if d.expelled r.device || !d.isMember r.device then [cPeerExpelled] else [])

/-- Whether a link's offset exceeds the limit (R435). -/
def Dev.beyondLimit (d : Dev) (n : Nat) : Bool :=
  let o := d.objD (0x2B00 + n) 0xB 0
  decide (d.objD 0x2A00 4 1000 < if o < 2 ^ 63 then o else 2 ^ 64 - o)

/-- time.uncertain follows the partners in service (R435). -/
def Dev.timeCheck (d : Dev) : Dev :=
  let any := (List.range 64).any fun n => decide (3 ≤ d.linkState n) && (d.link n).known && d.beyondLimit n
  if any then d.setObj 0x2A00 7 1 else if d.objD 0x2A00 7 0 = 0 then d else d.setObj 0x2A00 7 0

/-- Sends the current order to a partner (R435, R449). -/
def Dev.sendOrder (d : Dev) (n : Nat) : Dev :=
  if d.rack.order.isEmpty then d else d.linkSend n ⟨d.frameHdr 0 2 0, .order d.rack.order, 0⟩

/-- Raises the codes of disagreements that are new, once each (R434, R435). -/
def Dev.raiseOnce (d : Dev) (n : Nat) (codes : List Code) : Dev :=
  let new := codes.filter fun c => !(d.link n).raised.contains c
  (new.foldl (fun d c => d.linkEvent c n) d).updLink n fun l => { l with raised := codes }

/-- A partner's first record after training, or a record of another partner: held frames are resent, or discarded when the serial has changed (R429, R435). -/
def Dev.meetPartner (d : Dev) (n : Nat) (r : IdentRec) : Dev :=
  let l := d.link n
  let same := decide (l.partnerSerial = r.serial)
  if l.known && same then d
  else if same then l.held.foldl (fun d f => d.emit (.frame n f)) d
  else
    let d := (d.bump (0x2B00 + n) 0xA l.held.length).updLink n fun l => { l with held := [], waiting := [], raised := [] }
    (if l.known && 3 ≤ d.linkState n && d.linkState n ≠ 5 then d.linkTo n 2 0 else d).partnerChange

/-- An identity record is received (R433 to R435); one of another major version is refused unread (R10). -/
def Dev.identIn (d : Dev) (n : Nat) (r : IdentRec) : Dev :=
  if r.version / 256 ≠ 1 then d.raiseOnce n [cUnsupportedVersion]
  else
  let d := d.meetPartner n r
  let off := identOffset r d.time
  let d := d.setObj (0x2B00 + n) 0xB (off % 2 ^ 64).toNat
  let d := (d.setObj (0x2B40 + n) 1 (identWord r)).updLink n fun l => { l with
    known := true, partnerSerial := r.serial, partnerEpoch := r.epoch, partnerDev := r.device, lastTx := r.tTx, lastRx := d.time }
  let late := if d.beyondLimit n then [cTimeUncertain] else []
  if r.majors.land 1 = 0 then d.raiseOnce n [cUnsupportedVersion]
  else
    let bad := d.disagreements r
    let d := d.raiseOnce n (bad ++ late)
    let st := d.linkState n
    let d := if st = 5 then d else if d.objD 0x6200 7 0 = 1 then d.linkFenced n cSelfExpelled else d.linkTo n (if bad.isEmpty then 4 else 3) (bad.headD 0)
    let d := d.timeCheck
    if r.epoch < d.epoch then d.sendOrder n
    else if d.epoch < r.epoch then d.linkSend n ⟨d.frameHdr 0 2 0, .orderReq, 0⟩
    else d

/-- An ident frame arrives. Before the first record of a partner it may stand anywhere in the partner's sequence: that of a new partner begins with it, that of the same partner goes on with the frames that it still holds (R429, R435; log entry 121). -/
def Dev.identFrame (d : Dev) (n : Nat) (f : FrameHdr) (r : IdentRec) : Dev :=
  let l := d.link n
  if !d.linkUp n || l.known || !f.crcOk || f.version / 16 != 1 || f.seq = l.rxSeq then d.onFrame n f fun d => d.identIn n r
  else if r.serial = l.partnerSerial then d.identIn n r
  else (d.updLink n fun l => { l with rxSeq := f.seq }).onFrame n f fun d => d.identIn n r

/-- The meaning of IDENT_FRAME. -/
def execIdentFrame (n : Nat) (f : FrameHdr) (r : IdentRec) (s : State) : Host.Outcome State Fault Refusal :=
  s.onDev fun d => d.identFrame n { f with kind := 5, vc := 2 } r

/-- The meaning of IDENT_TIMER: a record is sent, and frames that the partner refused for their epoch are resent (R432, R436). -/
def execIdentTimer (n : Nat) (s : State) : Host.Outcome State Fault Refusal :=
  s.onDev fun d =>
    if !d.linkUp n then d
    else
      let l := d.link n
      let d := if l.epochWait then
          (l.held.foldl (fun d f => d.emit (.frame n { f with hdr := { f.hdr with epoch := d.epoch } })) d).updLink n
            fun l => { l with epochWait := false }
        else d
      d.sendIdent n

/-! ### What frames bring (R332, R431, R437 to R445, R454, R455, R460) -/

/-- An end-to-end acknowledgement frees hold space at the sender (R332, R342, R440). -/
def Dev.relAcked (d : Dev) (f : FrameHdr) : Dev :=
  let mine (e : Released) : Bool := e.ctx = f.dstCtx && e.dev = f.srcDev && e.rctx = f.srcCtx && e.step = f.step && e.idx = f.relIdx
  let d := { d with inlog := d.inlog.map fun (e : Released) => if mine e then { e with acked := true } else e }.holdFree f.dstCtx
  let d := if (d.ctx f.dstCtx).blockCause ≤ 1 then d.unblock f.dstCtx else d
  d.pushReleases

/-- A far read is served inside a lease of the requesting context, and refused otherwise (R444). -/
def Dev.farRead (d : Dev) (f : FrameHdr) (lease addr n : Nat) : Dev :=
  let data := match d.leaseOf lease f.srcDev f.srcCtx with
    | some l => if l.r && l.covers addr n then d.readPlace (.tier2 (l.first * 65536 + addr)) n [] else none
    | none => none
  d.sendFar 1 f.srcDev f.dstCtx f.srcCtx (.farReply lease addr data)

/-- A packet arrives from a link (R237, R431, R438): it goes into the mesh, or on to the next link; a malformed one is discarded. -/
def Dev.packetIn (d : Dev) (n : Nat) (f : FrameHdr) (p : Packet) : Dev :=
  let here := p.head.dstDev = d.self || p.head.dkind != 2
  let h := { p.head with epoch := d.mesh.epoch, poison := max p.head.poison f.poison }
  let h := if here then { h with dkind := 0, dstDev := 0xFFFF } else h
  if (d.malformed h (p.units.length + 1)).isSome then d.linkMalformed n
  else if here then
    d.putPackets ⟨h.srcX, h.srcY⟩ [pktOf h p.units]
  else
    match d.linkFor h.epoch h.dstDev h.srcX h.srcY h.dstX h.dstY with
    | some m => d.sendPacket m (pktOf h p.units) (d.objD (0x2B00 + n) 6 7 % 8) f.sub
    | none => d.bump 0x2A01 5 1

/-- The sender resends its log entries above a position (R455). -/
def Dev.replayLog (d : Dev) (f : FrameHdr) (after : Option (Nat × Nat)) : Dev :=
  let mine (e : Released) : Bool := e.ctx = f.dstCtx && e.dev = f.srcDev && e.rctx = f.srcCtx
    && !(after.any fun p => posLe (e.step, e.idx) p)
  let k := (d.inlog.filter mine).length
  ({ d with inlog := d.inlog.map fun (e : Released) => if mine e then { e with sent := false, acked := false } else e }.bump
    0x6201 3 k).pushReleases

/-- A checkpoint fetched for an adoption arrives: the context is restored and enters, or fails when none verifies (R460). -/
def Dev.adopted (d : Dev) (n dev : Nat) (k : Option Ckpt) : Dev :=
  let x := d.ctx n
  if !x.entering || x.adopt != dev then d
  else
    let d := d.unreadable? k.toList
    match k.filter Ckpt.readable with
    | some k => ((d.restore n k).updCtx n fun x => { x with adopt := 0xFFFE }).enter n
    | none => (d.updCtx n fun x => { x with adopt := 0xFFFE }).fail n cBlockCheckFail

/-- Answers a request for the newest complete checkpoint of a context held for another device (R416, R459). -/
def Dev.answerCkpt (d : Dev) (f : FrameHdr) : Dev :=
  d.sendMgmt f.srcDev 0 f.dstCtx f.srcCtx 0 0 (.ckptFetched (newest (d.buddies.filter fun k => k.device = f.srcDev) f.srcCtx))

/-- A marker frees the log entries at or below its position (R454). -/
def Dev.markerIn (d : Dev) (f : FrameHdr) (step idx : Nat) : Dev :=
  let gone (e : Released) : Bool := e.ctx = f.dstCtx && e.dev = f.srcDev && e.rctx = f.srcCtx && posLe (e.step, e.idx) (step, idx)
  { d with inlog := d.inlog.filter fun e => !gone e }.pushReleases

/-- A peer's context has become resident or has left (R441). -/
def Dev.residencyIn (d : Dev) (f : FrameHdr) (here : Bool) : Dev :=
  let d := d.updCtx f.dstCtx fun x => { x with
    peersIn := if here then (if x.peersIn.contains f.srcDev then x.peersIn else f.srcDev :: x.peersIn) else x.peersIn.erase f.srcDev }
  (d.sendMgmt f.srcDev 7 f.dstCtx f.srcCtx 0 0 .residencyAck).pushReleases

/-- What arrives in packet frames. Orders go to MEMBERSHIP_ORDER, checkpoint copies to BUDDY_COPY_RECEIVE, replay requests and fetched pages to their own commands; the frame itself is taken here. -/
def Dev.payIn (d : Dev) (n : Nat) (f : FrameHdr) (p : LinkPay) : Dev :=
  match p with
  | .packet p => d.packetIn n f p
  | .released b check => d.releasedIn n f b check
  | .relAck => d.relAcked f
  | .farRead lease addr bytes => d.farRead f lease addr bytes
  | .residencyAck => d.updCtx f.dstCtx fun x => { x with unacked := x.unacked.erase f.srcDev }
  | .orderReq => d.sendOrder n
  | .ckptReq => d.answerCkpt f
  | .ckptFetched k => d.adopted f.dstCtx f.srcDev k
  | .empty | .farReply .. | .ident _ | .residency _ | .marker .. | .replayReq _ | .relay _ | .order _ | .ckpt _ | .ckptAck _ => d

/-- The meaning of LINK_PACKET_FRAME. -/
def execLinkPacketFrame (n : Nat) (f : FrameHdr) (p : LinkPay) (s : State) : Host.Outcome State Fault Refusal :=
  s.onDev fun d => d.onFrame n { f with kind := 0 } fun d => d.payIn n f p

/-- The meaning of MARKER_FRAME: the delivered position (R454). -/
def execMarkerFrame (n : Nat) (f : FrameHdr) (step idx : Nat) (s : State) : Host.Outcome State Fault Refusal :=
  s.onDev fun d => d.onFrame n { f with kind := 6, vc := 2 } fun d => d.markerIn f step idx

/-- The meaning of RESIDENCY_FRAME. -/
def execResidencyFrame (n : Nat) (f : FrameHdr) (here : Bool) (s : State) : Host.Outcome State Fault Refusal :=
  s.onDev fun d => d.onFrame n { f with kind := 7, vc := 2 } fun d => d.residencyIn f here

/-- The meaning of REPLAY_REQUEST: the delivered position above which the log is resent. -/
def execReplayRequest (n : Nat) (f : FrameHdr) (after : Option (Nat × Nat)) (s : State) : Host.Outcome State Fault Refusal :=
  s.onDev fun d => d.onFrame n { f with kind := 0, vc := 2 } fun d => d.replayLog f after

/-! ### Timers towards peers (R440, R441, R452) -/

/-- A peer has not answered within link.e2e_timeout_us (R452). -/
def Dev.suspectPeer (d : Dev) (dev : Nat) : Dev := (d.eventDev cSuspectPeer 18 0 (pack [(16, dev)]) 0).alert 2

/-- The meaning of RESIDENCY_RESEND; `late` are the peers whose wait has exceeded link.e2e_timeout_us. -/
def execResidencyResend (ctx : Nat) (late : List Nat) (s : State) : Host.Outcome State Fault Refusal :=
  s.onDev fun d =>
    let x := d.ctx ctx
    let d := x.unacked.foldl (fun d dev =>
      d.sendMgmt dev 7 ctx ((x.peerCtx dev).getD ctx) 0 0 (.residency x.state.holds)) d
    (late.filter fun v => x.unacked.contains v && !d.expelled v).foldl Dev.suspectPeer d

/-- The meaning of E2E_RESEND_TIMEOUT: every unacknowledged payload of a context towards a device is resent, and the peer suspected (R440, R450, R452). -/
def execE2eResendTimeout (ctx dev : Nat) (s : State) : Host.Outcome State Fault Refusal :=
  s.onDev fun d =>
    let l := d.inlog.filter fun e => e.ctx = ctx && e.dev = dev && e.sent && !e.acked
    if l.isEmpty || d.expelled dev then d else (l.foldl Dev.sendReleased d).suspectPeer dev

/-! ### Relay (R445, R518, R519) -/

/-- A whole fragment has come by relay: an answer goes to the client of this entry device, any other fragment to the DOP server. -/
def Dev.relayed (d : Dev) (origin relayId : Nat) (bs : List Byte) : Dev :=
  let answer := [0x02, 0x11, 0x12].contains ((bs.getD 2 0#8).toNat)
  match if answer then d.rack.relays.find? fun e => e.relayId = relayId else none with
  | some e => 
    let touch (e : RelayEnt) : RelayEnt := if e.relayId = relayId then { e with used := d.time } else e
    { d with rack := { d.rack with relays := d.rack.relays.map touch } }.emit (.eth 1 [e.path.kind, e.path.addr] bs)
  | none => d.emit (.eth 2 [origin, relayId] bs)

/-- A piece for this device joins the others of its fragment (R519). -/
def Dev.pieceIn (d : Dev) (p : RelayPiece) : Dev :=
  let mine (r : RelayIn) : Bool := r.origin = p.origin && r.relayId = p.relayId
  let old := (d.rack.relayIn.find? mine).getD ⟨p.origin, p.relayId, p.piecesM1, []⟩
  let new := { old with got := nmSet old.got p.piece p.bytes }
  let others := d.rack.relayIn.filter fun r => !mine r
  if new.got.length = new.piecesM1 + 1 then
    { d with rack := { d.rack with relayIn := others } }.relayed p.origin p.relayId (new.got.flatMap Prod.snd)
  else { d with rack := { d.rack with relayIn := others ++ [new] } }

/-- A relay frame arrives (R445, R518, R519). -/
def Dev.relayIn (d : Dev) (p : RelayPiece) : Dev :=
  if d.self = 0xFFFF ∨ 4 < p.piecesM1 ∨ p.piecesM1 < p.piece then d
  else if p.dstDev = d.self then d.pieceIn p
  else if 8 < p.hops + 1 then d
  else
    let d := if p.piece = p.piecesM1 then d.bump 0x1100 0xA 1 else d
    d.sendMgmt p.dstDev 8 0 0 0 0 (.relay { p with hops := p.hops + 1 })

/-- The meaning of RELAY_FRAME. -/
def execRelayFrame (n : Nat) (f : FrameHdr) (p : RelayPiece) (s : State) : Host.Outcome State Fault Refusal :=
  s.onDev fun d => d.onFrame n { f with kind := 8, vc := 2 } fun d => d.relayIn p

/-- The meaning of RELAY_REASSEMBLY_TIMEOUT: pieces not joined within 10 ms are discarded (R519). -/
def execRelayReassemblyTimeout (origin relayId : Nat) (s : State) : Host.Outcome State Fault Refusal :=
  s.onDev fun d => { d with rack := { d.rack with relayIn := d.rack.relayIn.filter fun r => !(r.origin = origin && r.relayId = relayId) } }

end Sys2Proof.Machine
end

