-- ==== Sys2Proof/Machine/Member.lean ====
section
/-! DEFINITION. Membership orders, leases and checkpoints (R356, R444, R446 to R451, R456 to R461, R521). -/

namespace Sys2Proof.Machine

/-! ### Membership keys and quorum (R446) -/

/-- Consecutive pieces of n bytes, `fuel` of them at most. -/
def chunks (n : Nat) : Nat → List Byte → List (List Byte)
  | 0, _ => []
  | _, [] => []
  | k + 1, bs => bs.take n :: chunks n k (bs.drop n)

/-- Refusal of a write of membership.keys (R446). -/
def Dev.keysCheck (d : Dev) (bs : List Byte) : Option Code :=
  let n := bs.length / 2592
  firstFail [
    (bs.length % 2592 != 0, cBadArgument),
    (decide (7 < n), cBounds),
    (n != 0 && decide (n < d.objD 0x6200 2 1), cBadArgument)]

/-- A write of membership.keys: removing every key sets k to 1 (R446). -/
def Dev.setKeys (d : Dev) (bs : List Byte) : Dev :=
  match d.keysCheck bs with
  | some c => d.reply c
  | none =>
    let ks := (chunks 2592 7 bs).zipIdx.map fun p => (p.2, p.1)
    let d := { d with rack := { d.rack with keys := ks } }
    if bs.isEmpty then d.setObj 0x6200 2 1 else d

/-- The meaning of MEMBERSHIP_KEYS_WRITE. -/
def execMembershipKeysWrite (keys : List Byte) (s : State) : Host.Outcome State Fault Refusal := s.onDev fun d => d.setKeys keys

/-- A write of membership.k (R446). -/
def Dev.setQuorum (d : Dev) (k : Nat) : Dev :=
  if k = 0 ∨ d.rack.keys.length < k then d.reply cBadArgument else d.setObj 0x6200 2 k

/-- The meaning of MEMBERSHIP_K_WRITE. -/
def execMembershipKWrite (k : Nat) (s : State) : Host.Outcome State Fault Refusal := s.onDev fun d => d.setQuorum k

/-! ### Orders (R447 to R451, R521) -/

/-- The header of an order as a number (R447). -/
def orderHdr (bs : List Byte) : Nat := leNat (bs.take 64)

/-- The member bitmap of an order (R447). -/
def orderMembers (bs : List Byte) : Nat := leNat ((bs.drop 64).take 512)

/-- The digest that the signatures cover: the header with sigs taken as zero, then the bitmap (R447). -/
def orderDigest (bs : List Byte) : BitVec 512 := Config.sha3 (bs.take 3 ++ [0#8] ++ (bs.drop 4).take 572)

/-- Signature blocks that do not count, and those that do, by key index (R448). -/
def Dev.countSigs (d : Dev) (digest : BitVec 512) : List (List Byte) → List Nat → Nat → List Nat × Nat
  | [], good, bad => (good, bad)
  | b :: rest, good, bad =>
    let i := (b.headD 0#8).toNat
    let ok := match nmGet d.rack.keys i with
      | some key => !good.contains i && Config.sigOk key digest ((b.drop 4).take 4627)
      | none => false
    if ok then d.countSigs digest rest (i :: good) bad else d.countSigs digest rest good (bad + 1)

/-- Signatures of an order: those counted and those that are not (R448). -/
def Dev.orderSigs (d : Dev) (bs : List Byte) : List Nat × Nat :=
  d.countSigs (orderDigest bs) (chunks 4632 7 (bs.drop 576)) [] 0

/-- The checks of an order before its signatures (R447, R448). -/
def Dev.orderCheck (d : Dev) (bs : List Byte) : Option Code :=
  let h := orderHdr bs
  let sigs := bits h 31 24
  firstFail [
    (bits h 15 8 != 1, cUnsupportedVersion),
    (bits h 511 192 != 0 || bits h 23 16 != 1, cReservedNonzero),
    ((chunks 4632 7 (bs.drop 576)).any fun b => leNat ((b.drop 1).take 3) != 0 || (b.getD 4631 0#8) != 0#8, cReservedNonzero),
    (sigs = 0 || decide (7 < sigs) || bs.length != 576 + 4632 * sigs, cBadArgument),
    (bits h 191 128 != d.objD 0x6200 4 0, cBadArgument),
    (decide (bits h 63 32 ≤ d.epoch), cEpochStale)]

/-- An order that repeats the current epoch and bitmap is ignored (R448). -/
def Dev.orderKnown (d : Dev) (bs : List Byte) : Bool :=
  bits (orderHdr bs) 63 32 = d.epoch && orderMembers bs = d.objD 0x6200 6 0 && !d.rack.order.isEmpty

/-- Takes back a lease: its frames are zero-filled and free (R318, R450). -/
def Dev.endLease (d : Dev) (sub : Nat) : Dev :=
  match nmGet d.rack.leases sub with
  | none => d
  | some l =>
    let d := (List.range l.frames).foldl (fun d i => d.freeFrame (l.first + i)) d
    { d with rack := { d.rack with leases := nmErase d.rack.leases sub } }

/-- What a device does towards one that has left the member set (R449, R450, R461). -/
def Dev.expel (d : Dev) (dev : Nat) : Dev :=
  let d := { d with expels := dev :: d.expels.erase dev }.eventDev cPeerExpelled 18 0 (pack [(16, dev)]) 0
  let d := ((d.rack.leases.filter fun p => p.2.dev = dev).map Prod.fst).foldl Dev.endLease d
  let from_ (f : Nat × Nat × Nat) : Bool :=
    ((d.ctx f.1).leaf f.2.1).any fun l => l.home = 2 && bits l.target 45 30 = dev
  let d := (d.t2.fills.filter from_).foldl Dev.fetchEnds d
  let d := (d.ctxs.filter fun p => p.2.ckpt.state = 2 && p.2.ckpt.c = 2 && p.2.buddy = dev).foldl (fun d p =>
    (d.raised cPeerExpelled).updCtx p.1 fun x => { x with ckpt := x.ckpt.ends cPeerExpelled }) d
  (List.range 64).foldl (fun d n =>
    if d.linkState n = 4 ∧ (d.link n).partnerDev = dev then d.linkTo n 3 cPeerExpelled else d) d

/-- The device finds itself out of the member set (R451). -/
def Dev.selfExpelled (d : Dev) : Dev :=
  let d := (d.setObj 0x6200 7 1).eventDev cSelfExpelled 18 0 (pack [(16, d.self)]) 0
  let d := (List.range 64).foldl (fun d n => if 2 ≤ d.linkState n then d.linkFenced n cSelfExpelled else d) d
  d.preemptAll

/-- The device is a member again (R451). -/
def Dev.readmitted (d : Dev) : Dev :=
  let d := d.setObj 0x6200 7 0
  ((List.range 64).foldl (fun d n => if d.linkState n = 5 then (d.linkTo n 2 0).sendIdent n else d) d).schedule

/-- The next bank of the rack configuration becomes current, and records go out at once (R521). -/
def Dev.rackFlip (d : Dev) : Dev :=
  let cur := d.objD 0x1001 1 0
  let next := d.objD 0x1001 2 0
  let d := (d.setObj 0x1001 1 next).setObj 0x1001 2 cur
  (List.range 64).foldl (fun d n => if d.linkUp n then d.sendIdent n else d) d

/-- Installs an order's epoch and bitmap (R449 to R451, R521). -/
def Dev.install (d : Dev) (bs : List Byte) : Dev :=
  let old := d.objD 0x6200 6 0
  let new := orderMembers bs
  let epoch := bits (orderHdr bs) 63 32
  let gone := (List.range 4096).filter fun v => bit old v && !bit new v
  let self := d.self
  let d := (d.setObj 0x6200 1 epoch).setObj 0x6200 6 new
  let d := { d with rack := { d.rack with order := bs }, expels := d.expels.filter fun v => !bit new v }
  let flip := d.objD 0x1001 3 0
  let d := if flip ≠ 0 ∧ flip ≤ epoch then (d.setObj 0x1001 3 0).rackFlip else d
  let d := (gone.filter (· != self)).foldl Dev.expel d
  let d := (d.alert 2)
  let d := if gone.contains self then d.selfExpelled
    else if bit new self && d.objD 0x6200 7 0 = 1 then d.readmitted else d
  let d := ((List.range 64).filter fun n => d.linkUp n && (d.link n).known && decide ((d.link n).partnerEpoch < epoch)).foldl
    Dev.sendOrder d
  d.pushReleases

/-- A refused order: counted and recorded with kind 1 (R448, R598). -/
def Dev.orderRefused (d : Dev) (code : Code) (link : Nat) : Dev :=
  { ((d.bump 0x6200 8 1).eventDev code 18 1 (pack [(0, link), (16, if link = 0xFF then 0xFFFF else (d.link link).partnerDev)]) 0) with
    answer := code }

/-- A membership order, written or received from a link (0xFF none), is checked and installed (R448, R449). -/
def Dev.order (d : Dev) (bs : List Byte) (link : Nat) : Dev :=
  if bits (orderHdr bs) 15 8 = 1 && d.orderKnown bs then d
  else
    match d.orderCheck bs with
    | some c => d.orderRefused c link
    | none =>
      let (good, bad) := d.orderSigs bs
      let d := (List.range bad).foldl (fun d _ => d.eventDev cSignatureInvalid 18 0 (pack [(0, link)]) 0) d
      if good.length < d.objD 0x6200 2 1 then d.orderRefused cQuorumInsufficient link else d.install bs

/-- The meaning of MEMBERSHIP_ORDER. An order in a frame of a link is taken as that frame is. -/
def execMembershipOrder (link : Option (Nat × FrameHdr)) (order : List Byte) (s : State) : Host.Outcome State Fault Refusal :=
  s.onDev fun d =>
    match link with
    | none => d.order order 0xFF
    | some (n, f) => d.onFrame n { f with kind := 0, vc := 2 } fun d => d.order order n

/-! ### Leases (R444) -/

/-- First frame of the lowest run of n free frames (R318). -/
def Dev.freeRun (d : Dev) (n : Nat) : Option Nat :=
  let taken := d.t2.used ++ d.keep.frames
  let ok (f : Nat) : Bool := decide (f + n ≤ totalFrames) && !(taken.any fun u => decide (f ≤ u) && decide (u < f + n))
  ((0 :: taken.map (· + 1)).filter ok).foldl (fun best f => match best with
    | none => some f
    | some b => some (min b f)) none

/-- A write of a lease entry: value [15:0] device, [29:16] context, [30] r, [31] w, [95:64] frames, [96] valid (R444, R462). -/
def Dev.leaseWrite (d : Dev) (sub v : Nat) : Dev :=
  if sub = 0 ∨ 64 < sub then d.reply cBadArgument
  else
    let n := bits v 95 64
    let back := (d.endLease (sub - 1))
    if !bit v 96 then back
    else
      match if n ≤ back.freeFrames then back.freeRun n else none with
      | none => d.reply cNoMemory
      | some f =>
        let fs := (List.range n).map (f + ·)
        { back with
          t2 := { back.t2 with used := fs ++ back.t2.used }
          rack := { back.rack with leases := nmSet back.rack.leases (sub - 1) ⟨bits v 15 0, bits v 29 16, bit v 30, bit v 31, f, n⟩ } }

/-- The meaning of LEASE_WRITE. -/
def execLeaseWrite (sub value : Nat) (s : State) : Host.Outcome State Fault Refusal := s.onDev fun d => d.leaseWrite sub value

/-! ### Checkpoints (R356, R454, R456 to R461) -/

/-- The meaning of CKPT_GO: the context of ctx.select, at the commit of a step. -/
def execCkptGo (step : Nat) (s : State) : Host.Outcome State Fault Refusal := s.onDev fun d => d.ckptGo (d.objD 0x5100 1 0) step

/-- The meaning of CKPT_PERIOD_TIMER: every ckpt.period_s a checkpoint at the next step is requested. -/
def execCkptPeriodTimer (ctx : Nat) (s : State) : Host.Outcome State Fault Refusal :=
  s.onDev fun d =>
    let x := d.ctx ctx
    if x.periodS = 0 ∨ (d.ckptCheck ctx x.nextStep).isSome then d else d.ckptGo ctx x.nextStep

/-- Ends a checkpoint without a new complete copy: the unfinished slot is dropped, the regions go on (R356, R461). -/
def Dev.ckptEnds (d : Dev) (n : Nat) (f : LongOp → LongOp) : Dev :=
  let d := { d with ckpts := d.ckpts.filter fun k => !(k.ctx = n && !k.complete) }
  let d := d.updCtx n fun x => { x with ckpt := f x.ckpt }
  if (d.ctx n).state = .running ∨ (d.ctx n).state = .blocked then
    (d.ctx n).image.regions.foldl (fun d r =>
      if ((d.ctx n).rt? r.region).any fun t => t.parked then d.parkOrBegin n r.region else d) d
  else d

/-- Cancels a checkpoint (R356, R461). -/
def Dev.ckptCancel (d : Dev) (n : Nat) : Dev :=
  if (d.ctx n).ckpt.busy then d.ckptEnds n LongOp.cancelled else d.reply cStateInvalid

/-- The meaning of CKPT_CANCEL. -/
def execCkptCancel (s : State) : Host.Outcome State Fault Refusal := s.onDev fun d => d.ckptCancel (d.objD 0x5100 1 0)

/-- A checkpoint is complete: the older slot is released and each sender learns the position that it covers (R454, R457). -/
def Dev.ckptComplete (d : Dev) (n : Nat) : Dev :=
  let x := d.ctx n
  match d.ckpts.find? fun k => k.ctx = n && k.slot = x.ckpt.b && k.isSealed with
  | none => d
  | some k =>
    let d := { d with ckpts := (d.ckpts.filter fun (j : Ckpt) => j.ctx != n) ++ [{ k with complete := true }] }
    let d := d.updCtx n fun x => { x with ckptStep := k.step, ckpt := x.ckpt.ends cOk }
    k.delivered.foldl (fun d p => d.sendMgmt p.1 6 n p.2.1 k.step 0 (.marker p.2.2.1 p.2.2.2)) d

/-- The remaining pages are copied and the slot is sealed; it goes to the buddy, or is complete at once (R457). -/
def Dev.ckptCopied (d : Dev) (n : Nat) : Dev :=
  let x := d.ctx n
  match if x.ckpt.state = 2 ∧ x.ckpt.c = 1 then d.ckpts.find? fun k => k.ctx = n && k.slot = x.ckpt.b && !k.complete else none with
  | none => d
  | some k =>
    let full : Ckpt := { k with pages := k.pages ++ k.todo.map fun p => (p, d.pageBytes n p), todo := [], isSealed := true }
    let d := { d with ckpts := d.ckpts.map fun (j : Ckpt) => if j.ctx = n && j.slot = k.slot then full else j }
    let d := d.updCtx n fun x => { x with ckpt := { x.ckpt with c := 2 } }
    if x.buddy = 0xFFFF then d.ckptComplete n
    else if d.expelled x.buddy then (d.raised cPeerExpelled).ckptEnds n fun o => o.ends cPeerExpelled
    else d.sendMgmt x.buddy 0 n n k.step 0 (.ckpt full)

/-- The meaning of CKPT_COPY_COMPLETE. -/
def execCkptCopyComplete (ctx : Nat) (s : State) : Host.Outcome State Fault Refusal := s.onDev fun d => d.ckptCopied ctx

/-- The meaning of BUDDY_ACK: the buddy acknowledges (0), refuses the copy with its code, or stays silent (SUSPECT_PEER) (R457, R459, R461). -/
def execBuddyAck (ctx : Nat) (code : Code) (s : State) : Host.Outcome State Fault Refusal :=
  s.onDev fun d =>
    let x := d.ctx ctx
    if x.ckpt.state ≠ 2 ∨ x.ckpt.c ≠ 2 then d
    else if code = cOk then d.ckptComplete ctx
    else (d.raised code).ckptEnds ctx fun o => o.ends code

/-- A buddy copy arrives: stored, up to two for each sending context, or refused (R10, R459). -/
def Dev.buddyCopy (d : Dev) (k : Ckpt) : Dev :=
  let mine (j : Ckpt) : Bool := j.device = k.device && j.ctx = k.ctx
  let own := (d.buddies.filter fun j => mine j && j.slot != k.slot)
  let others := d.buddies.filter fun j => !mine j
  let used := ((others ++ own).map Ckpt.bytes).sum
  if !k.readable then (d.sendMgmt k.device 0 k.ctx k.ctx k.step 0 (.ckptAck cUnsupportedVersion)).reply cUnsupportedVersion
  else if d.objD 0x6202 2 128 * 2 ^ 30 < used + k.bytes then
    { (d.sendMgmt k.device 0 k.ctx k.ctx k.step 0 (.ckptAck cNoMemory)).raised cNoMemory with answer := cNoMemory }
  else ({ d with buddies := others ++ own ++ [{ k with isSealed := true, complete := true }] }).sendMgmt k.device 0 k.ctx k.ctx k.step 0
    (.ckptAck cOk)

/-- The meaning of BUDDY_COPY_RECEIVE. -/
def execBuddyCopyReceive (k : Ckpt) (s : State) : Host.Outcome State Fault Refusal := s.onDev fun d => d.buddyCopy k

end Sys2Proof.Machine
end

