-- ==== Sys2Proof/Machine/Ether.lean ====
section
/-! DEFINITION. The Ethernet port: queue pairs, the Brixmir command transport, steered service traffic and time (R463 to R488). -/

namespace Sys2Proof.Machine

/-! ### The port (R463 to R468, R487) -/

/-- Whether the port is up (R488). -/
def Dev.portUp (d : Dev) : Bool := d.objD 0x2800 2 0 = 2

/-- Transmits an LLDP frame: chassis ID, port ID, time to live, system name (R468). -/
def Dev.sendLldp (d : Dev) : Dev :=
  if d.portUp then d.emit (.eth 3 [d.sec.fuses.serial, 1, 120, d.objD 0x2800 8 0] []) else d

/-- The meaning of ETH_PORT_DOWN (R487). -/
def execEthPortDown (s : State) : Host.Outcome State Fault Refusal := s.onDev fun d => d.setObj 0x2800 2 0

/-- The meaning of ETH_PORT_UP (R463, R487). -/
def execEthPortUp (s : State) : Host.Outcome State Fault Refusal := s.onDev fun d => (d.setObj 0x2800 2 2).sendLldp

/-- The meaning of ARP_REQUEST (R465): an answer with the device's MAC address to a request for its own address. -/
def execArpRequest (target asker askerMac : Nat) (s : State) : Host.Outcome State Fault Refusal :=
  s.onDev fun d =>
    if d.portUp && target != 0 && target = d.objD 0x2800 4 0 then d.emit (.eth 4 [target, d.sec.fuses.mac, asker, askerMac] []) else d

/-- The meaning of NEIGHBOUR_SOLICITATION (R465). -/
def execNeighbourSolicitation (target asker askerMac : Nat) (s : State) : Host.Outcome State Fault Refusal :=
  s.onDev fun d =>
    if d.portUp && target != 0 && target = d.objD 0x2800 5 0 then d.emit (.eth 5 [target, d.sec.fuses.mac, asker, askerMac] []) else d

/-- The meaning of LLDP_RECEIVE: the chassis ID and port ID received, 32 bytes each (R468). -/
def execLldpReceive (chassis port : Nat) (s : State) : Host.Outcome State Fault Refusal :=
  s.onDev fun d => d.setObj 0x2800 9 (chassis % 2 ^ 256 + 2 ^ 256 * (port % 2 ^ 256))

/-- The meaning of LLDP_TIMER (R468). -/
def execLldpTimer (s : State) : Host.Outcome State Fault Refusal := s.onDev Dev.sendLldp

/-- PFC index of a priority: 0 RoCEv2, 1 DOP (R467). -/
def Dev.pfcIndex (d : Dev) (prio : Nat) : Option Nat :=
  let p := d.objD 0x2800 7 0x43
  if prio = bits p 2 0 then some 0 else if prio = bits p 6 4 then some 1 else none

/-- The meaning of PFC_PAUSE_RECEIVE: a received pause halts transmission on a priority, and its end sends what has waited (R467). -/
def execPfcPauseReceive (prio : Nat) (pause : Bool) (s : State) : Host.Outcome State Fault Refusal :=
  s.onDev fun d =>
    match d.pfcIndex prio with
    | none => d
    | some i =>
      let d := { d with eth := { d.eth with pauseRx := vSet d.eth.pauseRx i pause } }
      if pause then d
      else { d with out := d.out ++ (d.txHeld.filter fun p => p.1 = i).map Prod.snd, txHeld := d.txHeld.filter fun p => p.1 != i }

/-- The receive buffer of a priority holds n bytes: above 3 MiB a pause is sent, below 2 MiB it is released (R467). -/
def Dev.pfcFill (d : Dev) (i n : Nat) : Dev :=
  let on := vGet d.eth.pauseTx i false
  let d := { d with eth := { d.eth with fill := vSet d.eth.fill i n } }
  if !on && decide (3 * 2 ^ 20 < n) then
    ({ d with eth := { d.eth with pauseTx := vSet d.eth.pauseTx i true } }.bump 0x2800 0xD 1).emit (.eth 6 [i, 1] [])
  else if on && decide (n < 2 * 2 ^ 20) then
    { d with eth := { d.eth with pauseTx := vSet d.eth.pauseTx i false } }.emit (.eth 6 [i, 0] [])
  else d

/-! ### Queue pairs (R469 to R474) -/

/-- A queue pair. -/
def Dev.qp (d : Dev) (n : Nat) : Qp := (nmGet d.eth.qps n).getD clearQp

/-- Changes a queue pair. -/
def Dev.updQp (d : Dev) (n : Nat) (f : Qp → Qp) : Dev := { d with eth := { d.eth with qps := nmSet d.eth.qps n (f (d.qp n)) } }

/-- A session keeps its last 32 response records, and its next message takes the next sequence number (R508, R512). -/
def Session.remember (s : Session) (k : Kept) : Session :=
  { s with kept := (s.kept ++ [k]).drop (s.kept.length - 31), nextSeq := s.nextSeq + 1 }

/-- A DOMAIN transfer through a queue pair that errs ends with BUSY and applies nothing (R516). -/
def Dev.rdmaBusy (d : Dev) (n : Nat) : Dev :=
  let hit (s : Session) : Bool := s.rdma.any fun r => r.1 = n
  let l := d.dop.sessions.filter hit
  let d := { d with dop := { d.dop with sessions := d.dop.sessions.map fun s => match s.rdma with
    | some r => if hit s then { s with rdma := none }.remember ⟨r.2.2.2.2, cBusy, 0, []⟩ else s
    | none => s } }
  l.foldl (fun d s => match s.rdma with
    | some r => (d.raised cBusy).emit (.dop s.id r.2.2.2.2 cBusy 0 [])
    | none => d) d

/-- A queue pair enters the error state (R472, R473). -/
def Dev.qpError (d : Dev) (n : Nat) : Dev :=
  if (d.qp n).state = 1 then (d.updQp n fun q => { q with state := 2, errors := q.errors + 1 }).rdmaBusy n else d

/-- The meaning of QP_RETRY_EXHAUSTED. -/
def execQpRetryExhausted (n : Nat) (s : State) : Host.Outcome State Fault Refusal := s.onDev fun d => d.qpError n

/-- A queue pair goes to RTS under a new status rkey (R471, R472). -/
def Dev.qpToRts (d : Dev) (n : Nat) : Dev :=
  if (d.qp n).state = 1 then d
  else
    let (v, d) := d.fresh
    d.updQp n fun q => { q with state := 1, rkey := (q.rkey + 1 + v % (2 ^ 32 - 1)) % 2 ^ 32 }

/-- The meaning of QP_TO_RTS: the queue pair that eth.qp.select names. -/
def execQpToRts (s : State) : Host.Outcome State Fault Refusal := s.onDev fun d => d.qpToRts (d.objD 0x2801 1 0)

/-- A queue pair goes to RESET: its waiting commands are gone, its rate is the line rate, configuration and counters stay (R417, R471, R473). -/
def Dev.qpToReset (d : Dev) (n : Nat) : Dev :=
  (d.updQp n fun q => { q with state := 0, queue := [], ecnStep := 0, ecnRate := 1024 }).rdmaBusy n

/-- The meaning of QP_TO_RESET. -/
def execQpToReset (s : State) : Host.Outcome State Fault Refusal := s.onDev fun d => d.qpToReset (d.objD 0x2801 1 0)

/-- A re-initialisation is done: it is read back as a long operation (R419). -/
def Dev.reinitDone (d : Dev) (a : Nat) : Dev := { d with reinit := (⟨2, 0, cPending, a, 0, 0, 0⟩ : LongOp).ends cOk }

/-- The meaning of REINIT_QUEUE_PAIR (R417). -/
def execReinitQueuePair (n : Nat) (s : State) : Host.Outcome State Fault Refusal :=
  s.onDev fun d => if 16640 ≤ n then d.reply cBadArgument else (d.qpToReset n).reinitDone n

/-- Every queue pair goes to RESET and the port trains again (R417, R487). -/
def Dev.reinitEth (d : Dev) : Dev := (d.eth.qps.foldl (fun d p => d.qpToReset p.1) d).setObj 0x2800 2 1

/-- The meaning of REINIT_ETHERNET: steering rules, windows and contexts are kept. -/
def execReinitEthernet (s : State) : Host.Outcome State Fault Refusal := s.onDev fun d => d.reinitEth.reinitDone 4

/-- Fractions of the rate table by default, as 16 U16 values (R474). -/
def ecnDefault : Nat :=
  pack (([1024, 896, 768, 640, 512, 448, 384, 320, 256, 192, 160, 128, 96, 64, 48, 32].zipIdx).map fun p => (16 * p.2, p.1))

/-- Entry of the rate table. -/
def Dev.ecnEntry (d : Dev) (i : Nat) : Nat := bits (d.objD 0x2800 0xB ecnDefault) (16 * i + 15) (16 * i)

/-- The meaning of CNP_RECEIVE: the rate becomes the fraction at the current step, and the step advances (R474). -/
def execCnpReceive (n : Nat) (s : State) : Host.Outcome State Fault Refusal :=
  s.onDev fun d => d.updQp n fun q => { q with ecnRate := d.ecnEntry q.ecnStep, ecnStep := min 15 (q.ecnStep + 1) }

/-- The meaning of ECN_RECOVER_TIMER: no notification for eth.ecn.recover_us moves back one step (R474). -/
def execEcnRecoverTimer (n : Nat) (s : State) : Host.Outcome State Fault Refusal :=
  s.onDev fun d => d.updQp n fun q => { q with ecnStep := q.ecnStep - 1, ecnRate := d.ecnEntry (q.ecnStep - 1) }

/-- The meaning of RDMA_READ_REQUEST: the status block under its rkey, and nothing else (R472, R478). -/
def execRdmaReadRequest (n rkey offset bytes : Nat) (s : State) : Host.Outcome State Fault Refusal :=
  s.onDev fun d =>
    let q := d.qp n
    if q.state ≠ 1 then d
    else if n < 16384 ∧ rkey = q.rkey ∧ offset + bytes ≤ 64 then
      d.emit (.eth 7 [n] (((natLe (statusBlock (d.ctx n) q d.uncertain) 64).drop offset).take bytes))
    else (d.emit (.eth 8 [n, 1] [])).qpError n

/-- The meaning of RDMA_WRITE_REQUEST: refused with a remote-access-error NAK (R472). -/
def execRdmaWriteRequest (n : Nat) (s : State) : Host.Outcome State Fault Refusal :=
  s.onDev fun d => if (d.qp n).state ≠ 1 then d else (d.emit (.eth 8 [n, 1] [])).qpError n

/-- The meaning of ATOMIC_REQUEST: refused with a remote-invalid-request NAK (R13, R470). -/
def execAtomicRequest (n : Nat) (s : State) : Host.Outcome State Fault Refusal :=
  s.onDev fun d => if (d.qp n).state ≠ 1 then d else d.emit (.eth 8 [n, 2] [])

/-- The meaning of RDMA_READ_RESPONSE: data of a load or a re-shard has arrived, `done` bytes in all; the data of a host page goes to its fill (R321, R343, R355). -/
def execRdmaReadResponse (n done : Nat) (s : State) : Host.Outcome State Fault Refusal :=
  s.onDev fun d =>
    let step (o : LongOp) : LongOp := if o.busy then { o with state := 2, progress := min 255 (done * 256 / max 1 o.c) } else o
    if (d.qp n).state ≠ 1 then d
    else if (d.ctx n).load.busy then d.updCtx n fun x => { x with load := step x.load } else d

/-- The oldest granules released to the host and not acknowledged, `n` of them at most, are. -/
def acknowledged : Nat → List HeldGranule → List HeldGranule
  | _, [] => []
  | 0, l => l
  | n + 1, h :: rest =>
    if h.released && h.dev.isNone && !h.acked then { h with acked := true } :: acknowledged n rest else h :: acknowledged (n + 1) rest

/-- The meaning of ROCE_ACK_RECEIVE: the oldest released granules of a context that its acknowledged RDMA WRITE carried are acknowledged (R332). -/
def execRoceAckReceive (n granules : Nat) (s : State) : Host.Outcome State Fault Refusal :=
  s.onDev fun d =>
    if (d.qp n).state ≠ 1 then d
    else
      let d := (d.updCtx n fun x => { x with dmaHold := acknowledged granules x.dmaHold }).holdFree n
      if (d.ctx n).blockCause = 0 then d.unblock n else d

/-! ### The Brixmir command transport (R475 to R479) -/

/-- Opcode of a command. -/
def bctOp (w : BctWord) : Nat := bits w 23 16

/-- Operands of a command. -/
def bctArgs (w : BctWord) : Nat := w / 2 ^ 128

/-- Operand fields of an opcode, as high and low bits; none for a reserved opcode (R477). -/
def bctFields (op : Nat) : Option (List (Nat × Nat)) :=
  match op with
  | 0x01 | 0x05 | 0x06 | 0x08 | 0x0D => some []
  | 0x02 => some [(7, 0), (8, 8), (9, 9), (63, 32), (127, 64), (191, 128)]
  | 0x03 => some [(7, 0)]
  | 0x04 => some [(7, 0), (127, 64), (191, 128)]
  | 0x07 => some [(1, 0)]
  | 0x09 => some [(3, 0), (15, 8), (23, 16), (31, 24), (39, 32)]
  | 0x0A => some [(5, 0), (31, 16), (45, 32), (47, 47)]
  | 0x0B => some [(31, 0)]
  | 0x0C => some [(7, 0), (8, 8), (127, 64)]
  | _ => none

/-- Whether operands have a bit outside their fields. -/
def bctReserved (fields : List (Nat × Nat)) (args : Nat) : Bool :=
  args != pack (fields.map fun f => (f.2, bits args f.1 f.2))

/-- The checks that precede a command's own (R477). -/
def bctCheck (n : Nat) (w : BctWord) : Option Code :=
  firstFail [
    (bits w 15 8 != 1, cUnsupportedVersion),
    (bits w 31 24 != 0 || bits w 127 78 != 0 || (match bctFields (bctOp w) with
      | some f => bctReserved f (bctArgs w)
      | none => true), cReservedNonzero),
    (bits w 77 64 != n, cBadArgument)]

/-- The first command of a queue pair has completed: it leaves the queue and the status block tells its tag and code (R476, R478). -/
def Dev.bctDone (d : Dev) (n : Nat) (code : Code) : Dev :=
  let w := (d.qp n).queue.headD 0
  (d.updQp n fun q => { q with
    queue := q.queue.drop 1, cmdCount := (q.cmdCount + 1) % 2 ^ 32, lastTag := bits w 63 32, lastCode := code }).statusUpdate n

/-- Commands at the front that fail the first checks complete with their code at once (R477). -/
def Dev.bctPump (d : Dev) (n : Nat) : List BctWord → Dev
  | [] => d
  | w :: rest =>
    match bctCheck n w with
    | some c => ((d.raised c).bctDone n c).bctPump n rest
    | none => d

/-- A SEND arrives on a queue pair (R471, R476): `len` bytes, of which `w` is the command; `buffer` is what the RoCEv2 receive buffer then holds (R467). -/
def Dev.bctReceive (d : Dev) (n len : Nat) (w : BctWord) (buffer : Nat) : Dev :=
  let d := d.pfcFill 0 buffer
  let q := d.qp n
  if q.state ≠ 1 ∨ 16384 ≤ n then d
  else if len ≠ 64 then ((d.raised cBadArgument).updQp n fun q => { q with lastCode := cBadArgument }).statusUpdate n
  else if 64 ≤ q.queue.length then d.emit (.eth 8 [n, 3] [])
  else
    let d := d.updQp n fun q => { q with queue := q.queue ++ [w] }
    d.bctPump n (d.qp n).queue

/-- The meaning of BCT_SEND_RECEIVE. -/
def execBctSendReceive (n len : Nat) (w : BctWord) (buffer : Nat) (s : State) : Host.Outcome State Fault Refusal :=
  s.onDev fun d => d.bctReceive n len w buffer

/-- Executes the first command of a queue pair when it has an opcode; its code is what it answers (R476, R477). -/
def Dev.bct (d : Dev) (n op : Nat) (f : Nat → Dev → Dev) : Dev :=
  match (d.qp n).queue with
  | [] => d
  | w :: rest =>
    if bctOp w ≠ op then d
    else
      let d := f (bctArgs w) { d with answer := 0 }
      (d.bctDone n d.answer).bctPump n rest

/-- The meaning of BCT_NOP. -/
def execBctNop (n : Nat) (s : State) : Host.Outcome State Fault Refusal := s.onDev fun d => d.bct n 0x01 fun _ d => d

/-- Whether a host segment of a loaded context names a window (R475). -/
def Ctx.windowUsed (x : Ctx) (w : Nat) : Bool := x.state != .free && x.image.segments.any fun s => s.kind = 2 && s.window = w

/-- Registers a host window (R475). -/
def Dev.windowSet (d : Dev) (n args : Nat) : Dev :=
  let w := bits args 7 0
  let len := bits args 191 128
  match firstFail [(len = 0 || len % 65536 != 0, cBadArgument), ((d.ctx n).windowUsed w, cBusy)] with
  | some c => d.reply c
  | none => d.updCtx n fun x => { x with
      windows := nmSet x.windows w ⟨bits args 127 64, len, bits args 63 32, bit args 8, bit args 9⟩ }

/-- The meaning of WINDOW_SET. -/
def execWindowSet (n : Nat) (s : State) : Host.Outcome State Fault Refusal := s.onDev fun d => d.bct n 0x02 fun a d => d.windowSet n a

/-- The meaning of WINDOW_CLEAR (R475). -/
def execWindowClear (n : Nat) (s : State) : Host.Outcome State Fault Refusal :=
  s.onDev fun d => d.bct n 0x03 fun a d =>
    if (d.ctx n).windowUsed (bits a 7 0) then d.reply cBusy
    else d.updCtx n fun x => { x with windows := nmErase x.windows (bits a 7 0) }

/-- The meaning of BCT_LOAD (R343, R606). -/
def execBctLoad (n : Nat) (s : State) : Host.Outcome State Fault Refusal :=
  s.onDev fun d => d.bct n 0x04 fun a d => d.loadGo n (bits a 7 0) (bits a 127 64) (bits a 191 128)

/-- The meaning of BCT_START. -/
def execBctStart (n : Nat) (s : State) : Host.Outcome State Fault Refusal := s.onDev fun d => d.bct n 0x05 fun _ d => d.start n

/-- The meaning of BCT_STOP. -/
def execBctStop (n : Nat) (s : State) : Host.Outcome State Fault Refusal := s.onDev fun d => d.bct n 0x06 fun _ d => d.stopCtx n

/-- The three pre-emptions of ctx.cmd.preempt (R350, R358). -/
def Dev.preemptCmd (d : Dev) (n mode : Nat) : Dev :=
  match mode with
  | 1 => d.preemptGate n false
  | 2 => d.preemptMid n
  | 3 => d.preemptGate n true
  | _ => d.reply cBadArgument

/-- The meaning of BCT_PREEMPT. -/
def execBctPreempt (n : Nat) (s : State) : Host.Outcome State Fault Refusal :=
  s.onDev fun d => d.bct n 0x07 fun a d => d.preemptCmd n (bits a 1 0)

/-- The meaning of BCT_UNLOAD. -/
def execBctUnload (n : Nat) (s : State) : Host.Outcome State Fault Refusal := s.onDev fun d => d.bct n 0x08 fun _ d => d.unload n

/-- The meaning of BCT_GEAR_LOAD (R282): a second long operation on the context is refused with BUSY. -/
def execBctGearLoad (n : Nat) (s : State) : Host.Outcome State Fault Refusal :=
  s.onDev fun d => d.bct n 0x09 fun a d =>
    if (d.ctx n).opBusy then d.reply cBusy else d.gearLoadGo n (bits a 3 0) (bits a 39 8)

/-- Writes an entry of a peer table (R442, R462). -/
def Dev.peerWrite (d : Dev) (n sub v : Nat) : Dev :=
  if (d.ctx n).state ≠ .loaded then d.reply cStateInvalid
  else d.updCtx n fun x => { x with peers := if v = 0 then nmErase x.peers sub else nmSet x.peers sub v }

/-- The meaning of PEER_SET. -/
def execPeerSet (n : Nat) (s : State) : Host.Outcome State Fault Refusal :=
  s.onDev fun d => d.bct n 0x0A fun a d =>
    d.peerWrite n (bits a 5 0 + 1) (pack [(0, bits a 31 16), (16, bits a 45 32), (31, bits a 47 47)])

/-- The meaning of BCT_CHECKPOINT (R457). -/
def execBctCheckpoint (n : Nat) (s : State) : Host.Outcome State Fault Refusal :=
  s.onDev fun d => d.bct n 0x0B fun a d => if (d.ctx n).opBusy then d.reply cBusy else d.ckptGo n (bits a 31 0)

/-- Enables or disables mirroring of the status block (R479). -/
def Dev.mirror (d : Dev) (n args : Nat) : Dev :=
  let w := bits args 7 0
  let off := bits args 127 64
  if !bit args 8 then d.updQp n fun q => { q with mirror := none }
  else
    match nmGet (d.ctx n).windows w with
    | none => d.reply cBadArgument
    | some h =>
      if !h.w then d.reply cBadArgument
      else if h.length < off + 64 then d.reply cBounds
      else d.updQp n fun q => { q with mirror := some (w, off) }

/-- The meaning of MIRROR. -/
def execMirror (n : Nat) (s : State) : Host.Outcome State Fault Refusal := s.onDev fun d => d.bct n 0x0C fun a d => d.mirror n a

/-- Cancels the long operation of a context that is queued or running (R356, R477). -/
def Dev.cancelOp (d : Dev) (n : Nat) : Dev :=
  let x := d.ctx n
  if x.load.busy then d.loadCancel n
  else if x.gearLoad.busy then d.gearLoadCancel n
  else if x.reshard.busy then d.reshardCancel n
  else if x.ckpt.busy then d.ckptCancel n
  else d.reply cStateInvalid

/-- The meaning of BCT_CANCEL. -/
def execBctCancel (n : Nat) (s : State) : Host.Outcome State Fault Refusal := s.onDev fun d => d.bct n 0x0D fun _ d => d.cancelOp n

/-- The meaning of STATUS_BLOCK_TIMER: an update at least once per second while the context is resident (R478). -/
def execStatusBlockTimer (n : Nat) (s : State) : Host.Outcome State Fault Refusal :=
  s.onDev fun d => if (d.ctx n).state.holds then d.statusUpdate n else d

/-! ### Steered service traffic (R480 to R484) -/

/-- Whether a rule matches a datagram (R480). -/
def ruleMatches (r : Nat) (g : Datagram) : Bool :=
  bit r 16 && bits r 15 0 = g.dstPort && bit r 17 = g.ipv6
    && (if bit r 18 then g.vlan = some (bits r 43 32) else g.vlan = none)

/-- Refusals of eth.steer.flip (R481). -/
def Dev.steerCheck (d : Dev) (value : Nat) : Option Code :=
  let valid := d.eth.steerNext.filter fun p => bit p.2 16
  firstFail [
    (value != 1, cBadArgument),
    (valid.any fun p => bits p.2 89 84 = 0 || bits p.2 103 92 = 0, cBadArgument),
    (d.ctxs.any fun p => p.2.state != .free && p.2.image.steerOver d.eth.steerNext p.1, cQueuePlan),
    (!d.steerBuf.isEmpty, cBusy)]

/-- The steering banks change places; no message of the old bank awaits its commit (R481, R497). -/
def Dev.steerFlip (d : Dev) (value : Nat) : Dev :=
  match d.steerCheck value with
  | some c => d.reply c
  | none => { d with eth := { d.eth with steerCur := d.eth.steerNext, steerNext := d.eth.steerCur, out := [], seq := [] } }

/-- The meaning of STEER_FLIP. -/
def execSteerFlip (value : Nat) (s : State) : Host.Outcome State Fault Refusal := s.onDev fun d => d.steerFlip value

/-- An IP address as 16 bytes in network order, an IPv4 address in the IPv4-mapped form (R482). -/
def ipUnit (ipv6 : Bool) (a : Nat) : QWord :=
  BitVec.ofNat 128 (leNat (natLe (if ipv6 then a else 0xFFFF * 2 ^ 32 + a % 2 ^ 32) 16).reverse)

/-- The message of a matched datagram (R482). -/
def steerMsg (rule i seq inc : Nat) (g : Datagram) : Msg :=
  let p := g.payload.length
  { hdr := { handler := bits rule 89 84, gear := bits rule 63 62, order := true, length := 3 + ceilDiv p 16, queue := bits rule 83 80,
             incarnation := inc, srcX := 0xF0, srcY := 0, srcDev := 0xFFFF, sequence := seq, user := BitVec.ofNat 32 i }
    body := ipUnit g.ipv6 g.src
      :: BitVec.ofNat 128 (pack [(0, g.srcPort), (16, g.dstPort), (32, p), (48, g.vlan.getD 0), (60, b2n g.ipv6), (64, g.rxTime % 2 ^ 64)])
      :: unitsOf (ceilDiv p 16) g.payload }

/-- Bytes that the steer buffer holds (R483). -/
def Dev.steerBytes (d : Dev) : Nat := (d.steerBuf.map fun (e : SteerMsg) => 16 * e.msg.hdr.length).sum

/-- A datagram arrives (R464, R466, R480, R482, R483, R487). -/
def Dev.datagram (d : Dev) (g : Datagram) : Dev :=
  let own := g.dst = d.objD 0x2800 (if g.ipv6 then 5 else 4) 0 && g.dst != 0
  if !d.portUp then d
  else if g.fragment || !own then d.bump 0x2800 0xC 1
  else
    match d.eth.steerCur.find? fun p => ruleMatches p.2 g with
    | none => d.bump 0x2800 0xC 1
    | some (i, r) =>
      let n := 3 + ceilDiv g.payload.length 16
      let ctx := bits r 61 48
      let x := bits r 71 64
      let y := bits r 79 72
      let c := d.ctx ctx
      if 4048 < g.payload.length then d.bump 0x2803 8 1
      else if !c.state.holds || c.state = .draining || c.entering then d.bump 0x2803 7 1
      else if bits r 103 92 < (nmGet d.eth.out i).getD 0 + n ∨ d.objD 0x2803 4 256 * 2 ^ 20 < d.steerBytes + 16 * n then
        d.bump 0x2803 6 1
      else
        let seq := (nmGet d.eth.seq i).getD 0
        let m := steerMsg r i seq ((d.arch ⟨x, y⟩).msg.ring (bits r 83 80)).inc g
        let d := { d with
          eth := { d.eth with out := nmSet d.eth.out i ((nmGet d.eth.out i).getD 0 + n), seq := nmSet d.eth.seq i ((seq + 1) % 2 ^ 16) }
          steerBuf := d.steerBuf ++ [(⟨ctx, x, y, i, m, none⟩ : SteerMsg)] }
        (d.sendHeld x y m).bump 0x2803 5 1

/-- The meaning of STEERED_DATAGRAM. -/
def execSteeredDatagram (g : Datagram) (s : State) : Host.Outcome State Fault Refusal := s.onDev fun d => d.datagram g

/-- Credits that return to the engine go to the rules that name the ring, in ascending order (R262, R482). -/
def Dev.engineCredit (d : Dev) (ctx : Nat) (src : Sender) (queue units : Nat) : Dev :=
  let mine := d.eth.steerCur.filter fun p => bit p.2 16 && bits p.2 61 48 = ctx && bits p.2 71 64 = src.x && bits p.2 79 72 = src.y
    && bits p.2 83 80 = queue
  let r := mine.foldl (fun (acc : NMap Nat × Nat) p =>
    let o := (nmGet acc.1 p.1).getD 0
    let k := min o acc.2
    (nmSet acc.1 p.1 (o - k), acc.2 - k)) (d.eth.out, units)
  { d with eth := { d.eth with out := r.1 } }

/-- The meaning of CREDIT_RETURN (R262, R266, R482): to a core, or to the Ethernet engine at column 0xF0. -/
def execCreditReturn (c : CoreId) (srcX srcY srcDev queue inc : Nat) (closed : Bool) (units at_ : Nat) (s : State) :
    Host.Outcome State Fault Refusal :=
  s.onDev fun d =>
    let d := d.creditLands c ⟨srcX, srcY, srcDev⟩ queue inc closed units
    if c.x = 0xF0 then
      match (d.core ⟨srcX, srcY⟩).ctx with
      | some n => d.engineCredit n ⟨srcX, srcY, srcDev⟩ queue units
      | none => d
    else d.creditReturn c ⟨srcX, srcY, srcDev⟩ queue inc closed units at_

/-- The oldest reply of a send queue (R484). -/
def Dev.oldestReply (d : Dev) (q : Nat) : Option ReplyMsg := d.sendq.find? fun r => r.queue = q

/-- A reply leaves its send queue and its credits return to the core's channel, in the state records of its context when that has left the cells (R267, R484). -/
def Dev.replyGone (d : Dev) (r : ReplyMsg) : Dev :=
  let c : CoreId := ⟨r.msg.hdr.srcX, r.msg.hdr.srcY⟩
  let src : Sender := ⟨0xF0, r.queue, 0xFFFF⟩
  let d := { d with sendq := d.sendq.erase r }
  if (d.core c).ctx = some r.ctx then d.creditReturn c src 0 0 false r.msg.hdr.length (d.arch c).stat.cyc
  else
    let credit (v : Saved) : Saved := { v with arch := { v.arch with msg := v.arch.msg.credited src 0 0 r.msg.hdr.length false } }
    d.updCtx r.ctx fun x => { x with saved := x.saved.map fun p => if p.1 = ckey c then (p.1, credit p.2) else p }

/-- Whether a reply's udp_len matches its length (R484). -/
def replyFits (m : Msg) : Bool :=
  let p := bits (m.body.getD 1 0#128).toNat 47 32
  m.hdr.length = 3 + ceilDiv p 16

/-- The meaning of SENDQ_TRANSMIT: the oldest reply of a send queue leaves as a datagram, or is discarded when its length is wrong (R484). -/
def execSendqTransmit (q : Nat) (s : State) : Host.Outcome State Fault Refusal :=
  s.onDev fun d =>
    match d.oldestReply q with
    | none => d
    | some r =>
      if !d.portUp then d
      else if !replyFits r.msg then (d.replyGone r).bump 0x2803 0xC 1
      else
        let u := (r.msg.body.getD 1 0#128).toNat
        let p := bits u 47 32
        (d.replyGone r).emit (.eth 9 [(r.msg.body.getD 0 0#128).toNat, bits u 15 0, bits u 31 16, bits u 59 48, bits u 60 60,
          d.objD 0x2803 0xB 0] (((r.msg.body.drop 2).flatMap qBytes).take p))

/-- The meaning of SENDQ_HOLD_TIMEOUT: the oldest reply of a queue, held longer than eth.sendq.hold_ms while the port is down, is discarded (R484). -/
def execSendqHoldTimeout (q : Nat) (s : State) : Host.Outcome State Fault Refusal :=
  s.onDev fun d =>
    match d.oldestReply q with
    | none => d
    | some r => if d.portUp then d else (d.replyGone r).bump 0x2803 0xC 1

/-! ### Time (R401, R485, R486) -/

/-- The meaning of PTP_EVENT_MESSAGE: the capture unit timestamps it, and the offset from the master it gives is kept (R485). -/
def execPtpEventMessage (masterTime : Nat) (s : State) : Host.Outcome State Fault Refusal :=
  s.onDev fun d => (d.setObj 0x2800 0xE (((d.time : Int) - masterTime) % 2 ^ 64).toNat).emit (.words 1 [d.time])

/-- The meaning of TIME_DISCIPLINED: TIME takes the disciplined value, and uncertain records are dated from it (R401, R486). -/
def execTimeDisciplined (time : Nat) (s : State) : Host.Outcome State Fault Refusal :=
  s.onDev fun d =>
    if d.disciplined then d
    else { d with
      time := time, disciplined := true
      pow := { d.pow with startAt := d.pow.startAt + time - d.time }
      keep := { d.keep with recs := d.keep.recs.map fun r => if r.uncertain then { r with time := time, uncertain := false } else r } }

/-- The meaning of PPS_OUT_SECOND: a pulse once TIME is disciplined (R485). -/
def execPpsOutSecond (s : State) : Host.Outcome State Fault Refusal :=
  s.onDev fun d => if d.disciplined then (d.emit (.pin 1 true)).emit (.pin 1 false) else d

end Sys2Proof.Machine
end

