-- ==== Sys2Proof/Machine/Power.lean ====
section
/-! DEFINITION. Power, clocks, thermal limits, resets and the test access port (R417, R418, R531, R546 to R571, R587 to R589). -/

namespace Sys2Proof.Machine

/-! ### Grade figures (R38, R41, R304) -/

/-- Power envelope of the grade, W. -/
def Dev.gradePower (d : Dev) : Nat :=
  match d.sec.fuses.grade with
  | 1 => 1200
  | 2 => 800
  | _ => 350

/-- Maximum tier-2 rate of the grade, MT/s. -/
def Dev.gradeRate (d : Dev) : Nat :=
  match d.sec.fuses.grade with
  | 1 => 14400
  | 2 => 12800
  | _ => 10667

/-! ### The beginning of a start (R417, R499, R548, R554, R588, R599) -/

/-- Drives a pin: 2 THERM_TRIP_N, 3 PCYC_REQ_N; true asserts it (R418, R570). -/
def Dev.pin (d : Dev) (name : Nat) (level : Bool) : Dev := d.emit (.pin name level)

/-- Asserts PCYC_REQ_N with a cause; the first cause stays until the supplies are removed (R418). -/
def Dev.pcycReq (d : Dev) (cause : Nat) : Dev :=
  if d.pow.pcyc = 0 then { d with pow := { d.pow with pcyc := cause } }.pin 3 true else d

/-- Warm starts in succession that have failed when another start begins (R418, R531). -/
def Dev.failedStarts (d : Dev) : Nat := if d.inService || d.pow.cold then 0 else d.pow.failed + 1

/-- The fault counters of R550, which the start that the fault causes leaves in place (log entry 36). -/
def Dev.faultCounters (d : Dev) : NMap Nat :=
  d.objs.filter fun p => p.1 = okey 0x2100 0xA || p.1 = okey 0x2103 5

/-- A start begins: everything is at its default except what fuses, the non-volatile store and, on a warm start with recover.keep_tier2, tier 2 keep; a retirement that the defect map records and that waited for contexts to leave is made (R30, R417, R499, R548, R560). -/
def Dev.restart (d : Dev) (cold : Bool) : Dev :=
  let keep2 := !cold && d.objD 0x6105 3 0 = 1
  let keep := match d.retiring with
    | some py => d.keep.retire py
    | none => d.keep
  let f := clearDev keep d.sec.fuses d.sec.store
  let failed := if cold then 0 else d.failedStarts
  let n : Dev := { f with
    ckpts := if keep2 then d.ckpts.filter fun k => k.complete else []
    buddies := if keep2 then d.buddies else []
    objs := if d.pow.railFault then d.faultCounters else []
    free := d.free, answer := d.answer, out := d.out
    dop := { f.dop with i3cStatic := d.dop.i3cStatic }
    pow := { f.pow with
      pwrGood := d.pow.pwrGood, tripped := d.pow.tripped, pcyc := d.pow.pcyc, cold := cold, lockFail := d.pow.lockFail
      railFault := d.pow.railFault, failed := failed, keep2 := keep2
      tapState := d.pow.tapState, tapInstr := d.pow.tapInstr, tapIr := d.pow.tapIr, tapDr := d.pow.tapDr } }
  if 2 ≤ failed then n.pcycReq 2 else n

/-- A start for a reason other than a fault of rails, clocks or processors. -/
def Dev.plainStart (d : Dev) (cold : Bool) : Dev :=
  { d with pow := { d.pow with lockFail := false, railFault := false } }.restart cold

/-- Every cell row stays in reset; the boot ROM runs alone (R531, R550). -/
def Dev.romAlone (d : Dev) : Dev := { d with pow := { d.pow with mgmt := 3 } }

/-! ### Reset pins and supplies (R547, R549, R587, R588) -/

/-- The meaning of PWR_GOOD_ASSERT (R547). -/
def execPwrGoodAssert (s : State) : Host.Outcome State Fault Refusal :=
  s.act fun d => { d with pow := { d.pow with pwrGood := true } }

/-- The meaning of PWR_GOOD_DEASSERT: every clock stops and outputs go to their reset levels; the rails go next, so the next start is cold (R549, R558; log entry 37). -/
def execPwrGoodDeassert (s : State) : Host.Outcome State Fault Refusal :=
  s.act fun d =>
    let d := if d.alertN then { d with alertN := false }.pin 0 false else d
    let d := if d.pow.tripped then d.pin 2 false else d
    let d := if d.pow.pcyc = 0 then d else d.pin 3 false
    { d with pow := { d.pow with pwrGood := false, stopped := true, tripped := false, pcyc := 0, lost := true } }

/-- The meaning of SYS_RESET_ASSERT: ignored while PWR_GOOD is deasserted and during a trip (R547, R588). Operations under way are lost (R571). -/
def execSysResetAssert (s : State) : Host.Outcome State Fault Refusal :=
  s.act fun d =>
    if !d.pow.pwrGood || d.pow.tripped then d
    else { d with pow := { d.pow with inReset := true, stopped := true } }

/-- The meaning of SYS_RESET_RELEASE: the straps are sampled and a start begins, warm unless the supplies were away; with a rail out of its window only the boot ROM runs (R550, R557, R558, R587). -/
def execSysResetRelease (straps : Nat) (railsOk : Bool) (s : State) : Host.Outcome State Fault Refusal :=
  s.act fun d =>
    if !d.pow.pwrGood || d.pow.tripped || !d.pow.stopped then d
    else
      let d := { d with dop := { d.dop with i3cStatic := 0x50 + straps % 8 } }.plainStart d.pow.lost
      if railsOk then d else { d with pow := { d.pow with railBad := true } }.romAlone.pcycReq 3

/-- The meaning of WARM_RESET: a warm device reset (R417). -/
def execWarmReset (s : State) : Host.Outcome State Fault Refusal := s.onDev fun d => d.plainStart false

/-- The meaning of CELL_ROW_RESET_RELEASE: a physical cell row leaves reset in its slot (R550, R553). -/
def execCellRowResetRelease (py : Nat) (s : State) : Host.Outcome State Fault Refusal :=
  s.onDev fun d =>
    if d.pow.railBad || decide (32 ≤ py) then d else { d with pow := { d.pow with rowsOut := d.pow.rowsOut.lor (2 ^ py) } }

/-! ### Faults of rails, clocks and processors (R418, R550, R571) -/

/-- A rail or clock fault: a warm start, or, when it persists at the start that it caused, PCYC_REQ_N with cause 3 (R550). -/
def Dev.railFault (d : Dev) : Dev :=
  if d.pow.railFault && !d.inService then { d with pow := { d.pow with railBad := true } }.romAlone.pcycReq 3
  else { d with pow := { d.pow with railFault := true, lockFail := false } }.restart false

/-- The meaning of RAIL_FAULT. -/
def execRailFault (s : State) : Host.Outcome State Fault Refusal := s.onDev fun d => (d.bump 0x2100 0xA 1).railFault

/-- The meaning of PLL_UNLOCK: handled as a rail fault (R550). -/
def execPllUnlock (s : State) : Host.Outcome State Fault Refusal := s.onDev fun d => (d.bump 0x2103 5 1).railFault

/-- The meaning of LOCKSTEP_DISAGREEMENT: a warm restart; pairs that still disagree after it ask for a power cycle (R418, R530). -/
def execLockstepDisagreement (s : State) : Host.Outcome State Fault Refusal :=
  s.onDev fun d =>
    if d.pow.lockFail then d.romAlone.pcycReq 1
    else { d with pow := { d.pow with lockFail := true, railFault := false } }.restart false

/-- An event that the specification records without naming its code (log entry 33). -/
def Dev.powerEvent (d : Dev) (i : Nat) : Dev := d.eventDev (Config.powerCode i).toNat 17 0 0 0

/-- Every region is throttled at once to at least level 8 (R550, R567). -/
def Dev.levelEight (d : Dev) : Dev := { d with pow := { d.pow with limit := max d.pow.limit 8 } }

/-- The meaning of VCORE_DROOP (R550). -/
def execVcoreDroop (s : State) : Host.Outcome State Fault Refusal := s.onDev fun d => d.levelEight.powerEvent 0

/-- The meaning of VCORE_OVERCURRENT (R567). -/
def execVcoreOvercurrent (s : State) : Host.Outcome State Fault Refusal := s.onDev fun d => d.levelEight

/-- The meaning of THERMAL_TRIP: every clock stops and THERM_TRIP_N stays asserted until the supplies are removed (R570). -/
def execThermalTrip (s : State) : Host.Outcome State Fault Refusal :=
  s.act fun d =>
    if !d.pow.pwrGood then d else { d with pow := { d.pow with tripped := true, stopped := true } }.pin 2 true

/-! ### VCORE and the CORE clock (R551, R552) -/

/-- VCORE target for a clock: the lowest voltage that sustains it and 10 mV, within 550 to 750 mV (R551, R572). -/
def targetFor (khz : Nat) : Nat := max 550 (min 750 (Config.vcoreFor khz + 10))

/-- Clock in force, kHz. -/
def Dev.clock (d : Dev) : Nat := d.objD 0x2103 1 950000

/-- The meaning of VCORE_TARGET_MET: VCORE has stayed at or above the target for 100 µs. A raise that a write asked for is applied; a limited clock rises once no context is resident (R551, R552). -/
def execVcoreTargetMet (s : State) : Host.Outcome State Fault Refusal :=
  s.onDev fun d =>
    let d := { d with pow := { d.pow with vcoreMet := true } }
    match d.pow.awaiting with
    | some (khz, _, _) =>
      let d := { d with pow := { d.pow with awaiting := none } }
      ((d.setObj 0x2103 1 khz).setObj 0x2100 1 khz).setObj 0x2100 0xB 0
    | none =>
      if d.pow.mgmt ≠ 2 then d
      else if d.objD 0x2100 0xB 0 = 1 then d.clockRise
      else d.setObj 0x2103 1 d.askedClock

/-- The meaning of VCORE_TARGET_TIMEOUT: 50 ms have passed without VCORE at its target. A write's raise is refused and undone; a start's clock stays limited (R551, R552). -/
def execVcoreTargetTimeout (s : State) : Host.Outcome State Fault Refusal :=
  s.onDev fun d =>
    match d.pow.awaiting with
    | some (_, _, target) =>
      ({ d with pow := { d.pow with awaiting := none } }.setObj 0x2100 2 target).reply cBusy
    | none =>
      if d.pow.mgmt ≠ 2 ∨ d.clock = d.askedClock ∨ d.pow.vcoreMet ∨ d.objD 0x2100 0xB 0 = 1 then d
      else (d.setObj 0x2100 0xB 1).powerEvent 1

/-- Refusal of a write to power.core_clock_khz (R38, R498, R552, R572). -/
def Dev.clockCheck (d : Dev) (khz : Nat) (quiesce : Bool) : Option Code :=
  firstFail [
    (quiesce, cBadArgument),
    (khz % 50000 != 0 || decide (khz < 500000) || decide (d.gradeClock < khz), cBadArgument),
    (!d.noneResident || d.pow.awaiting.isSome, cBusy)]

/-- A write to power.core_clock_khz (R552): a lower clock first and then its target; a higher target first, answered once it is met or missed. -/
def Dev.clockWrite (d : Dev) (khz : Nat) (quiesce : Bool) : Dev :=
  match d.clockCheck khz quiesce with
  | some c => d.reply c
  | none =>
    let old := d.objD 0x2100 2 700
    if khz ≤ d.clock then
      ((((d.setObj 0x2103 1 khz).setObj 0x2100 1 khz).setObj 0x2100 2 (targetFor khz)).setObj 0x2100 0xB 0)
    else
      { (d.setObj 0x2100 2 (targetFor khz)) with
        pow := { d.pow with awaiting := some (khz, d.clock, old), vcoreMet := false }, answer := cPending }

/-- The meaning of CORE_CLOCK_WRITE. -/
def execCoreClockWrite (khz : Nat) (quiesce : Bool) (s : State) : Host.Outcome State Fault Refusal :=
  s.onDev fun d => d.clockWrite khz quiesce

/-! ### Power capping (R564, R566) -/

/-- The highest level that R564 can reach: 15, or 15 for each resident class under policy 1 (R566; log entry 32). -/
def Dev.capMax (d : Dev) : Nat := if d.objD 0x2100 6 0 = 1 then 15 * max 1 (d.classesBelow 8) else 15

/-- One 10 µs period of the power manager: the average power in W and VCORE in mV (R564). -/
def Dev.powerSample (d : Dev) (watts vcore : Nat) : Dev :=
  let d := (d.setObj 0x2100 5 watts).setObj 0x2100 3 vcore
  let d := if vcore < d.objD 0x2100 2 700 then { d with pow := { d.pow with vcoreMet := false } } else d
  let p := d.pow
  let capW := d.objD 0x2100 4 d.gradePower
  if capW < watts then
    let from_ := if d.objD 0x2100 6 0 = 1 then p.cap else max p.cap p.limit
    let d := { d with pow := { p with cap := min d.capMax (from_ + 1), below := 0 } }
    if p.cap = 0 then (d.bump 0x2100 8 1).alert 1 else d
  else if 100 * watts < 98 * capW then
    let n := p.below + 1
    let lower := decide (100 ≤ n) && n % 10 = 0
    { d with pow := { p with
      below := n, cap := if lower then p.cap - 1 else p.cap, limit := if lower then p.limit - 1 else p.limit } }
  else { d with pow := { p with below := 0 } }

/-- The meaning of POWER_SAMPLE. -/
def execPowerSample (watts vcore : Nat) (s : State) : Host.Outcome State Fault Refusal := s.onDev fun d => d.powerSample watts vcore

/-- power.throttle_level: the highest level in force from any source (R564). -/
def Dev.highestLevel (d : Dev) : Nat :=
  if d.pow.hotAll then 15 else d.pow.hot.foldl (fun m p => max m p.2.1) (max (min 15 d.pow.cap) d.pow.limit)

/-! ### Thermal limits (R305, R568, R569) -/

/-- Level of one sensor after a sample: up at once and every 100 µs above `hi`, down every 100 µs below `lo`; a sample comes every 20 µs (R568, R569). -/
def heat (old : Nat × Nat) (t hi lo : Int) : Nat × Nat :=
  if hi < t then
    if old.1 = 0 then (1, 0) else if 4 ≤ old.2 then (min 15 (old.1 + 1), 0) else (old.1, old.2 + 1)
  else if t < lo then
    if 4 ≤ old.2 then (old.1 - 1, 0) else (old.1, old.2 + 1)
  else old

/-- Two's complement of a temperature in an I16 object. -/
def i16 (t : Int) : Nat := (t % 2 ^ 16).toNat

/-- Highest of a list of readings. -/
def hottest (l : List Int) : Int := l.foldl max (l.headD 0)

/-- Levels of the sensors after a sample (R569). -/
def Dev.heated (d : Dev) (logic stack : List Int) : NMap (Nat × Nat) :=
  let one (base : Nat) (hi lo : Int) (l : List Int) : List (Nat × (Nat × Nat)) :=
    l.zipIdx.map fun p => (base + p.2, heat ((nmGet d.pow.hot (base + p.2)).getD (0, 0)) p.1 hi lo)
  (one 0 100 97 (logic.take 64) ++ one 64 95 92 (stack.take 4)).filter fun p => p.2.1 != 0

/-- DRAM dies whose part of every slice refreshes at the extended rate after a sample: each from above 85 °C until below 82 °C (R191, R194). -/
def Dev.warmAfter (d : Dev) (stack : List Int) : List Nat :=
  (stack.take 4).zipIdx.filterMap fun p => if 85 < p.1 ∨ (82 ≤ p.1 ∧ p.2 ∈ d.pow.warmDies) then some p.2 else none

/-- A sample of the sensors (R568, R569): the logic die's 64, the four DRAM dies, the LPDDR6 packages and those that report high temperature. -/
def Dev.thermalSample (d : Dev) (logic stack tier2 : List Int) (hotPkgs : Nat) : Dev :=
  let tj := hottest logic
  let d := ((d.setObj 0x2101 1 (i16 tj)).setObj 0x2101 5 (i16 (hottest stack))).setObj 0x2101 6 (i16 (hottest tier2))
  let d := (logic.take 64).zipIdx.foldl (fun d p => d.setObj 0x2102 (p.2 + 1) (i16 p.1)) d
  let warm := d.warmAfter stack
  let d := d.setObj 0x3000 5 (b2n !warm.isEmpty)
  let hot := d.heated logic stack
  let new := (hot.filter fun (p : Nat × (Nat × Nat)) => (nmGet d.pow.hot p.1).isNone).length
  let warn : Int := signed 16 (d.objD 0x2101 2 95)
  let all := (logic ++ stack).any fun t => if d.pow.hotAll then decide (100 ≤ t) else decide (105 < t)
  let warned := if d.pow.warned then decide (warn - 3 ≤ tj) else decide (warn < tj)
  let rise := warned && !d.pow.warned
  let d := { d with pow := { d.pow with hot := hot, hotAll := all, warned := warned, warmDies := warm, hotPkgs := hotPkgs } }.bump 0x2101 8 new
  if rise then ((d.bump 0x2101 7 1).powerEvent 2).alert 0 else d

/-- The meaning of THERMAL_SAMPLE. -/
def execThermalSample (logic stack tier2 : List Int) (hotPkgs : Nat) (s : State) : Host.Outcome State Fault Refusal :=
  s.onDev fun d => d.thermalSample logic stack tier2 hotPkgs

/-! ### The test access port (R537, R541, R589) -/

/-- The controller of IEEE 1149.1, after a rising edge of TCK: 0 reset, 1 idle, 2 to 8 select, capture, shift, exit 1, pause, exit 2 and update of data, 9 to 15 of the instruction. -/
def tapNext (st : Nat) (tms : Bool) : Nat :=
  match st, tms with
  | 0, true => 0
  | 0, false => 1
  | 1, true => 2
  | 1, false => 1
  | 2, true => 9
  | 2, false => 3
  | 3, true => 5
  | 3, false => 4
  | 4, true => 5
  | 4, false => 4
  | 5, true => 8
  | 5, false => 6
  | 6, true => 7
  | 6, false => 6
  | 7, true => 8
  | 7, false => 4
  | 8, true => 2
  | 8, false => 1
  | 9, true => 0
  | 9, false => 10
  | 10, true => 12
  | 10, false => 11
  | 11, true => 12
  | 11, false => 11
  | 12, true => 15
  | 12, false => 13
  | 13, true => 14
  | 13, false => 13
  | 14, true => 15
  | 14, false => 11
  | 15, true => 2
  | _, _ => 1

/-- Whether the port serves more than BYPASS and IDCODE (R537, R541). -/
def Dev.tapServes (d : Dev) : Bool := d.sec.fuses.lc = 0 || (d.sec.fuses.lc = 3 && d.pow.tapOpen)

/-- The identification register (R589). -/
def tapId : Nat := pack [(0, 1), (1, Config.jedecId % 2 ^ 11), (12, 0xB12E), (28, 1)]

/-- The instruction that a code of the instruction register selects: one that the life-cycle state does not allow selects BYPASS (R537, R589). -/
def Dev.tapSelect (d : Dev) (ir : Nat) : Nat :=
  if ir = 2 ^ Config.tapIrBits - 1 then 1 else if ir = Config.tapIdcode then 0 else if d.tapServes then 2 else 1

/-- One bit shifted through a register of n bits towards TDO. -/
def shiftIn (r n : Nat) (tdi : Bool) : Nat := r / 2 + b2n tdi * 2 ^ (n - 1)

/-- One cycle of TCK (R589): `trst` says that TRST_N is low. What a register of an instruction other than BYPASS and IDCODE holds is free (log entry 34). -/
def Dev.tapCycle (d : Dev) (tms tdi trst : Bool) : Dev :=
  if trst then { d with pow := { d.pow with tapState := 0, tapInstr := 0 } }
  else
    let p := d.pow
    let next := tapNext p.tapState tms
    let d := match p.tapState with
      | 3 =>
        match p.tapInstr with
        | 0 => { d with pow := { p with tapDr := tapId } }
        | 1 => { d with pow := { p with tapDr := 0 } }
        | _ => let (v, d) := d.fresh
          { d with pow := { p with tapDr := v } }
      | 4 => { d with pow := { p with tapDr := shiftIn p.tapDr (if p.tapInstr = 1 then 1 else 32) tdi } }.pin 4 (p.tapDr % 2 = 1)
      | 10 => { d with pow := { p with tapIr := 1 } }
      | 11 => { d with pow := { p with tapIr := shiftIn p.tapIr Config.tapIrBits tdi } }.pin 4 (p.tapIr % 2 = 1)
      | 15 => { d with pow := { p with tapInstr := d.tapSelect p.tapIr } }
      | _ => d
    { d with pow := { d.pow with tapState := next, tapInstr := if next = 0 then 0 else d.pow.tapInstr } }

/-- The meaning of TEST_ACCESS_PORT_CYCLE: TMS, TDI and TRST_N in one cycle of TCK; TDO answers on pin 4. -/
def execTestAccessPortCycle (tms tdi trst : Bool) (s : State) : Host.Outcome State Fault Refusal :=
  s.act fun d => d.tapCycle tms tdi trst

/-! ### The event log's seconds (R600) -/

/-- The meaning of EVENT_RATE_SECOND. -/
def execEventRateSecond (s : State) : Host.Outcome State Fault Refusal :=
  s.onDev fun d => { d with log := { d.log with second := [] } }

end Sys2Proof.Machine
end

