-- ==== Sys2Proof/Machine/Secure.lean ====
section
/-! DEFINITION. Signed images, owner keys, policy modules, the life cycle and attestation (R397, R525 to R545). -/

namespace Sys2Proof.Machine

/-! ### Derived keys (R526) -/

/-- Number that stands for a byte string; strings that end in zero bytes stay distinct. -/
def bytesNat (bs : List Byte) : Nat := leNat (bs ++ [1#8])

/-- Number that stands for an ASCII string. -/
def asciiNat (s : String) : Nat := bytesNat (s.toList.map fun c => BitVec.ofNat 8 c.toNat)

/-- Seed of the device identity key. -/
def Fuses.identitySeed (f : Fuses) : Nat := Config.kmac f.rootSecret (asciiNat "identity") 256 (asciiNat "LWB key")

/-- Seed of the defect-map key. -/
def Fuses.defectSeed (f : Fuses) : Nat := Config.kmac f.rootSecret (asciiNat "defect") 256 (asciiNat "LWB key")

/-- SHA3-512 of the owner root key, 0 when none (R542). -/
def ownerDigest (root : List Byte) : Nat := if root.isEmpty then 0 else (Config.sha3 root).toNat

/-- Seed of the key that signs the saved set: the configuration key in OWNED, otherwise the unowned one (R499, R526). -/
def Sec.configSeed (s : Sec) : Nat :=
  Config.kmac s.fuses.rootSecret
    (if s.fuses.lc = 2 then bytesNat (natLe (ownerDigest s.store.ownerRoot) 64) else asciiNat "unowned") 256 (asciiNat "LWB config")

/-! ### Signed images (R527 to R529) -/

/-- The parts of a signed image as bytes. -/
def imageOf (bs : List Byte) : SignedImage := ⟨bs.take 128, (bs.drop 128).take 4627, bs.drop 4755⟩

/-- The 1,024 bits of an image header. -/
def SignedImage.hdr (m : SignedImage) : Nat := leNat m.header

/-- Measurement of an image (R528). -/
def SignedImage.digest (m : SignedImage) : Nat := (Config.sha3 m.header).toNat

/-- Security version number of an image. -/
def SignedImage.svn (m : SignedImage) : Nat := bits m.hdr 63 32

/-- Whether a policy module declares the scheduling hook (R533). -/
def SignedImage.schedules (m : SignedImage) : Bool := bit m.hdr 160

/-- Limit of an image's body by kind (R528). -/
def bodyLimit (kind : Nat) : Nat := if kind = 1 then 2 ^ 24 else if kind = 2 then 2 ^ 22 else 2 ^ 20

/-- Fused SVN of a kind of image (R525). -/
def Fuses.svn (f : Fuses) (kind : Nat) : Nat := if kind = 1 then f.svnMgmt else if kind = 2 then f.svnCore else f.svnPolicy

/-- Whether a signature verifies under the Laniwaing key that the fused digest names (R529). -/
def Fuses.lwSigned (f : Fuses) (digest : BitVec 512) (sig : List Byte) : Bool :=
  (Config.sha3 Config.lwKey).toNat = f.lwDigest && Config.sigOk Config.lwKey digest sig

/-- The checks of R529, in its order, for an image expected to be of a kind. -/
def Sec.imageCheck (s : Sec) (kind : Nat) (m : SignedImage) : Option Code :=
  let h := m.hdr
  let k := bits h 23 16
  let owner := bits h 25 24 = 1
  let signed := if bits h 25 24 = 1 then Config.sigOk s.store.ownerRoot (Config.sha3 m.header) m.signature
    else s.fuses.lwSigned (Config.sha3 m.header) m.signature
  firstFail [
    (bits h 15 8 != 1, cUnsupportedVersion),
    (bits h 31 26 != 0 || bits h 1023 768 != 0 || k = 0 || decide (3 < k) || decide (1 < bits h 25 24)
      || (if k = 3 then bits h 191 161 != 0 else bits h 191 160 != 0), cReservedNonzero),
    (k != kind || bits h 25 24 != (if kind = 3 then 1 else 0) || decide (bodyLimit kind < bits h 127 64)
      || bits h 127 64 != m.body.length || m.signature.length != 4627
      || (bits h 255 192 != 0 && bits h 255 192 != s.fuses.serial), cBadArgument),
    (decide owner && s.fuses.lc != 2, cLifecycleDenied),
    (!signed || bits h 767 256 != (Config.sha3 m.body).toNat, cSignatureInvalid),
    (decide (m.svn < s.fuses.svn kind), cRollbackRefused)]

/-- An image or token is refused: counted and recorded (R529, R544). -/
def Dev.imageRefused (d : Dev) (c : Code) : Dev := { (d.bump 0x7000 0xA 1).eventDev c 15 1 0 0 with answer := c }

/-- Changes the working copy of fuses and store. -/
def Dev.updSec (d : Dev) (f : Sec → Sec) : Dev := { d with sec := f d.sec }

/-- Changes the non-volatile store. -/
def Dev.updStore (d : Dev) (f : Store → Store) : Dev := d.updSec fun s => { s with store := f s.store }

/-- Changes the fuses. -/
def Dev.updFuses (d : Dev) (f : Fuses → Fuses) : Dev := d.updSec fun s => { s with fuses := f s.fuses }

/-! ### Firmware slots and fused versions (R531, R532) -/

/-- Image of a slot: false A, true B. -/
def FwSlots.at_ (f : FwSlots) (b : Bool) : Option SignedImage := if b then f.b else f.a

/-- Whether a slot is marked good. -/
def FwSlots.good (f : FwSlots) (b : Bool) : Bool := if b then f.goodB else f.goodA

/-- Marks a slot good or not. -/
def FwSlots.mark (f : FwSlots) (b good : Bool) : FwSlots := if b then { f with goodB := good } else { f with goodA := good }

/-- Writes an image to the slot that is not in force and marks that slot next (R532). -/
def FwSlots.stage (f : FwSlots) (m : SignedImage) : FwSlots :=
  let t := !f.inForce
  { (if t then { f with b := some m } else { f with a := some m }).mark t false with next := t }

/-- Stages management firmware (kind 1) or core firmware (kind 2). -/
def Dev.stageFw (d : Dev) (kind : Nat) (bs : List Byte) : Dev :=
  let m := imageOf bs
  match d.sec.imageCheck kind m with
  | some c => d.imageRefused c
  | none => d.updStore fun t => if kind = 1 then { t with mgmt := t.mgmt.stage m } else { t with core := t.core.stage m }

/-- The meaning of FW_STAGE. -/
def execFwStage (image : List Byte) (s : State) : Host.Outcome State Fault Refusal := s.onDev fun d => d.stageFw 1 image

/-- The meaning of CORE_FW_STAGE. -/
def execCoreFwStage (image : List Byte) (s : State) : Host.Outcome State Fault Refusal := s.onDev fun d => d.stageFw 2 image

/-- SVN to which sec.svn.commit advances a kind's fuse (R532). -/
def Store.commitSvn (t : Store) (kind : Nat) : Nat :=
  if kind = 3 then t.policy.foldl (fun m p => max m p.2.svn) 0
  else
    let f := if kind = 1 then t.mgmt else t.core
    ((f.at_ f.inForce).map SignedImage.svn).getD 0

/-- A write of sec.svn.commit. -/
def Dev.svnCommit (d : Dev) (kind : Nat) : Dev :=
  let v := d.sec.store.commitSvn kind
  match kind with
  | 1 => d.updFuses fun f => { f with svnMgmt := max f.svnMgmt (min 64 v) }
  | 2 => d.updFuses fun f => { f with svnCore := max f.svnCore (min 64 v) }
  | 3 => d.updFuses fun f => { f with svnPolicy := max f.svnPolicy (min 32 v) }
  | _ => d.reply cBadArgument

/-- The meaning of SVN_COMMIT. -/
def execSvnCommit (kind : Nat) (s : State) : Host.Outcome State Fault Refusal := s.onDev fun d => d.svnCommit kind

/-! ### Policy modules (R533 to R535) -/

/-- Whether a loaded module declares the scheduling hook. -/
def Dev.hasPolicy (d : Dev) : Bool :=
  d.sec.loaded.any fun i => ((nmGet d.sec.store.policy i).map SignedImage.schedules).getD false

/-- Answers waiting scheduling events by the default policy, `n` of them (R353, R534). -/
def Dev.fallBack (fallbacks : Bool) : Nat → Dev → Dev
  | 0, d => d
  | n + 1, d => Dev.fallBack fallbacks n
      (if fallbacks then d.bump 0x5000 9 1 else d).defaultPolicy

/-- Once no loaded module declares the hook, ctx.policy is 0 and waiting events go to the default policy (R533, R534). -/
def Dev.policyGone (d : Dev) (fallbacks : Bool) : Dev :=
  if d.hasPolicy || (d.objD 0x5000 3 0 = 0 && d.schedWait = 0) then d
  else
    let n := d.schedWait
    Dev.fallBack fallbacks n ({ d with schedWait := 0 }.setObj 0x5000 3 0)

/-- Inserts a number in a rising list. -/
def insertUp (l : List Nat) (i : Nat) : List Nat := (l.filter (· < i)) ++ i :: l.filter (i < ·)

/-- A write of a policy slot: an empty one removes the module (R533). -/
def Dev.policyWrite (d : Dev) (slot : Nat) (bs : List Byte) : Dev :=
  if 8 ≤ slot then d.reply cBadArgument
  else if bs.isEmpty then
    if d.sec.fuses.lc ≠ 2 then d.reply cLifecycleDenied
    else
      (d.updSec fun s => { s with
        loaded := s.loaded.filter (· != slot)
        store := { s.store with policy := nmErase s.store.policy slot } }).policyGone false
  else
    let m := imageOf bs
    match d.sec.imageCheck 3 m with
    | some c => d.imageRefused c
    | none =>
      (d.updSec fun s => { s with
        loaded := insertUp s.loaded slot
        store := { s.store with policy := nmSet s.store.policy slot m } }).policyGone false

/-- The meaning of POLICY_WRITE. -/
def execPolicyWrite (slot : Nat) (image : List Byte) (s : State) : Host.Outcome State Fault Refusal :=
  s.onDev fun d => d.policyWrite slot image

/-- A module faults or exceeds its partition: it is unloaded and its events pass to the default policy (R353, R534). -/
def Dev.policyFault (d : Dev) (slot : Nat) : Dev :=
  if !d.sec.loaded.contains slot then d
  else
    ((d.updSec fun s => { s with loaded := s.loaded.filter (· != slot) }).eventDev cStateInvalid 15 0 0 0).policyGone true

/-- The meaning of POLICY_MODULE_FAULT. -/
def execPolicyModuleFault (slot : Nat) (s : State) : Host.Outcome State Fault Refusal := s.onDev fun d => d.policyFault slot

/-- A rotation of the owner root key: the new key, then the current root's signature over its digest (R535). -/
def Dev.ownerRotate (d : Dev) (bs : List Byte) : Dev :=
  let key := bs.take 2592
  if bs.length ≠ 7219 then d.reply cBadArgument
  else if d.sec.fuses.lc ≠ 2 then d.reply cLifecycleDenied
  else if !Config.sigOk d.sec.store.ownerRoot (Config.sha3 key) (bs.drop 2592) then d.reply cSignatureInvalid
  else
    let old := d.sec.configSeed
    let d := d.updStore fun t => { t with ownerRoot := key }
    if d.sec.store.savedKey = old then d.updStore fun t => { t with savedKey := d.sec.configSeed } else d

/-- The meaning of OWNER_ROTATE. -/
def execOwnerRotate (rotation : List Byte) (s : State) : Host.Outcome State Fault Refusal := s.onDev fun d => d.ownerRotate rotation

/-! ### Sessions, as far as the life cycle acts on them (R512, R540) -/

/-- An open session. -/
def Dev.session? (d : Dev) (id : Nat) : Option Session := d.dop.sessions.find? fun s => s.id = id && s.isOpen

/-- Changes a session. -/
def Dev.updSession (d : Dev) (id : Nat) (f : Session → Session) : Dev :=
  { d with dop := { d.dop with sessions := d.dop.sessions.map fun s => if s.id = id then f s else s } }

/-- Closes the sessions that a condition names; their stages, subscriptions and transfers go with them (R512). -/
def Dev.closeSessions (d : Dev) (f : Session → Bool) : Dev :=
  { d with dop := { d.dop with sessions := d.dop.sessions.filter fun s => !f s } }

/-- Remembers the status of the most recent request of an object (R355, R545). -/
def Dev.opDone (d : Dev) (key : Nat) (code : Code) : Dev :=
  { d with dop := { d.dop with ops := nmSet d.dop.ops key (LongOp.ends ⟨2, 0, cPending, 0, 0, 0, 0⟩ code) } }

/-! ### The life cycle (R536 to R541, R545) -/

/-- Checks of a token in the order of R529: its kind, the signatures it must carry as in sigs, and the claim key with kind 3 (R539). -/
def Sec.tokenCheck (s : Sec) (kind sigs : Nat) (bs : List Byte) : Option Code :=
  let h := leNat (bs.take 128)
  let body := if bits h 23 16 = 3 then 2720 else 128
  let given := bits h 25 24
  let lwAt := (bs.drop body).take 4627
  let ownerAt := (bs.drop (body + 4627 * b2n (bit given 0))).take 4627
  let upTo (n : Nat) : BitVec 512 := Config.sha3 (bs.take n)
  firstFail [
    (bits h 15 8 != 1, cUnsupportedVersion),
    (bits h 63 26 != 0 || bits h 1023 132 != 0 || bits h 23 16 = 0 || decide (3 < bits h 23 16), cReservedNonzero),
    (bits h 127 64 != s.fuses.serial || bits h 131 128 != s.fuses.returns || bits h 23 16 != kind
      || bs.length != body + 4627 * (b2n (bit given 0) + b2n (bit given 1)), cBadArgument),
    ((bit sigs 0 && !bit given 0) || (bit sigs 1 && !bit given 1)
      || (bit given 0 && !s.fuses.lwSigned (upTo body) lwAt)
      || (bit given 1 && !Config.sigOk s.store.ownerRoot (upTo (body + 4627 * b2n (bit given 0))) ownerAt), cSignatureInvalid)]

/-- Steps 4 to 6 of R540: owner secrets, near store and tier 2 are erased and the mark is set. -/
def Dev.eraseOwner (d : Dev) : Dev :=
  let d := d.updStore fun t => { t with ownerRoot := [], policy := [], saved := [], savedKey := 0, savedTime := 0, erased := true }
  let cores : NMap Core := d.cores.map fun p => (p.1, { p.2 with mem := { p.2.mem with near := [], badNear := [], chkNear := [] } })
  { d with
    cores := cores.filter fun p => p.2 != clearCore
    t2 := { d.t2 with mem := [], badBlocks := [] }, ckpts := [], buddies := []
    dop := { d.dop with keys := [] }, rack := { d.rack with keys := [] }
    sec := { d.sec with loaded := [] }
    objs := nmErase (nmErase d.objs (okey 0x1001 1)) (okey 0x1001 2) }

/-- Steps 1 to 7 of R540 for entry into a state; the counter of returns rises at each entry into RETURNED (R525). -/
def Dev.leaveOwned (d : Dev) (session : Nat) (to_ : Nat) : Dev :=
  let d := d.preemptAll.closeSessions fun s => s.id != session
  let d := d.updFuses fun f => { f with
    lc := to_
    returns := if to_ = 3 then min 4 (f.returns + 1) else f.returns
    rootSecret := if to_ = 4 then 2 ^ 256 - 1 else f.rootSecret }
  (d.eraseOwner.setObj 0x6105 3 0).plainStart false

/-- Entry into SHIPPED with a claim key: the device holds that key alone, in force and in its saved set, and no Vendor session stays open (R536 to R538, R545). -/
def Dev.enterShipped (d : Dev) (entry : List Byte) (reship : Bool) : Dev :=
  let d := d.updFuses fun f => { f with lc := 1 }
  let d := d.closeSessions fun s => s.role = 3 || s.key != 0
  let d := { d with
    dop := { d.dop with keys := [(0, entry)] }
    keep := if reship then { d.keep with replace := 0 } else d.keep }
  d.updStore fun t => { t with
    saved := nmSet ((if t.savedKey = d.sec.configSeed then t.saved else []).filter fun p => p.1 / 256 != 0x1101) (okey 0x1101 1) (bytesNat entry)
    savedKey := d.sec.configSeed, erased := false }

/-- The request of a session to change the life-cycle state, refused to a lower role than the table names (R492, R538). -/
def Dev.lcAsk (d : Dev) (session role key : Nat) (f : Dev → Dev) : Dev :=
  match d.session? session with
  | none => d
  | some s => if s.role < role then d.reply cRoleInsufficient
    else
      let e := f d
      if e.pow.mgmt = 2 then e.opDone key e.answer else e

/-- A token refused, or the transition that it serves. -/
def Dev.withToken (d : Dev) (kind sigs : Nat) (bs : List Byte) (f : Dev → Dev) : Dev :=
  match d.sec.tokenCheck kind sigs bs with
  | some c => d.imageRefused c
  | none => f d

/-- A write of sec.lc.ship (R538). -/
def Dev.lcShip (d : Dev) (bs : List Byte) : Dev :=
  match d.sec.fuses.lc with
  | 0 =>
    match bs, nmGet d.dop.keys 0 with
    | [], some e => d.enterShipped e false
    | [], none => d.reply cStateInvalid
    | _, _ => d.reply cBadArgument
  | 3 =>
    if 4 ≤ d.sec.fuses.returns then d.reply cLifecycleDenied
    else d.withToken 3 1 bs fun d => d.enterShipped (natLe 2 8 ++ (bs.drop 128).take 2592) true
  | _ => d.reply cLifecycleDenied

/-- The meaning of LC_SHIP. -/
def execLcShip (session : Nat) (token : List Byte) (s : State) : Host.Outcome State Fault Refusal :=
  s.onDev fun d => d.lcAsk session 3 (okey 0x7004 1) fun d => d.lcShip token

/-- A write of sec.lc.claim (R538). -/
def Dev.lcClaim (d : Dev) (key : List Byte) : Dev :=
  if key.length ≠ 2592 then d.reply cBadArgument
  else if d.sec.fuses.lc ≠ 1 then d.reply cLifecycleDenied
  else (d.updFuses fun f => { f with lc := 2 }).updStore fun t => { t with ownerRoot := key }

/-- The meaning of LC_CLAIM. -/
def execLcClaim (session : Nat) (key : List Byte) (s : State) : Host.Outcome State Fault Refusal :=
  s.onDev fun d => d.lcAsk session 2 (okey 0x7004 2) fun d => d.lcClaim key

/-- A write of sec.lc.return (R538, R540). -/
def Dev.lcReturn (d : Dev) (session : Nat) (bs : List Byte) : Dev :=
  if d.sec.fuses.lc ≠ 2 then d.reply cLifecycleDenied else d.withToken 1 3 bs fun d => d.leaveOwned session 3

/-- The meaning of LC_RETURN. -/
def execLcReturn (session : Nat) (token : List Byte) (s : State) : Host.Outcome State Fault Refusal :=
  s.onDev fun d => d.lcAsk session 2 (okey 0x7004 3) fun d => d.lcReturn session token

/-- A write of sec.lc.scrap: from OWNED as R540 states, else the identity is destroyed and firmware runs no more (R537, R538). -/
def Dev.lcScrap (d : Dev) (session : Nat) (bs : List Byte) : Dev :=
  match d.sec.fuses.lc with
  | 2 => d.withToken 2 2 bs fun d => d.leaveOwned session 4
  | 1 | 3 =>
    if ((d.session? session).map (·.role)).getD 0 < 3 then d.reply cRoleInsufficient
    else d.withToken 2 1 bs fun d =>
      ((d.updFuses fun f => { f with lc := 4, rootSecret := 2 ^ 256 - 1 }).preemptAll.closeSessions fun _ => true).romAlone
  | _ => d.reply cLifecycleDenied

/-- The meaning of LC_SCRAP. -/
def execLcScrap (session : Nat) (token : List Byte) (s : State) : Host.Outcome State Fault Refusal :=
  s.onDev fun d => d.lcAsk session 2 (okey 0x7004 4) fun d => d.lcScrap session token

/-- A write of sec.tap.unlock (R541). -/
def Dev.tapUnlock (d : Dev) (value : Nat) : Dev :=
  if value ≠ 1 then d.reply cBadArgument
  else if d.sec.fuses.lc ≠ 3 then d.reply cLifecycleDenied
  else { d with pow := { d.pow with tapOpen := true } }

/-- The meaning of TAP_UNLOCK. -/
def execTapUnlock (session value : Nat) (s : State) : Host.Outcome State Fault Refusal :=
  s.onDev fun d => d.lcAsk session 3 (okey 0x7004 5) fun d => d.tapUnlock value

/-! ### Attestation (R542, R543) -/

/-- A write of sec.attest.nonce: the nonce of the writing session. -/
def Dev.attestNonce (d : Dev) (session : Nat) (nonce : List Byte) : Dev :=
  if nonce.length ≠ 64 then d.reply cBadArgument else d.updSession session fun s => { s with nonce := some nonce }

/-- The meaning of ATTEST_NONCE. -/
def execAttestNonce (session : Nat) (nonce : List Byte) (s : State) : Host.Outcome State Fault Refusal :=
  s.onDev fun d => match d.session? session with
    | none => d
    | some _ => d.attestNonce session nonce

/-- SHA3-512 of the measurements of the loaded policy modules in slot order; 0 when none (R544). -/
def Dev.policyDigest (d : Dev) : Nat :=
  if d.sec.loaded.isEmpty then 0
  else (Config.sha3 (d.sec.loaded.flatMap fun i => natLe (((nmGet d.sec.store.policy i).map SignedImage.digest).getD 0) 64)).toNat

end Sys2Proof.Machine
end

