-- ==== Sys2Proof/Machine/Objects.lean ====
section
/-! DEFINITION. The object dictionary: its rows and what each object reads as (R489 to R494, R499, R517, R596, R601 and the chapters' object tables). -/

namespace Sys2Proof.Machine

/-! ### Rows (R489 to R493, R495) -/

/-- A row of an object table. Type and access carry the codes of R490 and R491, role that of R492; apply is 0 none, 1 Immediate, 2 Gate, 3 Epoch, 4 Quiesce, 5 Reset (R506). `len` is the type's length, or the maximum of a DOMAIN. -/
structure ObjDef where
  index : Nat
  lo : Nat
  hi : Nat
  type : Nat
  len : Nat
  access : Nat
  role : Nat
  apply : Nat
  dflt : Nat
  counter : Bool
deriving DecidableEq, Repr

/-- The entry count at sub-index 0 of a RECORD or ARRAY. -/
def cnt (i n : Nat) : ObjDef := ⟨i, 0, 0, 2, 1, 0, 0, 0, n, false⟩

/-- A counter, cleared by writing 0. -/
def ctr (i s : Nat) : ObjDef := ⟨i, s, s, 5, 8, 2, 1, 1, 0, true⟩

/-- Counters at consecutive sub-indices. -/
def ctrs (i lo hi : Nat) : ObjDef := ⟨i, lo, hi, 5, 8, 2, 1, 1, 0, true⟩

/-- A read-only Observer object. -/
def ro (i lo hi type len dflt : Nat) : ObjDef := ⟨i, lo, hi, type, len, 0, 0, 0, dflt, false⟩

/-- A writable object. -/
def rw (i lo hi type len access role apply dflt : Nat) : ObjDef := ⟨i, lo, hi, type, len, access, role, apply, dflt, false⟩

/-- Rows device.shape.count to device.spare.fenced of the object tables. -/
def objs01 : List ObjDef :=
  [cnt 0x2000 9, ro 0x2000 1 1 2 1 60, ro 0x2000 2 2 2 1 64, ro 0x2000 3 3 2 1 30, ro 0x2000 4 4 2 1 32, ro 0x2000 5 5 3 2 3840, ro 0x2000 6 6 2 1 64,
   ro 0x2000 7 7 2 1 64, ro 0x2000 8 8 2 1 255, rw 0x2000 9 9 1 1 2 2 1 0, cnt 0x2001 7, ro 0x2001 1 1 2 1 0, ro 0x2001 2 2 2 1 177,
   ro 0x2001 3 3 4 4 0, ro 0x2001 4 4 3 2 0, ro 0x2001 5 5 3 2 0, ro 0x2001 6 6 2 1 0, ro 0x2001 7 7 4 4 0, cnt 0x2002 32, ro 0x2002 1 32 4 4 0,
   cnt 0x2003 32, ro 0x2003 1 32 4 4 0, cnt 0x2004 4, ro 0x2004 1 1 2 1 0, ro 0x2004 2 2 2 1 0, ro 0x2004 3 3 4 4 0, ro 0x2004 4 4 3 2 0]

/-- Rows arith.count to arith.act.default.sigmoid of the object tables. -/
def objs04 : List ObjDef :=
  [cnt 0x4000 8, ro 0x4000 1 1 3 2 2047, ro 0x4000 2 2 2 1 30, rw 0x4000 3 3 2 1 2 2 2 0, ctr 0x4000 4, ctr 0x4000 5, ctr 0x4000 6, ctr 0x4000 7,
   ctr 0x4000 8, cnt 0x4001 4, ro 0x4001 1 1 14 1312 0, ro 0x4001 2 2 14 1312 0, ro 0x4001 3 3 14 1312 0, ro 0x4001 4 4 14 1312 0]

/-- Rows sparse.count to sparse.spill_exhausted of the object tables. -/
def objs05 : List ObjDef :=
  [cnt 0x4100 9, rw 0x4100 1 1 3 2 2 2 1 384, rw 0x4100 2 2 3 2 2 2 1 1024, ctr 0x4100 3, ctr 0x4100 4, ctr 0x4100 5, ctr 0x4100 6, ctr 0x4100 7,
   ctr 0x4100 8, ctr 0x4100 9]

/-- Rows near.count to near.slice.corrected of the object tables. -/
def objs06 : List ObjDef :=
  [cnt 0x3000 12, ro 0x3000 1 1 4 4 0x1800000, ro 0x3000 2 2 3 2 1024, ro 0x3000 3 3 3 2 492, ro 0x3000 4 4 3 2 0, ro 0x3000 5 5 1 1 0,
   rw 0x3000 6 6 2 1 2 2 1 4, rw 0x3000 7 7 1 1 2 2 1 1, ctr 0x3000 8, ctr 0x3000 9, ro 0x3000 10 10 4 4 0, ctr 0x3000 11, ctr 0x3000 12,
   cnt 0x3001 2, ctr 0x3001 1, ctr 0x3001 2, cnt 0x3002 2, rw 0x3002 1 1 2 1 2 0 1 0, rw 0x3002 2 2 2 1 2 0 1 0, cnt 0x3003 4, ro 0x3003 1 1 2 1 0,
   ro 0x3003 2 2 3 2 0, ro 0x3003 3 3 3 2 0, ro 0x3003 4 4 4 4 0]

/-- Rows mesh.count to mesh.station.cur of the object tables. -/
def objs07 : List ObjDef :=
  [cnt 0x4200 13, ro 0x4200 1 1 2 1 0, ro 0x4200 2 2 4 4 0, rw 0x4200 3 3 2 1 4 2 3 0, ctr 0x4200 4, ctr 0x4200 5, ctr 0x4200 6, ctr 0x4200 7,
   ctr 0x4200 8, ctr 0x4200 9, ctr 0x4200 10, ctr 0x4200 11, ctr 0x4200 12, ctr 0x4200 13, cnt 0x4201 255, rw 0x4201 1 255 4 4 2 2 3 0,
   cnt 0x4202 255, ro 0x4202 1 255 4 4 0]

/-- Rows chan.count to chan.ring_resets of the object tables. -/
def objs08 : List ObjDef :=
  [cnt 0x4300 9, ctr 0x4300 1, ctr 0x4300 2, ctr 0x4300 3, ctr 0x4300 4, ctr 0x4300 5, ctr 0x4300 6, ctr 0x4300 7, ctr 0x4300 8, ctr 0x4300 9]

/-- Rows gear.count to gear.load.go of the object tables. -/
def objs09 : List ObjDef :=
  [cnt 0x4400 12, ctr 0x4400 1, ctr 0x4400 2, ctr 0x4400 3, ctr 0x4400 4, ctr 0x4400 5, ctr 0x4400 6, ctr 0x4400 7, ctr 0x4400 8, ctr 0x4400 9,
   ctr 0x4400 10, ctr 0x4400 11, ctr 0x4400 12, cnt 0x4401 2, rw 0x4401 1 1 2 1 2 0 1 0, rw 0x4401 2 2 2 1 2 0 1 0, cnt 0x4402 6, ro 0x4402 1 1 2 1 0,
   ro 0x4402 2 2 2 1 0, ro 0x4402 3 3 5 8 0, ro 0x4402 4 4 5 8 0, ro 0x4402 5 5 2 1 0, ro 0x4402 6 6 4 4 0, cnt 0x4403 7, rw 0x4403 1 1 3 2 2 1 1 0,
   rw 0x4403 2 2 2 1 2 1 1 0, rw 0x4403 3 3 2 1 2 1 1 0, rw 0x4403 4 4 2 1 2 1 1 0, rw 0x4403 5 5 2 1 2 1 1 0, rw 0x4403 6 6 2 1 2 1 1 0,
   rw 0x4403 7 7 4 4 4 1 1 0]

/-- Rows mem.count to pager.migrate.go of the object tables. -/
def objs10 : List ObjDef :=
  [cnt 0x3100 7, rw 0x3100 1 1 3 2 2 2 5 0, ro 0x3100 2 2 5 8 0x23ee0000000, ctr 0x3100 3, ctr 0x3100 4, ctr 0x3100 5, ctr 0x3100 6,
   ro 0x3100 7 7 4 4 0, cnt 0x3101 11, ro 0x3101 1 1 4 4 0, ro 0x3101 2 2 4 4 0, ro 0x3101 3 3 4 4 0, rw 0x3101 4 4 4 4 2 2 1 2000,
   rw 0x3101 5 5 2 1 2 2 1 2, ctr 0x3101 6, ctr 0x3101 7, ctr 0x3101 8, ctr 0x3101 9, ctr 0x3101 10, ctr 0x3101 11, cnt 0x3102 4, ctr 0x3102 1,
   ctr 0x3102 2, ctr 0x3102 3, ctr 0x3102 4, cnt 0x3103 4, rw 0x3103 1 1 3 2 2 1 1 0, rw 0x3103 2 2 5 8 2 1 1 0, rw 0x3103 3 3 5 8 2 1 1 0,
   rw 0x3103 4 4 4 4 4 1 1 0]

/-- Rows ctx.count to ctx.op.count of the object tables. -/
def objs11a : List ObjDef :=
  [cnt 0x5000 10, ro 0x5000 1 1 3 2 0x4000, ro 0x5000 2 2 3 2 0, rw 0x5000 3 3 2 1 2 2 1 0, rw 0x5000 4 4 4 4 2 2 1 50, rw 0x5000 5 5 3 2 2 2 1 100,
   ctr 0x5000 6, ctr 0x5000 7, ctr 0x5000 8, ctr 0x5000 9, ctr 0x5000 10, cnt 0x5001 8, rw 0x5001 1 8 2 1 2 2 1 0, cnt 0x5002 5,
   rw 0x5002 1 1 3 2 2 1 1 0, rw 0x5002 2 2 2 1 2 1 1 0, rw 0x5002 3 3 5 8 2 1 1 0, rw 0x5002 4 4 5 8 2 1 1 0, rw 0x5002 5 5 4 4 4 1 1 0,
   cnt 0x5100 1, rw 0x5100 1 1 3 2 2 0 1 0, cnt 0x5101 10, ro 0x5101 1 1 2 1 0, rw 0x5101 2 2 2 1 2 1 1 0, ro 0x5101 3 3 2 1 0,
   rw 0x5101 4 4 4 4 2 1 1 0, rw 0x5101 5 5 4 4 2 1 1 2000, rw 0x5101 6 6 4 4 2 1 1 0x2710, ro 0x5101 7 7 3 2 0, ro 0x5101 8 8 5 8 0,
   ro 0x5101 9 9 5 8 0, ro 0x5101 10 10 5 8 0, cnt 0x5102 6, rw 0x5102 1 1 2 1 4 1 1 0, rw 0x5102 2 2 2 1 4 1 1 0, rw 0x5102 3 3 2 1 4 1 1 0,
   rw 0x5102 4 4 2 1 4 1 1 0, rw 0x5102 5 5 2 1 4 2 1 0, rw 0x5102 6 6 4 4 4 1 1 0, cnt 0x5103 1]

/-- Rows ctx.op.results to ctx.op.results of the object tables. -/
def objs11b : List ObjDef :=
  [ro 0x5103 1 1 14 4294967295 0]

/-- Rows integ.count to integ.last.replayed of the object tables. -/
def objs12 : List ObjDef :=
  [cnt 0x6000 16, rw 0x6000 1 1 4 4 2 2 2 0x4e20, rw 0x6000 2 2 2 1 2 2 1 3, ctr 0x6000 3, ctr 0x6000 4, ctr 0x6000 5, ctr 0x6000 6, ctr 0x6000 7,
   ctr 0x6000 8, ctr 0x6000 9, ctr 0x6000 10, ctr 0x6000 11, ctr 0x6000 12, ctr 0x6000 13, ctr 0x6000 14, ctr 0x6000 15, ctr 0x6000 16, cnt 0x6001 11,
   ro 0x6001 1 1 4 4 0, ro 0x6001 2 2 3 2 0, ro 0x6001 3 3 4 4 0, ro 0x6001 4 4 3 2 0, ro 0x6001 5 5 4 4 0, ro 0x6001 6 6 3 2 0, ro 0x6001 7 7 3 2 0,
   ro 0x6001 8 8 4 4 0, ro 0x6001 9 9 5 8 0, ro 0x6001 10 10 5 8 0, ro 0x6001 11 11 5 8 0]

/-- Rows groom.count to recover.keep_tier2 of the object tables. -/
def objs13a : List ObjDef :=
  [cnt 0x6100 15, rw 0x6100 1 1 1 1 2 2 1 1, rw 0x6100 2 2 4 4 2 2 1 200, rw 0x6100 3 3 4 4 2 2 1 0x1388, rw 0x6100 4 4 3 2 2 2 1 60,
   rw 0x6100 5 5 2 1 2 2 1 6, rw 0x6100 6 6 4 4 2 2 1 2000, ro 0x6100 7 7 3 2 0, ro 0x6100 8 8 4 4 0, ro 0x6100 9 9 4 4 0, ctr 0x6100 10,
   ctr 0x6100 11, ctr 0x6100 12, ctr 0x6100 13, ctr 0x6100 14, ctr 0x6100 15, cnt 0x6101 4, rw 0x6101 1 1 3 2 2 2 1 24, ctr 0x6101 2, ctr 0x6101 3,
   ctr 0x6101 4, cnt 0x6102 4, rw 0x6102 1 1 3 2 4 2 2 0, ctr 0x6102 2, ro 0x6102 3 3 3 2 0, ro 0x6102 4 4 14 4294967295 0, cnt 0x6103 5,
   ro 0x6103 1 1 4 4 0, ro 0x6103 2 2 4 4 0x4000, ro 0x6103 3 3 4 4 0, ro 0x6103 4 4 14 4294967295 0, ro 0x6103 5 5 13 64 0, cnt 0x6104 3,
   rw 0x6104 1 1 2 1 2 1 1 0, rw 0x6104 2 2 2 1 2 2 1 7, ctr 0x6104 3, cnt 0x6105 9, rw 0x6105 1 1 4 4 4 1 1 0, rw 0x6105 2 2 2 1 4 2 1 0,
   rw 0x6105 3 3 1 1 2 2 1 0]

/-- Rows recover.auto to heal.replace of the object tables. -/
def objs13b : List ObjDef :=
  [rw 0x6105 4 4 1 1 2 2 1 1, rw 0x6105 5 5 4 4 4 1 1 0, rw 0x6105 6 6 4 4 4 1 1 0, rw 0x6105 7 7 4 4 4 1 1 0, ro 0x6105 8 8 2 1 0,
   ro 0x6105 9 9 3 2 0]

/-- Rows link.count to membership.refused of the object tables. -/
def objs14a : List ObjDef :=
  [cnt 0x2A00 10, rw 0x2A00 1 1 2 1 2 2 1 1, rw 0x2A00 2 2 3 2 2 2 1 100, rw 0x2A00 3 3 3 2 2 2 1 1, rw 0x2A00 4 4 4 4 2 2 1 1000,
   rw 0x2A00 5 5 4 4 2 2 1 500, ro 0x2A00 6 6 4 4 0, ro 0x2A00 7 7 1 1 0, ctr 0x2A00 8, ctr 0x2A00 9, ctr 0x2A00 10, cnt 0x2A01 5,
   rw 0x2A01 1 1 3 2 2 2 3 0xffff, rw 0x2A01 2 2 5 8 2 2 3 0, rw 0x2A01 3 3 14 8192 2 2 3 0, ro 0x2A01 4 4 14 8192 0, ctr 0x2A01 5, cnt 0x2B00 11,
   ro 0x2B00 1 1 2 1 0, ro 0x2B00 2 2 2 1 0, ro 0x2B00 3 3 2 1 1, rw 0x2B00 4 4 1 1 2 2 1 1, rw 0x2B00 5 5 2 1 2 2 5 0, rw 0x2B00 6 6 2 1 2 2 3 7,
   rw 0x2B00 7 7 2 1 4 2 1 0, ro 0x2B00 8 8 3 2 0, ctr 0x2B00 9, ctr 0x2B00 10, ro 0x2B00 11 11 9 8 0, cnt 0x2B40 1, ro 0x2B40 1 1 13 128 0,
   cnt 0x6200 8, ro 0x6200 1 1 4 4 0, rw 0x6200 2 2 2 1 2 2 1 1, rw 0x6200 3 3 14 18144 2 2 1 0, rw 0x6200 4 4 5 8 2 2 5 0,
   rw 0x6200 5 5 14 33000 2 1 1 0, ro 0x6200 6 6 13 512 0, ro 0x6200 7 7 1 1 0, ctr 0x6200 8]

/-- Rows log.count to lease of the object tables. -/
def objs14b : List ObjDef :=
  [cnt 0x6201 5, rw 0x6201 1 1 3 2 2 2 5 64, ro 0x6201 2 2 5 8 0, ctr 0x6201 3, ctr 0x6201 4, ctr 0x6201 5, cnt 0x6202 7, rw 0x6202 1 1 3 2 2 2 5 256,
   rw 0x6202 2 2 3 2 2 2 5 128, rw 0x6202 3 3 3 2 2 1 1 0xffff, rw 0x6202 4 4 4 4 2 1 1 0, rw 0x6202 5 5 4 4 4 1 1 0, ro 0x6202 6 6 4 4 0,
   rw 0x6202 7 7 3 2 2 1 1 0xfffe, cnt 0x6203 64, rw 0x6203 1 64 4 4 2 1 1 0, cnt 0x6204 64, rw 0x6204 1 64 13 16 2 2 1 0]

/-- Rows eth.count to eth.sendq.dropped of the object tables. -/
def objs15 : List ObjDef :=
  [cnt 0x2800 14, rw 0x2800 1 1 2 1 2 2 5 0, ro 0x2800 2 2 2 1 0, ro 0x2800 3 3 13 6 0, rw 0x2800 4 4 4 4 2 2 4 0, rw 0x2800 5 5 13 16 2 2 4 0,
   rw 0x2800 6 6 3 2 2 2 1 0xffff, rw 0x2800 7 7 2 1 2 2 4 67, rw 0x2800 8 8 12 32 2 2 1 0, ro 0x2800 9 9 13 64 0, rw 0x2800 10 10 4 4 2 2 1 55,
   rw 0x2800 11 11 13 32 2 2 1 0, ctr 0x2800 12, ctr 0x2800 13, ro 0x2800 14 14 9 8 0, cnt 0x2801 1, rw 0x2801 1 1 3 2 2 0 1 0, cnt 0x2802 9,
   ro 0x2802 1 1 2 1 0, rw 0x2802 2 2 13 16 2 1 4 0, rw 0x2802 3 3 4 4 2 1 4 0, rw 0x2802 4 4 13 6 2 1 4 0,
   rw 0x2802 5 5 5 8 2 1 4 0x72ee000000000000, rw 0x2802 6 6 3 2 2 1 4 0xffff, ro 0x2802 7 7 4 4 0, rw 0x2802 8 8 2 1 4 1 1 0, ctr 0x2802 9,
   cnt 0x2803 12, rw 0x2803 1 1 14 16384 2 2 3 0, ro 0x2803 2 2 14 16384 0, rw 0x2803 3 3 2 1 4 2 3 0, rw 0x2803 4 4 3 2 2 2 5 256, ctr 0x2803 5,
   ctr 0x2803 6, ctr 0x2803 7, ctr 0x2803 8, rw 0x2803 9 9 3 2 2 2 1 1024, rw 0x2803 10 10 4 4 2 2 1 100, rw 0x2803 11 11 13 6 2 2 1 0, ctr 0x2803 12]

/-- Rows ident.count to i3c.enable of the object tables. -/
def objs16 : List ObjDef :=
  [cnt 0x1000 11, ro 0x1000 1 1 12 16 0x676e696177696e614c, ro 0x1000 2 2 12 16 0x72696d78697242, ro 0x1000 3 3 5 8 0, ro 0x1000 4 4 3 2 256,
   ro 0x1000 5 5 3 2 256, ro 0x1000 6 6 3 2 256, ro 0x1000 7 7 3 2 256, ro 0x1000 8 8 4 4 0, ro 0x1000 9 9 13 64 0, ro 0x1000 10 10 13 64 0,
   ro 0x1000 11 11 3 2 256, cnt 0x1001 4, ro 0x1001 1 1 13 256 0, rw 0x1001 2 2 13 256 2 2 3 0, rw 0x1001 3 3 4 4 2 2 1 0, rw 0x1001 4 4 2 1 4 2 3 0,
   cnt 0x1002 2, rw 0x1002 1 1 2 1 4 2 1 0, ro 0x1002 2 2 5 8 0, cnt 0x1100 10, rw 0x1100 1 1 3 2 2 2 5 0x18a6, rw 0x1100 2 2 1 1 2 2 1 1,
   rw 0x1100 3 3 1 1 2 2 1 0, rw 0x1100 4 4 3 2 2 2 1 300, ro 0x1100 5 5 2 1 0, ctr 0x1100 6, ctr 0x1100 7, ctr 0x1100 8, ctr 0x1100 9, ctr 0x1100 10,
   cnt 0x1101 16, rw 0x1101 1 16 14 2600 2 2 1 0, cnt 0x1102 64, ro 0x1102 1 64 13 16 0, cnt 0x1103 1, rw 0x1103 1 1 1 1 2 2 5 1]

/-- Rows sec.count to sec.tap.unlock of the object tables. -/
def objs17 : List ObjDef :=
  [cnt 0x7000 10, ro 0x7000 1 1 2 1 0, ro 0x7000 2 2 2 1 0, ro 0x7000 3 3 4 4 0, rw 0x7000 4 4 2 1 4 2 1 0, ro 0x7000 5 5 2 1 0,
   ro 0x7000 6 6 13 64 0, ro 0x7000 7 7 13 64 0, rw 0x7000 8 8 13 64 1 0 1 0, ro 0x7000 9 9 14 5139 0, ctr 0x7000 10, cnt 0x7001 3,
   rw 0x7001 1 1 14 16781971 1 2 1 0, rw 0x7001 2 2 14 4199059 1 2 1 0, ro 0x7001 3 3 14 22041 0, cnt 0x7002 8, rw 0x7002 1 8 14 1053331 2 2 1 0,
   cnt 0x7003 2, ro 0x7003 1 1 13 2592 0, rw 0x7003 2 2 14 7219 1 2 1 0, cnt 0x7004 5, rw 0x7004 1 1 14 7347 1 3 1 0, rw 0x7004 2 2 14 2592 1 2 1 0,
   rw 0x7004 3 3 14 9382 1 2 1 0, rw 0x7004 4 4 14 9382 1 2 1 0, rw 0x7004 5 5 2 1 4 3 1 0]

/-- Rows power.count to start.defects of the object tables. -/
def objs18 : List ObjDef :=
  [cnt 0x2100 11, rw 0x2100 1 1 4 4 2 2 4 0, ro 0x2100 2 2 3 2 700, ro 0x2100 3 3 3 2 0, rw 0x2100 4 4 3 2 2 2 1 0, ro 0x2100 5 5 3 2 0,
   rw 0x2100 6 6 2 1 2 2 1 0, ro 0x2100 7 7 2 1 0, ctr 0x2100 8, ctr 0x2100 9, ctr 0x2100 10, ro 0x2100 11 11 1 1 0, cnt 0x2101 8,
   ro 0x2101 1 1 7 2 0, rw 0x2101 2 2 7 2 2 2 1 95, ro 0x2101 3 3 7 2 100, ro 0x2101 4 4 7 2 110, ro 0x2101 5 5 7 2 0, ro 0x2101 6 6 7 2 0,
   ctr 0x2101 7, ctr 0x2101 8, cnt 0x2102 64, ro 0x2102 1 64 7 2 0, cnt 0x2103 5, ro 0x2103 1 1 4 4 0xe7ef0, ro 0x2103 2 2 4 4 0x73f78,
   ro 0x2103 3 3 4 4 0xdbba0, ro 0x2103 4 4 4 4 0xbebc2, ctr 0x2103 5, cnt 0x2104 5, ro 0x2104 1 1 2 1 0, ro 0x2104 2 2 2 1 1, ro 0x2104 3 3 4 4 0,
   rw 0x2104 4 4 1 1 2 2 5 0, ro 0x2104 5 5 4 4 0]

/-- Rows event.count to event.class of the object tables. -/
def objs20 : List ObjDef :=
  [cnt 0x1800 8, ro 0x1800 1 1 4 4 0, ro 0x1800 2 2 4 4 0xffffffff, ro 0x1800 3 3 4 4 0x2000, rw 0x1800 4 4 4 4 2 0 1 0, ro 0x1800 5 5 14 8192 0,
   ctr 0x1800 6, ctr 0x1800 7, rw 0x1800 8 8 3 2 2 2 1 1000, cnt 0x1801 11, ctrs 0x1801 1 11]

/-- The objects of the dictionary, in the chapters' order (R489, R493). -/
def objTable : List ObjDef :=
  objs01 ++ objs04 ++ objs05 ++ objs06 ++ objs07 ++ objs08 ++ objs09 ++ objs10 ++ objs11a ++ objs11b ++ objs12 ++ objs13a ++ objs13b ++ objs14a ++ objs14b ++ objs15 ++ objs16 ++ objs17 ++ objs18 ++ objs20

/-- Index under which a table lists an object: the 64 links share two rows (R462). -/
def rowIndex (i : Nat) : Nat := if 0x2B00 ≤ i ∧ i < 0x2B40 then 0x2B00 else if 0x2B40 ≤ i ∧ i < 0x2B80 then 0x2B40 else i

/-- The row of an object. -/
def findObj (i s : Nat) : Option ObjDef :=
  objTable.find? fun o => o.index = rowIndex i && decide (o.lo ≤ s) && decide (s ≤ o.hi)

/-- Whether an object is a DOMAIN. -/
def ObjDef.isDomain (o : ObjDef) : Bool := o.type = 14

/-! ### Values that follow from other state -/

/-- Device shape, grade and spares (R41, R42). -/
def Dev.readShape (d : Dev) (i s : Nat) : Option Nat :=
  let n := d.physRows.length
  let g := d.sec.fuses.grade
  let fences (r : Nat) : Nat := (colsOf (vGet d.fencesAt r 0)).length
  match i, s with
  | 0x2000, 2 => some (2 * n)
  | 0x2000, 4 => some n
  | 0x2000, 5 => some (120 * n)
  | 0x2000, 8 => some (d.keep.retired.getD 0xFF)
  | 0x2001, 1 => some g
  | 0x2001, 3 => some d.gradeClock
  | 0x2001, 4 => some d.gradePower
  | 0x2001, 5 => some d.gradeRate
  | 0x2001, 6 => some (if g = 3 then 32 else 64)
  | 0x2001, 7 => some (if g = 3 then 40000 else 116736)
  | 0x2002, s => if s = 0 then none else some (vGet d.rowMap (s - 1) 0)
  | 0x2003, s => if s = 0 then none else some (vGet d.fencesAt (s - 1) 0)
  | 0x2004, 1 => some (d.physRows.map fun r => 2 - fences r).sum
  | 0x2004, 2 => some (d.physRows.filter fun r => decide (2 ≤ fences r)).length
  | 0x2004, 4 => some ((List.range 32).map fences).sum
  | _, _ => none

/-- Context of the most recent request of a long-operation object, which its status word reports (R355). -/
def Dev.lastCtx (d : Dev) (i s : Nat) : Nat := (nmGet d.lastReq (okey i s)).getD 0

/-- The core that a pair of select objects names. -/
def Dev.selected (d : Dev) (i : Nat) : CoreId := ⟨d.objD i 1 0, d.objD i 2 0⟩

/-- Fewest spare rows left on a die of a slice of a logical cell (R212). -/
def Dev.spareMin (d : Dev) : Nat :=
  let logical (r : Nat × Nat) : Bool := (d.logicalCell (r.1 % 64 / 2) (r.1 / 64 / 2)).isSome
  (d.keep.nearRows.filter logical).foldl (fun m r => min m (d.keep.spareLeft (r.1 % 64) (r.1 / 64) (r.2 / 8192))) 123

/-- Near store and mesh (R212, R247). -/
def Dev.readNear (d : Dev) (i s : Nat) : Option Nat :=
  let p := d.physCore (d.selected 0x3002)
  let slice := d.slice (p.2 * 64 + p.1)
  match i, s with
  | 0x3000, 4 => some d.spareMin
  | 0x3000, 10 => some d.keep.nearRows.length
  | 0x3003, 1 => some slice.power
  | 0x3003, 2 => some ((List.range 4).map fun die => d.keep.spareLeft p.1 p.2 die).sum
  | 0x3003, 3 => some (d.keep.nearRows.filter fun r => r.1 = p.2 * 64 + p.1).length
  | 0x3003, 4 => some (min slice.corrected (2 ^ 32 - 1))
  | 0x4200, 1 => some d.mesh.epoch
  | 0x4200, 2 => some d.epochDrain
  | 0x4201, s => if s = 0 then none else some ((nmGet d.mesh.stationNext (s - 1)).getD 0)
  | 0x4202, s => if s = 0 then none else some ((nmGet d.mesh.stationCur (s - 1)).getD 0)
  | _, _ => none

/-- The gear slots of the selected core and the load (R303). -/
def Dev.readGear (d : Dev) (i s : Nat) : Option Nat :=
  let c := d.selected 0x4401
  let k := d.core c
  let slot := d.slotOf c
  let code (a : Nat) : Nat := pack [(0, (slot a).codeBase), (16, (slot a).codeLen), (32, (slot (a + 1)).codeBase), (48, (slot (a + 1)).codeLen)]
  match i, s with
  | 0x4402, 1 => some (pack ((List.range 4).map fun j => (2 * j, (slot j).state)))
  | 0x4402, 2 => some (if k.ctx.isNone then 0xFF else pack [(0, k.arch.stat.gear), (2, b2n k.arch.msg.carry)])
  | 0x4402, 3 => some (code 0)
  | 0x4402, 4 => some (code 2)
  | 0x4402, 5 => some (broomUnits k.arch.msg.broom)
  | 0x4402, 6 => some ((k.slotEpoch + if d.idleGear then 2 else 0) % 2 ^ 32)
  | 0x4403, 7 => some ((d.ctx (d.lastCtx 0x4403 7)).gearLoad.word 0)
  | _, _ => none

/-- Free frames, whether reserved or not (R318, R333). -/
def Dev.unallocated (d : Dev) : Nat := totalFrames - (d.t2.used ++ d.keep.frames).dedup.length - d.t2.pinned

/-- Tier 2 and the pager (R333). -/
def Dev.readMem (d : Dev) (i s : Nat) : Option Nat :=
  match i, s with
  | 0x3100, 1 => some (d.objD 0x3100 1 d.gradeRate)
  | 0x3100, 7 => some d.keep.frames.length
  | 0x3101, 1 => some d.unallocated
  | 0x3101, 2 => some (totalFrames / 32 - ((d.t2.used ++ d.keep.frames).map (· / 32)).dedup.length)
  | 0x3101, 3 => some (d.ctxs.map fun p => p.2.reservedFrames).sum
  | 0x3103, 4 => some ((d.ctx (d.lastCtx 0x3103 4)).migrate.word 0)
  | _, _ => none

/-- Contexts; those at 0x5101 to 0x5103 and the checkpoint objects are of the selected one (R358, R462). -/
def Dev.readCtx (d : Dev) (i s : Nat) : Option Nat :=
  let x := d.ctx (d.objD 0x5100 1 0)
  let held (p : Nat × Ctx) : Bool := p.2.state = .resident || p.2.state = .running || p.2.state = .blocked || p.2.state = .draining
  match i, s with
  | 0x5000, 1 => some (16384 - (d.ctxs.filter fun p => p.2.state != .free).length)
  | 0x5000, 2 => some (d.ctxs.filter held).length
  | 0x5001, s => if s = 0 then none else some (d.weight (s - 1))
  | 0x5002, 5 => some ((d.ctx (d.lastCtx 0x5002 5)).load.word 0)
  | 0x5101, 1 => some x.state.code
  | 0x5101, 2 => some x.cls
  | 0x5101, 3 => some x.image.horizon
  | 0x5101, 4 => some x.quantumUs
  | 0x5101, 5 => some x.preemptWaitUs
  | 0x5101, 6 => some x.blockUs
  | 0x5101, 7 => some x.lastCode
  | 0x5101, 8 => some x.steps
  | 0x5101, 9 => some (x.runNs + match x.runSince with | some t => d.time - t | none => 0)
  | 0x5101, 10 => some x.reservedBytes
  | 0x5102, 6 => some (x.reshard.word 0)
  | 0x6202, 3 => some x.buddy
  | 0x6202, 4 => some x.periodS
  | 0x6202, 5 => some (x.ckpt.word 0)
  | 0x6202, 6 => some x.ckptStep
  | 0x6202, 7 => some x.adopt
  | 0x6203, s => if s = 0 then none else some ((nmGet x.peers s).getD 0)
  | _, _ => none

/-- A lease entry as its 128 bits (R462). -/
def Lease.word (l : Lease) : Nat :=
  pack [(0, l.dev), (16, l.ctx), (30, b2n l.r), (31, b2n l.w), (32, l.first), (64, l.frames), (96, 1)]

/-- The groomer's cell under test or next: its column in [7:0] and row in [15:8] (R419). -/
def Dev.groomPosition (d : Dev) : Nat :=
  let cell (n : Nat) : Nat := n % 32 + 256 * (n / 32)
  match d.groom.test with
  | some t => cell t.cell
  | none => if d.objD 0x6100 1 1 = 0 then 0xFFFF else
    match d.groom.targets with
    | t :: _ => cell t.1
    | [] => if d.groom.next < 1024 then cell d.groom.next else 0xFFFF

/-- Integrity, healing, links and membership (R419, R462). -/
def Dev.readHeal (d : Dev) (i s : Nat) : Option Nat :=
  let partials := d.results.length
  match i, s with
  | 0x6100, 7 => some d.groomPosition
  | 0x6102, 1 => some (match nmGet d.dop.ops (okey 0x6102 1) with
    | some o => if o.state = 2 && !(d.fenceWaits.any fun w => w.px + 256 * w.py = o.a) then
        LongOp.word { o with state := 3, progress := 255, code := cOk } 0 else o.word 0
    | none => 0)
  | 0x6102, 3 => some d.keep.open_.length
  | 0x6103, 1 => some d.keep.recs.length
  | 0x6103, 3 => some d.keep.seq
  | 0x6105, 1 => some (d.reinit.word 0)
  | 0x6105, 5 => some (d.recover.word 0)
  | 0x6105, 6 => some (d.memtest.word partials)
  | 0x6105, 7 => some (d.groomCell.word partials)
  | 0x6105, 8 => some d.pow.pcyc
  | 0x6105, 9 => some d.keep.replace
  | 0x2A00, 7 => some (b2n d.uncertain)
  | 0x6201, 2 => some d.logBytes
  | 0x6204, s => if s = 0 then none else some (((nmGet d.rack.leases (s - 1)).map Lease.word).getD 0)
  | _, _ => none

/-- The Ethernet port and the selected queue pair (R488). -/
def Dev.readEth (d : Dev) (i s : Nat) : Option Nat :=
  let q := d.qp (d.objD 0x2801 1 0)
  match i, s with
  | 0x2800, 3 => some d.sec.fuses.mac
  | 0x2800, 11 => some (d.objD 0x2800 0xB ecnDefault)
  | 0x2802, 1 => some q.state
  | 0x2802, 2 => some q.gid
  | 0x2802, 3 => some q.qpn
  | 0x2802, 4 => some q.mac
  | 0x2802, 5 => some q.params
  | 0x2802, 6 => some q.vlan
  | 0x2802, 7 => some q.rkey
  | 0x2802, 9 => some q.errors
  | _, _ => none

/-- Entry of dop.session: identifier, key, role, path, idle seconds and address (R524). -/
def Dev.sessionWord (d : Dev) (n : Nat) : Nat :=
  match d.dop.sessions[n]? with
  | some s => if s.isOpen then pack [(0, s.id), (32, s.key), (40, s.role), (42, s.path.kind),
      (48, min 65535 ((d.time - s.lastUse) / 1000000000)), (64, (Config.sha3 (natLe s.path.addr 32)).toNat % 2 ^ 64)] else 0
  | none => 0

/-- Two bits of a slot pair: slot in force, slot next, good A, good B (R544). -/
def FwSlots.word (f : FwSlots) : Nat := pack [(0, b2n f.inForce), (1, b2n f.next), (2, b2n f.goodA), (3, b2n f.goodB)]

/-- The header of the defect map's current copy and its records (R408, R409). -/
def Dev.defectBytes (d : Dev) : List Byte :=
  let rec1 (r : DefRec) : List Byte := natLe (pack [(0, r.kind), (8, b2n r.made), (9, b2n r.closed), (10, b2n r.uncertain), (16, r.code),
    (32, r.place), (64, r.time), (128, r.logical), (144, r.count), (160, r.detail)]) 32
  natLe (pack [(0, 0x0100), (32, d.keep.seq), (64, d.keep.recs.length), (96, 16384), (128, d.sec.fuses.serial)]) 64
    ++ d.keep.recs.flatMap rec1

/-- Open watch records in the layout of R409. -/
def Dev.watchBytes (d : Dev) : List Byte := ({ d with keep := { d.keep with recs := d.keep.open_ } }).defectBytes.drop 64

/-- Identity, sessions and security (R524, R544). -/
def Dev.readIdent (d : Dev) (i s : Nat) : Option Nat :=
  let f := d.sec.fuses
  let op : Option Nat := some (((nmGet d.dop.ops (okey i s)).map fun o => o.word 0).getD 0)
  match i, s with
  | 0x1000, 3 => some f.serial
  | 0x1000, 8 => some d.sec.fwVersion
  | 0x1000, 9 => some d.sec.fwDigest
  | 0x1000, 10 => some d.cfgDigest
  | 0x1002, 1 => op
  | 0x1002, 2 => some d.sec.store.savedTime
  | 0x1100, 5 => some (d.dop.sessions.filter (·.isOpen)).length
  | 0x1102, s => if s = 0 then none else some (d.sessionWord (s - 1))
  | 0x7000, 1 => some f.lc
  | 0x7000, 2 => some f.returns
  | 0x7000, 3 => some (pack [(0, f.svnMgmt), (8, f.svnCore), (16, f.svnPolicy)])
  | 0x7000, 5 => some (pack [(0, d.sec.store.mgmt.word), (4, d.sec.store.core.word)])
  | 0x7000, 6 => some d.sec.coreDigest
  | 0x7000, 7 => some d.policyDigest
  | 0x7003, 1 => some (leNat d.sec.store.ownerRoot)
  | 0x7004, s => if s = 0 then none else op
  | 0x6103, 5 => some (Config.sha3 d.defectBytes).toNat
  | _, _ => none

/-- Power, start and the event log (R572, R602). -/
def Dev.readPower (d : Dev) (i s : Nat) : Option Nat :=
  let next := d.log.nextSeq
  match i, s with
  | 0x2100, 1 => some d.askedClock
  | 0x2100, 4 => some (d.objD 0x2100 4 d.gradePower)
  | 0x2100, 7 => some d.highestLevel
  | 0x2104, 1 => some (b2n !d.pow.cold)
  | 0x1800, 1 => some ((next + 2 ^ 32 - d.log.recs.length) % 2 ^ 32)
  | 0x1800, 2 => some ((next + 0xFFFFFFFF) % 2 ^ 32)
  | _, _ => none

/-- Key under which an object's value is listed: the bank that is not current for an Epoch-class object (R495, R497). -/
def ObjDef.key (o : ObjDef) (i s : Nat) : Nat := if o.apply = 3 && i != 0x1001 then nkey i s else okey i s

/-- What an object of fixed length reads as: the value in force, or the bank written for an Epoch-class object (R491, R495). -/
def Dev.objRead (d : Dev) (o : ObjDef) (i s : Nat) : Nat :=
  let read := [d.readShape, d.readNear, d.readGear, d.readMem, d.readCtx, d.readHeal, d.readEth, d.readIdent, d.readPower]
  (read.findSome? fun (f : Nat → Nat → Option Nat) => f i s).getD ((nmGet d.objs (o.key i s)).getD o.dflt)

/-! ### DOMAIN values (R490, R515) -/

/-- The default activation table of a code as its 1,312 bytes (R150, R152). -/
def actBytes (code : Nat) : List Byte :=
  let t := defaultTable code
  natLe (pack [(0, 0x0100), (16, t.loMode), (24, t.hiMode), (32, t.loVal.toNat), (64, t.hiVal.toNat), (96, t.xMax.toNat)]) 32
    ++ (t.brk ++ t.coef).flatMap fun w => natLe w.toNat 4

/-- An event record as its 32 bytes (R596). -/
def EventRec.bytes (e : EventRec) : List Byte :=
  natLe (pack [(0, e.time % 2 ^ 63), (63, b2n e.uncertain), (64, e.code), (80, e.unit), (88, e.kind), (96, e.ctx), (112, e.logical),
    (128, e.physical), (144, b2n e.physCell), (160, e.detail0), (192, e.detail1), (224, e.seq)]) 32

/-- Up to 256 records from the later of event.select and event.first_seq upward (R601). -/
def Dev.eventWindow (d : Dev) : List Byte :=
  let n := d.log.recs.length
  let skip := d.objD 0x1800 4 0 - (d.log.nextSeq + 2 ^ 32 - n) % 2 ^ 32
  ((d.log.recs.reverse.drop skip).take 256).flatMap EventRec.bytes

/-- A table of n entries of `size` bytes. -/
def tableBytes (t : NMap Nat) (n size dflt : Nat) : List Byte := (List.range n).flatMap fun i => natLe ((nmGet t i).getD dflt) size

/-- The attestation report's body for a nonce (R542). -/
def Dev.reportBody (d : Dev) (nonce : List Byte) : List Byte :=
  let f := d.sec.fuses
  natLe (pack [(0, 0x0100), (16, f.lc), (24, b2n d.uncertain), (25, b2n (d.keep.replace != 0)), (32, d.epoch), (64, f.serial), (128, d.time),
    (192, f.svnMgmt), (200, f.svnCore), (208, f.svnPolicy)]) 32
  ++ nonce ++ natLe d.sec.fwDigest 64 ++ natLe d.sec.coreDigest 64 ++ natLe d.policyDigest 64
  ++ natLe (Config.sha3 d.defectBytes).toNat 64 ++ natLe d.cfgDigest 64 ++ natLe (ownerDigest d.sec.store.ownerRoot) 64 ++ List.replicate 32 0#8

/-- A signed attestation report (R542). -/
def Dev.report (d : Dev) (nonce : List Byte) : List Byte :=
  let body := d.reportBody nonce
  body ++ Config.sign d.sec.fuses.identitySeed (Config.sha3 body)

/-- Bytes of a DOMAIN object (R515); the attestation report and ctx.op.results are read apart. -/
def Dev.domainRead (d : Dev) (i s : Nat) : List Byte :=
  match i, s with
  | 0x4001, s => actBytes (s + 1)
  | 0x1800, 5 => d.eventWindow
  | 0x2A01, 3 => tableBytes d.mesh.routeNext 4096 2 7
  | 0x2A01, 4 => tableBytes d.mesh.routeCur 4096 2 7
  | 0x2803, 1 => tableBytes d.eth.steerNext 1024 16 0
  | 0x2803, 2 => tableBytes d.eth.steerCur 1024 16 0
  | 0x6102, 4 => d.watchBytes
  | 0x6103, 4 => d.defectBytes ++ Config.sign d.sec.fuses.defectSeed (Config.sha3 d.defectBytes)
  | 0x6200, 3 => d.rack.keys.flatMap Prod.snd
  | 0x6200, 5 => d.rack.order
  | 0x1101, s => (nmGet d.dop.keys (s - 1)).getD []
  | 0x7001, 3 => Config.certChain
  | 0x7002, s => ((nmGet d.sec.store.policy (s - 1)).map SignedImage.header).getD []
  | _, _ => []

end Sys2Proof.Machine
end

