-- ==== Sys2Proof/Machine/Dict.lean ====
section
/-! DEFINITION. Writes to the object dictionary and the saved set (R489 to R501, R507, R509, R521 and the chapters' object tables). -/

namespace Sys2Proof.Machine

/-- A device with an answer. -/
def Dev.answers (d : Dev) (c : Code) : Dev := { d with answer := c }

/-! ### Ranges (row 9 of R507) -/

/-- Range of values that an object states, where it is one interval. -/
def rangeOf (i s : Nat) : Option (Nat × Nat) :=
  match i, s with
  | 0x4000, 3 => some (0, 1)
  | 0x4100, 1 => some (1, 1024)
  | 0x4100, 2 => some (1, 65535)
  | 0x3000, 6 => some (1, 255)
  | 0x3002, 1 => some (0, 59)
  | 0x4401, 1 => some (0, 59)
  | 0x4403, 2 => some (0, 15)
  | 0x3101, 4 => some (100, 1000000)
  | 0x3101, 5 => some (0, 7)
  | 0x5000, 3 => some (0, 1)
  | 0x5000, 4 => some (1, 10000)
  | 0x5000, 5 => some (1, 60000)
  | 0x5100, 1 => some (0, 16383)
  | 0x5101, 2 => some (0, 7)
  | 0x6000, 1 => some (1000, 10000000)
  | 0x6000, 2 => some (1, 7)
  | 0x6100, 2 => some (100, 60000)
  | 0x6100, 3 => some (0, 50000)
  | 0x6100, 4 => some (1, 3600)
  | 0x6100, 5 => some (0, 10)
  | 0x6100, 6 => some (100, 100000)
  | 0x6101, 1 => some (1, 720)
  | 0x2A00, 1 => some (0, 1)
  | 0x2A00, 2 => some (10, 10000)
  | 0x2A00, 3 => some (1, 1000)
  | 0x2A00, 5 => some (50, 1000000)
  | 0x2A01, 1 => some (0, 4095)
  | 0x2A01, 2 => some (0, 2 ^ 48 - 1)
  | 0x2B00, 5 => some (0, 1)
  | 0x2B00, 6 => some (0, 15)
  | 0x6201, 1 => some (1, 512)
  | 0x2800, 1 => some (0, 5)
  | 0x2801, 1 => some (0, 16639)
  | 0x2802, 3 => some (0, 2 ^ 24 - 1)
  | 0x2803, 9 => some (1, 4095)
  | 0x1100, 1 => some (1, 65535)
  | 0x1100, 4 => some (10, 65535)
  | 0x2100, 6 => some (0, 1)
  | 0x2101, 2 => some (60, 95)
  | 0x1800, 8 => some (10, 65535)
  | 0x4200, 3 => some (1, 1)
  | 0x4403, 7 => some (1, 2)
  | 0x3103, 2 => some (0, 2 ^ 48 - 1)
  | 0x3103, 4 => some (1, 2)
  | 0x5002, 5 => some (1, 2)
  | 0x5102, 1 => some (1, 1)
  | 0x5102, 2 => some (1, 1)
  | 0x5102, 3 => some (1, 3)
  | 0x5102, 4 => some (1, 1)
  | 0x5102, 5 => some (1, 1)
  | 0x5102, 6 => some (1, 2)
  | 0x6105, 2 => some (1, 1)
  | 0x6105, 5 => some (1, 1)
  | 0x6105, 6 => some (1, 2)
  | 0x2B00, 7 => some (1, 3)
  | 0x2802, 8 => some (1, 2)
  | 0x2803, 3 => some (1, 1)
  | 0x1001, 4 => some (1, 1)
  | 0x1002, 1 => some (1, 1)
  | 0x7000, 4 => some (1, 3)
  | 0x7004, 5 => some (1, 1)
  | _, _ => none

/-- Whether a rate table is acceptable: step 0 is 1,024, no fraction rises or is 0 (R474). -/
def ecnTableOk (v : Nat) : Bool :=
  let f (i : Nat) : Nat := bits v (16 * i + 15) (16 * i)
  f 0 = 1024 && (List.range 16).all fun i => f i != 0 && (i = 0 || decide (f i ≤ f (i - 1)))

/-- Whether a value lies in the range that its object states (row 9). -/
def Dev.valueOk (d : Dev) (o : ObjDef) (s v : Nat) : Bool :=
  if o.counter then v = 0
  else
    (rangeOf o.index s).all (fun (r : Nat × Nat) => decide (r.1 ≤ v) && decide (v ≤ r.2)) &&
      match o.index, s with
      | 0x3002, 2 => decide (v < d.rows)
      | 0x4401, 2 => decide (v < d.rows)
      | 0x3100, 1 => [10667, 12800, 14400].contains v && decide (v ≤ d.gradeRate)
      | 0x2100, 4 => decide (100 ≤ v) && decide (v ≤ d.gradePower)
      | 0x2800, 11 => ecnTableOk v
      | 0x2802, 5 => bits v 57 56 != 3 && bits v 59 58 = 0 && !bit v 63
      | 0x6202, 7 => decide (v ≤ 4095) || v = 0xFFFE || v = 0xFFFF
      | _, _ => true

/-- The code of a value outside the range of its object: the reserved bits of a virtual address have their own (row 9; R310). -/
def rangeCode (i s : Nat) : Code := if i = 0x3103 ∧ s = 2 then cReservedNonzero else cBadArgument

/-! ### Quiesce-class writes (R498) -/

/-- Whether a queue pair runs over IPv4: its remote GID is an IPv4-mapped address. -/
def Qp.overIpv4 (q : Qp) : Bool := bits q.gid 95 0 = 0xFFFF * 2 ^ 80

/-- Whether the unit of a Quiesce-class object of the Ethernet engine is idle (R488, R498). -/
def Dev.ethIdle (d : Dev) (s : Nat) : Bool :=
  d.eth.qps.all fun p => p.2.state != 1 || (s = 4 && !p.2.overIpv4) || (s = 5 && p.2.overIpv4)

/-- Changes a field of a queue pair's configuration. -/
def Qp.configure (q : Qp) (s v : Nat) : Qp :=
  match s with
  | 2 => { q with gid := v }
  | 3 => { q with qpn := v }
  | 4 => { q with mac := v }
  | 5 => { q with params := v }
  | _ => { q with vlan := v }

/-- A Quiesce-class write: applied while the unit is idle, after a quiesce cycle with the flag, and otherwise refused (R498). -/
def Dev.quiesceWrite (d : Dev) (i s v : Nat) (quiesce : Bool) : Dev :=
  match i with
  | 0x2800 =>
    if d.ethIdle s then d.setObj i s v
    else if quiesce then d.reinitEth.setObj i s v else d.reply cBusy
  | 0x2802 =>
    let n := d.objD 0x2801 1 0
    if (d.qp n).state = 0 then d.updQp n fun q => q.configure s v
    else if quiesce then (d.qpToReset n).updQp n fun q => q.configure s v else d.reply cBusy
  | _ => d.clockWrite v quiesce

/-! ### Reset-class writes and the saved set (R499) -/

/-- The stored saved set that the key in force verifies. -/
def Sec.verifiedSet (s : Sec) : NMap Nat := if s.store.savedKey = s.configSeed then s.store.saved else []

/-- A write to a Reset-class object: it waits for the next start and joins the stored saved set at once (R499). -/
def Dev.resetWrite (d : Dev) (i s v : Nat) : Dev :=
  if d.sec.fuses.lc = 4 then d.reply cLifecycleDenied
  else
    (d.updSec fun c => { c with store := { c.store with
      resets := nmSet c.store.resets (okey i s) v
      saved := nmSet c.verifiedSet (okey i s) v, savedKey := c.configSeed } }).answers cPending

/-- Indices under which a row's objects stand. -/
def ObjDef.indices (o : ObjDef) : List Nat := if o.index = 0x2B00 then (List.range 64).map (0x2B00 + ·) else [o.index]

/-- Indices and sub-indices of the objects that the saved set holds: RW objects of role Owner; policy modules have their own place (R499, R533). -/
def savedObjs : List (Nat × Nat) :=
  (objTable.filter fun o => o.access = 2 && o.role = 2 && o.index != 0x7002).flatMap fun o =>
    o.indices.flatMap fun i => (List.range (o.hi + 1 - o.lo)).map fun k => (i, o.lo + k)

/-- Value of an object for the saved set: the value in force, of an Epoch-class object the current bank; a DOMAIN as one number. -/
def Dev.saveValue (d : Dev) (i s : Nat) : Nat :=
  match i, s with
  | 0x1001, 2 => d.objD 0x1001 1 0
  | 0x4201, s => (nmGet d.mesh.stationCur (s - 1)).getD 0
  | 0x2A01, 3 => bytesNat (d.domainRead 0x2A01 4)
  | 0x2803, 1 => bytesNat (d.domainRead 0x2803 2)
  | _, _ =>
    match findObj i s with
    | none => 0
    | some o => if o.isDomain then bytesNat (d.domainRead i s)
      else if o.apply = 3 then (nmGet d.objs (okey i s)).getD o.dflt else d.objRead o i s

/-- dict.save: the values that differ from their defaults, under the configuration key in force (R499). -/
def Dev.dictSave (d : Dev) : Dev :=
  if d.sec.fuses.lc = 4 then (d.reply cLifecycleDenied).opDone (okey 0x1002 1) cLifecycleDenied
  else
    let base := clearDev d.keep d.sec.fuses d.sec.store
    let set := savedObjs.foldl (fun (m : NMap Nat) p =>
      if d.saveValue p.1 p.2 = base.saveValue p.1 p.2 then m else nmSet m (okey p.1 p.2) (d.saveValue p.1 p.2)) []
    (d.updSec fun c => { c with store := { c.store with saved := set, savedKey := c.configSeed, savedTime := d.time } }).opDone
      (okey 0x1002 1) cOk

/-- The meaning of DICT_SAVE. -/
def execDictSave (s : State) : Host.Outcome State Fault Refusal := s.onDev Dev.dictSave

/-- The meaning of CFG_RACK_FLIP (R521). -/
def execCfgRackFlip (s : State) : Host.Outcome State Fault Refusal := s.onDev Dev.rackFlip

/-! ### Client keys (R509, R524) -/

/-- A write of a dop.keys entry: 0 bytes empty it; a changed or removed key closes the sessions opened with it (R509, R512). -/
def Dev.keyWrite (d : Dev) (sub : Nat) (bs : List Byte) : Dev :=
  let role := (bs.headD 0#8).toNat
  match firstFail [
    (sub = 0 || decide (16 < sub), cBadArgument),
    (!bs.isEmpty && bs.length != 2600, cBadArgument),
    (role = 3, cLifecycleDenied),
    (decide (3 < role) || leNat ((bs.take 8).drop 1) != 0, cBadArgument)] with
  | some c => d.reply c
  | none =>
    let keys := if bs.isEmpty then nmErase d.dop.keys (sub - 1) else nmSet d.dop.keys (sub - 1) bs
    let d := if nmGet d.dop.keys (sub - 1) = nmGet keys (sub - 1) then d else d.closeSessions fun s => s.key = sub - 1
    { d with dop := { d.dop with keys := keys } }

/-- The meaning of DOP_KEYS_WRITE. -/
def execDopKeysWrite (sub : Nat) (entry : List Byte) (s : State) : Host.Outcome State Fault Refusal := s.onDev fun d => d.keyWrite sub entry

/-! ### CMD objects (R356, R419) -/

/-- A write of recover.reinit: target in [31:28], number in [15:0] (R417, R419). -/
def Dev.reinitWrite (d : Dev) (v : Nat) : Dev :=
  let n := bits v 15 0
  match v / 2 ^ 28 with
  | 1 => d.reinitCtx n
  | 2 => if 16640 ≤ n then d.reply cBadArgument else (d.qpToReset n).reinitDone n
  | 3 => d.reinitPager
  | 4 => d.reinitEth.reinitDone 4
  | _ => d.reply cReservedNonzero

/-- A write of recover.groom_cell: 1 in [31:24] starts, 2 cancels (R399, R419). -/
def Dev.groomCellWrite (d : Dev) (v : Nat) : Dev :=
  match v / 2 ^ 24 with
  | 1 => d.groomCellStart (bits v 7 0) (bits v 15 8)
  | 2 => d.groomCellCancel
  | _ => d.reply cBadArgument

/-- A write of recover.checkpoint: accepted for a FAILED context, and queued (R416, R419). -/
def Dev.recoverWrite (d : Dev) : Dev :=
  let n := d.objD 0x5100 1 0
  if (d.ctx n).state != .failed then d.reply cStateInvalid
  else if d.recover.busy then d.reply cBusy
  else { d with recover := ⟨1, 0, cPending, n, 0, 0, 0⟩ }

/-- A write of fence.cmd, remembered for its status word (R419). -/
def Dev.fenceWrite (d : Dev) (v : Nat) : Dev :=
  let e := d.fenceCmd (bits v 7 0) (bits v 15 8)
  if e.answer ≤ 1 then
    { e with answer := cPending, dop := { e.dop with ops := nmSet e.dop.ops (okey 0x6102 1) ⟨2, 0, cPending, v, 0, 0, 0⟩ } }
  else e.opDone (okey 0x6102 1) e.answer

/-- A write of link.N.cmd (R423). -/
def Dev.linkCmdWrite (d : Dev) (n v : Nat) : Dev :=
  match v with
  | 1 => d.linkRetrain n
  | 2 => d.linkFence n
  | _ => d.linkUnfence n

/-- A write of a CMD object: its action, with the checks that it makes (R491). -/
def Dev.cmdWrite (d : Dev) (session i s v : Nat) : Dev :=
  let n := d.objD 0x5100 1 0
  match i, s with
  | 0x4200, _ => d.meshFlip v
  | 0x4403, _ => if v = 1 then d.gearLoadGo (d.objD 0x4403 1 0) (d.objD 0x4403 2 0) d.gearRect else d.gearLoadCancel (d.objD 0x4403 1 0)
  | 0x3103, _ => if v = 1 then d.migrateGo else d.reply cStateInvalid
  | 0x5002, _ =>
    if v = 1 then d.loadGo (d.objD 0x5002 1 0) (d.objD 0x5002 2 0) (d.objD 0x5002 3 0) (d.objD 0x5002 4 0)
    else d.loadCancel (d.objD 0x5002 1 0)
  | 0x5102, 1 => d.start n
  | 0x5102, 2 => d.stopCtx n
  | 0x5102, 3 => d.preemptCmd n v
  | 0x5102, 4 => d.unload n
  | 0x5102, 5 => d.kill n
  | 0x5102, 6 => if v = 1 then d.reshardGo n (d.objD 0x5002 2 0) (d.objD 0x5002 3 0) (d.objD 0x5002 4 0) else d.reshardCancel n
  | 0x6102, _ => d.fenceWrite v
  | 0x6105, 1 => d.reinitWrite v
  | 0x6105, 2 => d.plainStart false
  | 0x6105, 5 => d.recoverWrite
  | 0x6105, 6 => if v = 1 then d.memtestStart else d.memtestCancel
  | 0x6105, 7 => d.groomCellWrite v
  | 0x6202, _ => d.ckptGo n v
  | 0x2802, _ => if v = 1 then d.qpToRts (d.objD 0x2801 1 0) else d.qpToReset (d.objD 0x2801 1 0)
  | 0x2803, _ => d.steerFlip v
  | 0x1001, _ => d.rackFlip
  | 0x1002, _ => d.dictSave
  | 0x7000, _ => d.svnCommit v
  | 0x7004, _ => d.lcAsk session 3 (okey 0x7004 5) fun d => d.tapUnlock v
  | _, _ => d.linkCmdWrite (i - 0x2B00) v

/-! ### Other objects of fixed length -/

/-- The selected context's class changes, with its place in the ready queues (R351, R358). -/
def Dev.classWrite (d : Dev) (n v : Nat) : Dev :=
  let waits := (vGet d.ready (d.ctx n).cls []).contains n
  let d := (d.leave n).updCtx n fun x => { x with cls := v }
  if waits then d.join n else d

/-- A write of a checkpoint object of the selected context (R457, R460, R462). -/
def Dev.ckptObj (d : Dev) (n s v : Nat) : Dev :=
  match s with
  | 3 => d.updCtx n fun x => { x with buddy := v }
  | 4 => d.updCtx n fun x => { x with periodS := v }
  | _ => if (d.ctx n).state != .loaded then d.reply cStateInvalid else d.updCtx n fun x => { x with adopt := v }

/-- Idle slices are switched off when near.off_when_idle becomes 1 (R212). -/
def Dev.offWhenIdle (d : Dev) (v : Nat) : Dev :=
  { (d.setObj 0x3000 7 v) with
    slices := if v = 1 then d.slices.map fun (p : Nat × SliceSt) => if p.2.bank = 2 then (p.1, { p.2 with power := 2 }) else p else d.slices }

/-- A write of an object that is no CMD and of no Reset or Quiesce class: the value listed under its key, unless other state holds it. -/
def Dev.plainWrite (d : Dev) (o : ObjDef) (i s v : Nat) : Dev :=
  let n := d.objD 0x5100 1 0
  match o.index, s with
  | 0x3000, 7 => d.offWhenIdle v
  | 0x4201, s => { d with mesh := { d.mesh with stationNext := nmSet d.mesh.stationNext (s - 1) v } }
  | 0x5000, 3 => if v = 1 && !d.hasPolicy then d.reply cStateInvalid else d.setObj 0x5000 3 v
  | 0x5101, 2 => d.classWrite n v
  | 0x5101, 4 => d.updCtx n fun x => { x with quantumUs := v }
  | 0x5101, 5 => d.updCtx n fun x => { x with preemptWaitUs := v }
  | 0x5101, 6 => d.updCtx n fun x => { x with blockUs := v }
  | 0x6104, 1 => d.alertClear v
  | 0x6104, 2 => (d.setObj 0x6104 2 (v % 8)).alertUpdate
  | 0x6200, 2 => d.setQuorum v
  | 0x6202, s => d.ckptObj n s v
  | 0x6203, s => d.peerWrite n s v
  | 0x6204, s => d.leaseWrite s v
  | 0x2802, _ => d.updQp (d.objD 0x2801 1 0) fun q => { q with errors := v }
  | _, _ => { d with objs := nmSet d.objs (o.key i s) v }

/-- Rows 9 and 10 of R507 and the effect of a write under its apply class (R495 to R499); the answer tells how it ended. -/
def Dev.writeObj (d : Dev) (session : Nat) (o : ObjDef) (i s v : Nat) (quiesce : Bool) : Dev :=
  let d := d.answers cOk
  if !d.valueOk o s v then d.reply (rangeCode o.index s)
  else if o.index = 0x2B00 && d.linkAbsent (i - 0x2B00) then d.reply cStateInvalid
  else if o.access = 4 then d.cmdWrite session i s v
  else if o.access = 1 then d.attestNonce session (natLe v 64)
  else if o.apply = 5 then d.resetWrite i s v
  else if o.apply = 4 then d.quiesceWrite i s v quiesce
  else
    let e := d.plainWrite o i s v
    if o.apply = 2 && e.answer = cOk then e.answers cPending else e

/-- The meaning of REGISTER_WRITE: a write to an object of fixed length that has no command of its own, under rows 5 and 7 to 10 of R507. -/
def Dev.registerWrite (d : Dev) (i s v : Nat) : Dev :=
  match findObj i s with
  | none => d.reply (if 0x8000 ≤ i ∧ i < 0xF000 then cReservedNonzero else cBadArgument)
  | some o =>
    match firstFail [
      (o.access != 2 || o.isDomain, cBadArgument),
      (decide (256 ^ o.len ≤ v) || (o.type = 1 && decide (1 < v)), cBadArgument)] with
    | some c => d.reply c
    | none => d.writeObj 0 o i s v false

/-- The meaning of REGISTER_WRITE. -/
def execRegisterWrite (index sub value : Nat) (s : State) : Host.Outcome State Fault Refusal :=
  s.onDev fun d => d.registerWrite index sub value

/-! ### DOMAIN values -/

/-- Entries of `size` bytes of a whole table; those equal to the default are not listed. -/
def tableOf (bs : List Byte) (n size dflt : Nat) : NMap Nat :=
  ((chunks size n bs).zipIdx.map fun p => (p.2, leNat p.1)).filter fun p => p.2 != dflt

/-- A whole DOMAIN value is written (R514); the writing session matters to the life cycle. -/
def Dev.domainWrite (d : Dev) (session i s : Nat) (bs : List Byte) : Dev :=
  let d := d.answers cOk
  match i, s with
  | 0x2A01, _ =>
    if bs.length ≠ 8192 then d.reply cBadArgument
    else { d with mesh := { d.mesh with routeNext := tableOf bs 4096 2 7 } }
  | 0x2803, _ =>
    if bs.length ≠ 16384 then d.reply cBadArgument
    else { d with eth := { d.eth with steerNext := tableOf bs 1024 16 0 } }
  | 0x6200, 3 => d.setKeys bs
  | 0x6200, _ => d.order bs 0xFF
  | 0x1101, s => d.keyWrite s bs
  | 0x7001, 1 => d.stageFw 1 bs
  | 0x7001, _ => d.stageFw 2 bs
  | 0x7002, s => d.policyWrite (s - 1) bs
  | 0x7003, _ => d.ownerRotate bs
  | 0x7004, 1 => d.lcAsk session 3 (okey 0x7004 1) fun d => d.lcShip bs
  | 0x7004, 2 => d.lcAsk session 2 (okey 0x7004 2) fun d => d.lcClaim bs
  | 0x7004, 3 => d.lcAsk session 2 (okey 0x7004 3) fun d => d.lcReturn session bs
  | _, _ => d.lcAsk session 2 (okey 0x7004 4) fun d => d.lcScrap session bs

/-! ### The saved set at a start (R499) -/

/-- Bytes that a number of bytesNat stands for. -/
def numBytes (n : Nat) : List Byte := natLe n (Nat.log2 n / 8)

/-- Sets an Epoch-class object's current bank. -/
def Dev.setCurrent (d : Dev) (i s v : Nat) : Dev :=
  match i, s with
  | 0x1001, _ => d.setObj 0x1001 1 v
  | 0x4201, s => { d with mesh := { d.mesh with stationCur := nmSet d.mesh.stationCur (s - 1) v } }
  | 0x2A01, 3 => { d with mesh := { d.mesh with routeCur := tableOf (numBytes v) 4096 2 7 } }
  | 0x2803, _ => { d with eth := { d.eth with steerCur := tableOf (numBytes v) 1024 16 0 } }
  | _, _ => d.setObj i s v

/-- What a value gives an object when it is applied at a start; the answer tells whether it is refused. -/
def Dev.startValue (d : Dev) (i s v : Nat) : Dev :=
  let d := d.answers cOk
  match findObj i s with
  | none => d.reply cBadArgument
  | some o =>
    if o.isDomain && o.apply != 3 then d.domainWrite 0 i s (numBytes v)
    else if !o.isDomain && !d.valueOk o s v then d.reply (rangeCode o.index s)
    else if o.apply = 3 then d.setCurrent i s v
    else if o.apply = 5 then d.setObj i s v
    else if i = 0x2100 && s = 1 then (match d.clockCheck v false with
      | some c => d.reply c
      | none => d.setObj 0x2100 1 v)
    else d.writeObj 0 o i s v false

/-- Applies one value at a start; a refused one is recorded with its object and leaves everything as it was (R499). -/
def Dev.applyAt (d : Dev) (p : Nat × Nat) : Dev :=
  let e := d.startValue (p.1 / 256) (p.1 % 256) p.2
  if e.answer ≤ 1 then e.answers cOk else d.eventDev e.answer 14 1 (p.1 / 256 + 2 ^ 16 * (p.1 % 256)) 0

/-- The order of application: manager keys come before their quorum, the rest by index (R446, R499). -/
def startOrder (m : NMap Nat) : NMap Nat :=
  (m.filter fun p => p.1 = okey 0x6200 3) ++ m.filter fun p => p.1 != okey 0x6200 3

/-- Applies the stored saved set, when it verifies, and then the pending Reset-class values, of which a refused one is dropped (R499). -/
def Dev.applySets (d : Dev) : Dev :=
  let s := d.sec.store
  let pend := s.resets
  let d := if s.savedKey = d.sec.configSeed then (startOrder s.saved).foldl Dev.applyAt d
    else if s.saved.isEmpty then d else d.eventDev cBlockCheckFail 14 0 0 0
  (startOrder pend).foldl Dev.applyAt (d.updStore fun t => { t with resets := [] })

end Sys2Proof.Machine
end

