-- ==== Sys2Proof/Machine/Dop.lean ====
section
/-! DEFINITION. The Dariz Object Protocol: fragments, sessions, operations, notifications, and the I3C sideband (R494, R500 to R519, R522, R523, R545). -/

namespace Sys2Proof.Machine

/-! ### Selections (R494) -/

/-- Keys of the objects that hold one value for each session. -/
def selectKeys : List Nat :=
  [okey 0x3002 1, okey 0x3002 2, okey 0x4401 1, okey 0x4401 2, okey 0x5100 1, okey 0x2801 1, okey 0x1800 4]

/-- The selections that a dictionary lists. -/
def selectsOf (objs : NMap Nat) : NMap Nat := objs.filter fun p => selectKeys.contains p.1

/-- A dictionary under given selections. -/
def withSelects (objs sel : NMap Nat) : NMap Nat :=
  selectKeys.foldl (fun m k => match nmGet sel k with
    | some v => nmSet m k v
    | none => nmErase m k) objs

/-- Runs an operation under a path's selections and answers them as the operation leaves them; a start in between leaves the defaults. -/
def Dev.selecting {α : Type} (d : Dev) (sel : NMap Nat) (f : Dev → Dev × α) : Dev × NMap Nat × α :=
  let (e, a) := f { d with objs := withSelects d.objs sel }
  if e.pow.mgmt ≠ 2 then (e, [], a) else ({ e with objs := withSelects e.objs (selectsOf d.objs) }, selectsOf e.objs, a)

/-! ### Operations (R505 to R508, R513) -/

/-- What an operation answers beside its code, which stands in the device's answer: result and data, or nothing yet. -/
abbrev DopAns := Option (Nat × List Byte)

/-- An operation that ends with a code. -/
def ended (d : Dev) : Dev × DopAns := (d, some (0, []))

/-- Whether row 4 of R507 refuses an operation: a reserved operation code (R506), a reserved field or a reserved index. -/
def opReserved (r : OpRec) : Bool := r.op = 0 || decide (10 < r.op) || r.res != 0 || (decide (0x8000 ≤ r.index) && decide (r.index < 0xF000))

/-- The response record of an operation: it is sent, and kept among the session's last 32 (R505, R508). -/
def Dev.respond (d : Dev) (id : Nat) (reqId : Nat) (a : DopAns) : Dev :=
  match a with
  | none => d
  | some (arg, data) =>
    (d.updSession id fun s => s.remember ⟨reqId, d.answer, arg, data⟩).emit (.dop id reqId d.answer arg data)

/-- An operation of a session: a request identifier among the kept records is answered again and not executed (R508); the rest is under rows 3 and 4 of R507 and then the operation's own checks. While the management firmware does not run, nothing answers. -/
def Dev.dopOp (d : Dev) (id : Nat) (r : OpRec) (f : Session → Dev → Dev × DopAns) : Dev :=
  if d.pow.mgmt ≠ 2 then d
  else
    match d.session? id with
    | none => d.bump 0x1100 6 1
    | some s =>
      match s.kept.find? fun k => k.reqId = r.reqId with
      | some k => ((d.updSession id fun s => { s with nextSeq := s.nextSeq + 1, lastUse := d.time }).emit
          (.dop id r.reqId k.code k.arg k.data)).answers k.code
      | none =>
        if opReserved r then (d.reply cReservedNonzero).respond id r.reqId (some (0, []))
        else
          let (e, sel, a) := d.selecting s.selects (f s)
          (e.updSession id fun s => { s with selects := sel, lastUse := d.time }).respond id r.reqId a

/-- An anonymous operation: only READ and DESCRIBE of Observer objects outside the session and security ranges, while dop.anon_read is 1 (R513). -/
def Dev.anonOp (d : Dev) (r : OpRec) (allowed : Bool) (f : Dev → Dev × DopAns) : Dev :=
  if d.pow.mgmt ≠ 2 then d
  else
    let closed (i : Nat) : Bool := (decide (0x1100 ≤ i) && decide (i < 0x1200)) || (decide (0x7000 ≤ i) && decide (i < 0x7100))
    let observer := (findObj r.index r.sub).all fun o => o.role = 0
    let (e, a) : Dev × DopAns :=
      if d.objD 0x1100 3 0 = 0 || !allowed || closed r.index || !observer then ended ((d.bump 0x1100 6 1).reply cAuthFailed)
      else if opReserved r then ended (d.reply cReservedNonzero)
      else
        let (e, _, a) := d.selecting d.dop.anonSelects f
        (e, a)
    match a with
    | none => e
    | some (arg, data) => e.emit (.dop 0 r.reqId e.answer arg data)

/-- An operation of a session, or an anonymous one. -/
def Dev.operate (d : Dev) (who : Option Nat) (r : OpRec) (anon : Bool) (f : Nat → Nat → Dev → Dev × DopAns) : Dev :=
  match who with
  | some id => d.dopOp id r fun s => f id s.role
  | none => d.anonOp r anon (f 0 0)

/-! ### READ and DESCRIBE -/

/-- CMD objects that return a long-operation status word when read (R282, R333, R358, R419, R462, R524). -/
def statusCmds : List Nat :=
  [okey 0x4403 7, okey 0x3103 4, okey 0x5002 5, okey 0x5102 6, okey 0x6102 1, okey 0x6105 1, okey 0x6105 2, okey 0x6105 5,
   okey 0x6105 6, okey 0x6105 7, okey 0x6202 5, okey 0x1002 1]

/-- Rows 5 to 7 of R507 for an operation on an object that `permits` allows. -/
def Dev.opCheck (role : Nat) (r : OpRec) (permits : ObjDef → Bool) : Except Code ObjDef :=
  match findObj r.index r.sub with
  | none => .error cBadArgument
  | some o =>
    if role < o.role then .error cRoleInsufficient
    else if !permits o then .error cBadArgument
    else .ok o

/-- READ: the value in force, or with the stage flag the pending value of a Reset-class object (R491, R495, R505). -/
def Dev.readOp (d : Dev) (role : Nat) (r : OpRec) : Dev × DopAns :=
  match Dev.opCheck role r fun o => !o.isDomain && (o.access = 0 || o.access = 2 || o.access = 3
    || (o.access = 4 && statusCmds.contains (okey r.index r.sub))) with
  | .error c => ended (d.reply c)
  | .ok o =>
    let v := d.objRead o r.index r.sub
    let v := if r.stage && o.apply = 5 then (nmGet d.sec.store.resets (okey r.index r.sub)).getD v else v
    (d, some (0, natLe v (if o.access = 4 then 4 else o.len)))

/-- The meaning of READ. -/
def execRead (session : Option Nat) (r : OpRec) (s : State) : Host.Outcome State Fault Refusal :=
  s.onDev fun d => d.operate session r true fun _ role d => d.readOp role r

/-- DESCRIBE: type, access, role and apply codes, and the maximum length (R506). -/
def Dev.describeOp (d : Dev) (role : Nat) (r : OpRec) : Dev × DopAns :=
  match Dev.opCheck role r fun _ => true with
  | .error c => ended (d.reply c)
  | .ok o => (d, some (0, [o.type, o.access, o.role, o.apply].map (BitVec.ofNat 8) ++ natLe o.len 4))

/-- The meaning of DESCRIBE. -/
def execDescribe (session : Option Nat) (r : OpRec) (s : State) : Host.Outcome State Fault Refusal :=
  s.onDev fun d => d.operate session r true fun _ role d => d.describeOp role r

/-! ### WRITE, COMMIT and ABORT (R495, R500, R501) -/

/-- An object written by one session overtakes what other sessions have staged for it; a selection is each session's own (R494, R501). -/
def Dev.overtake (d : Dev) (id i s : Nat) : Dev :=
  if selectKeys.contains (okey i s) then d else
  { d with dop := { d.dop with sessions := d.dop.sessions.map fun t =>
      if t.id = id then t
      else { t with stage := t.stage.map fun w => if w.index = i && w.sub = s then { w with overtaken := true } else w } } }

/-- Adds a write to a session's stage, in place of an earlier one to the same object; a 65th object is refused (R501). -/
def Dev.addStage (d : Dev) (id : Nat) (w : Staged) : Dev :=
  match d.session? id with
  | none => d
  | some s =>
    let same (v : Staged) : Bool := v.index = w.index && v.sub = w.sub
    if s.stage.any same then d.updSession id fun s => { s with stage := s.stage.map fun v => if same v then w else v }
    else if 64 ≤ s.stage.length then d.reply cBadArgument
    else d.updSession id fun s => { s with stage := s.stage ++ [w] }

/-- Applies a write, staged or not. -/
def Dev.applyWrite (d : Dev) (id : Nat) (o : ObjDef) (w : Staged) : Dev :=
  if w.domain then d.domainWrite id w.index w.sub w.bytes else d.writeObj id o w.index w.sub w.value w.quiesce

/-- The code with which a write would be refused as the device stands; none when it would be accepted. -/
def Dev.wouldRefuse (d : Dev) (id : Nat) (o : ObjDef) (w : Staged) : Option Code :=
  let c := (d.applyWrite id o w).answer
  if c ≤ 1 then none else some c

/-- Rows 8 to 10 and the effect of a write, or its place in the stage with the checks of R501: a CMD object checks its own conditions at COMMIT. -/
def Dev.writeOrStage (d : Dev) (id : Nat) (o : ObjDef) (w : Staged) (stage : Bool) : Dev :=
  if !stage then (d.applyWrite id o w).overtake id w.index w.sub
  else if !w.domain && !d.valueOk o w.sub w.value then d.reply (rangeCode o.index w.sub)
  else
    match if o.access = 4 then none else d.wouldRefuse id o w with
    | some c => d.reply c
    | none => d.addStage id w

/-- WRITE (R490, R491, R495, R498, R501). -/
def Dev.writeOp (d : Dev) (id role : Nat) (r : OpRec) (data : List Byte) : Dev × DopAns :=
  match Dev.opCheck role r fun o => !o.isDomain && (o.access = 1 || o.access = 2 || o.access = 4 || (o.access = 3 && r.stage)) with
  | .error c => ended (d.reply c)
  | .ok o =>
    match firstFail [
      (r.quiesce && o.apply != 4, cBadArgument),
      (data.length != o.len || (o.type = 1 && decide (1 < leNat data)), cBadArgument)] with
    | some c => ended (d.reply c)
    | none => ended (d.writeOrStage id o ⟨r.index, r.sub, leNat data, [], false, r.quiesce, r.reqId, false⟩ r.stage)

/-- The meaning of WRITE. -/
def execWrite (session : Option Nat) (r : OpRec) (data : List Byte) (s : State) : Host.Outcome State Fault Refusal :=
  s.onDev fun d => d.operate session r false fun id role d => d.writeOp id role r data

/-- Whether a staged write is to a Reset-class object. -/
def Staged.isReset (w : Staged) : Bool := (findObj w.index w.sub).any fun o => o.apply = 5

/-- The code with which COMMIT refuses a staged write (R501). -/
def Dev.commitCheck (d : Dev) (id role : Nat) (mixed : Bool) (w : Staged) : Option Code :=
  match findObj w.index w.sub with
  | none => some cBadArgument
  | some o =>
    match firstFail [(w.overtaken, cBusy), (decide (role < o.role), cRoleInsufficient), (mixed, cBadArgument)] with
    | some c => some c
    | none => d.wouldRefuse id o w

/-- COMMIT: every staged write is checked before any is applied; all are applied or none (R501). -/
def Dev.commitOp (d : Dev) (id role : Nat) : Dev × DopAns :=
  let stage := ((d.session? id).map (·.stage)).getD []
  let first := (stage.head?.map Staged.isReset).getD false
  let bad := stage.findSome? fun w => (d.commitCheck id role (w.isReset != first) w).map fun c => (c, w.reqId)
  if stage.isEmpty then ended (d.reply cBadArgument)
  else
    match bad with
    | some (c, req) => (d.reply c, some (req, []))
    | none =>
      let pending := stage.any fun w => (findObj w.index w.sub).any fun o => o.apply = 2 || o.apply = 5
      let d := d.updSession id fun s => { s with stage := [] }
      let d := stage.foldl (fun d w => match findObj w.index w.sub with
        | some o => (d.applyWrite id o w).overtake id w.index w.sub
        | none => d) d
      ended (d.answers (if pending then cPending else cOk))

/-- The meaning of COMMIT. -/
def execCommit (session : Option Nat) (r : OpRec) (s : State) : Host.Outcome State Fault Refusal :=
  s.onDev fun d => d.operate session r false fun id role d => d.commitOp id role

/-- The meaning of ABORT. -/
def execAbort (session : Option Nat) (r : OpRec) (s : State) : Host.Outcome State Fault Refusal :=
  s.onDev fun d => d.operate session r false fun id _ d => ended (d.updSession id fun s => { s with stage := [] })

/-! ### DOMAIN transfers (R514 to R516, R542, R545) -/

/-- Partial-result records as bytes (R356). -/
def resultBytes (l : List (Nat × Code × Nat)) : List Byte := l.flatMap fun r => natLe (pack [(0, r.1), (32, r.2.1), (64, r.2.2)]) 16

/-- Takes the snapshot of an object (R515): the attestation report needs the session's nonce, partial results are consumed, a life-cycle object gives its status word. -/
def Dev.snapshot (d : Dev) (id i s : Nat) : Except Code (Dev × List Byte) :=
  if i = 0x7000 ∧ s = 9 then
    match (d.session? id).bind (·.nonce) with
    | none => .error cStateInvalid
    | some n => .ok (d, d.report n)
  else if i = 0x5103 then .ok ({ d with results := [] }, resultBytes d.results)
  else if i = 0x7004 then .ok (d, natLe (((nmGet d.dop.ops (okey i s)).map fun o => o.word 0).getD 0) 4)
  else .ok (d, d.domainRead i s)

/-- SEG_READ (R515). -/
def Dev.segReadOp (d : Dev) (id role : Nat) (r : OpRec) : Dev × DopAns :=
  match Dev.opCheck role r fun o => (o.isDomain && (o.access = 0 || o.access = 2)) || o.index = 0x7004 with
  | .error c => ended (d.reply c)
  | .ok _ =>
    let mine (n : Snap) : Bool := n.index = r.index && n.sub = r.sub
    let old := ((d.session? id).map (·.snaps)).getD []
    if 1024 < r.length then ended (d.reply cBadArgument)
    else
      match (if r.arg = 0 then none else old.find? mine) with
      | some n =>
        let d := if n.data.length ≤ r.arg + r.length then d.updSession id fun s => { s with snaps := s.snaps.filter fun n => !mine n } else d
        (d, some (0, (n.data.drop r.arg).take r.length))
      | none =>
        match d.snapshot id r.index r.sub with
        | .error c => ended (d.reply c)
        | .ok (d, data) =>
          let rest (l : List Snap) : List Snap := l.filter fun n => !mine n
          let keep := decide (r.arg + r.length < data.length)
          let d := d.updSession id fun s => { s with snaps := rest s.snaps ++ if keep then [⟨r.index, r.sub, data⟩] else [] }
          (d, some (0, (data.drop r.arg).take r.length))

/-- The meaning of SEG_READ. -/
def execSegRead (session : Option Nat) (r : OpRec) (s : State) : Host.Outcome State Fault Refusal :=
  s.onDev fun d => d.operate session r false fun id role d => d.segReadOp id role r

/-- A whole DOMAIN value has come: applied or staged as one WRITE (R514). -/
def Dev.domainIn (d : Dev) (id : Nat) (o : ObjDef) (r : OpRec) (data : List Byte) : Dev :=
  d.writeOrStage id o ⟨r.index, r.sub, 0, data, true, false, r.reqId, false⟩ r.stage

/-- Whether an object is a DOMAIN that can be written. -/
def ObjDef.takesDomain (o : ObjDef) : Bool := o.isDomain && (o.access = 1 || o.access = 2)

/-- SEG_WRITE (R514). -/
def Dev.segWriteOp (d : Dev) (id role : Nat) (r : OpRec) (data : List Byte) : Dev × DopAns :=
  match Dev.opCheck role r ObjDef.takesDomain with
  | .error c => ended (d.reply c)
  | .ok o =>
    let buf := (d.session? id).bind (·.seg)
    let got := (buf.map (·.data)).getD []
    let other := buf.any fun b => !(b.index = r.index && b.sub = r.sub)
    match firstFail [
      (decide (1024 < data.length) || r.length != data.length, cBadArgument),
      (decide (o.len < r.arg + data.length), cBounds),
      (other || r.arg != got.length, cBadArgument)] with
    | some c => ended (d.reply c)
    | none =>
      if r.last then
        ended ((d.updSession id fun s => { s with seg := none }).domainIn id o r (got ++ data))
      else ended (d.updSession id fun s => { s with seg := some ⟨r.index, r.sub, got ++ data⟩ })

/-- The meaning of SEG_WRITE. -/
def execSegWrite (session : Option Nat) (r : OpRec) (data : List Byte) (s : State) : Host.Outcome State Fault Refusal :=
  s.onDev fun d => d.operate session r false fun id role d => d.segWriteOp id role r data

/-- The meaning of SEG_TRANSFER_TIMEOUT: the write buffer of a session, or its snapshot of an object, is discarded (R514, R515). -/
def execSegTransferTimeout (session : Nat) (snap : Option (Nat × Nat)) (s : State) : Host.Outcome State Fault Refusal :=
  s.onDev fun d => d.updSession session fun t => match snap with
    | none => { t with seg := none }
    | some p => { t with snaps := t.snaps.filter fun n => !(n.index = p.1 && n.sub = p.2) }

/-- DOMAIN_RDMA: the transfer begins and the response waits for its end (R516). -/
def Dev.rdmaOp (d : Dev) (id role : Nat) (r : OpRec) (data : List Byte) : Dev × DopAns :=
  let out := !bit r.arg 8
  let n := 16384 + bits r.arg 7 0
  let w := leNat data
  match Dev.opCheck role r fun o => if out then o.isDomain && (o.access = 0 || o.access = 2) else o.takesDomain with
  | .error c => ended (d.reply c)
  | .ok o =>
    match firstFail [
      (data.length != 24, cBadArgument),
      (bits w 127 96 != 0, cReservedNonzero),
      (!out && decide (o.len < bits w 191 128), cBounds),
      (((d.session? id).bind (·.rdma)).isSome, cBusy),
      ((d.qp n).state != 1, cStateInvalid)] with
    | some c => ended (d.reply c)
    | none =>
      let mark (d : Dev) (snaps : List Snap) : Dev :=
        d.updSession id fun s => { s with rdma := some (n, !out, r.index, r.sub, r.reqId), snaps := s.snaps ++ snaps }
      if out then
        match d.snapshot id r.index r.sub with
        | .error c => ended (d.reply c)
        | .ok (d, bs) =>
          if bits w 191 128 < bs.length then ended (d.reply cBounds)
          else ((mark d [⟨r.index, r.sub, bs⟩]).emit (.eth 13 [n, bits w 63 0, bits w 95 64] bs), none)
      else ((mark d []).emit (.eth 11 [n, bits w 63 0, bits w 95 64, bits w 191 128] []), none)

/-- The meaning of DOMAIN_RDMA. -/
def execDomainRdma (session : Option Nat) (r : OpRec) (data : List Byte) (s : State) : Host.Outcome State Fault Refusal :=
  s.onDev fun d => d.operate session r false fun id role d => d.rdmaOp id role r data

/-- A transfer has ended: what was read from the host is applied, and the response carries the CRC-64 of the bytes moved (R365, R516). -/
def Dev.rdmaDone (d : Dev) (id : Nat) (data : List Byte) : Dev :=
  match d.session? id with
  | none => d
  | some s =>
    match s.rdma with
    | none => d
    | some (_, inward, i, sub, req) =>
      let mine (n : Snap) : Bool := n.index = i && n.sub = sub
      let bs := if inward then data else ((s.snaps.find? mine).map (·.data)).getD []
      let (d, sel, _) := (d.updSession id fun s => { s with rdma := none, snaps := s.snaps.filter fun n => !mine n }).selecting s.selects fun d =>
        if inward then (d.domainWrite id i sub bs).overtake id i sub |> ended else ended d
      (d.updSession id fun s => { s with selects := sel }).respond id req (some (0, natLe (crc64 bs) 8))

/-- The meaning of DOMAIN_RDMA_COMPLETE; `data` is what was read from the host. -/
def execDomainRdmaComplete (session : Nat) (data : List Byte) (s : State) : Host.Outcome State Fault Refusal :=
  s.onDev fun d => d.rdmaDone session data

/-! ### Notifications (R517) -/

/-- SUBSCRIBE: adds a range, up to 16, or with cancel removes it. -/
def Dev.subscribeOp (d : Dev) (id : Nat) (r : OpRec) : Dev × DopAns :=
  let range := (r.index, r.arg % 2 ^ 16)
  let subs := ((d.session? id).map (·.subs)).getD []
  if r.cancel then ended (d.updSession id fun s => { s with subs := s.subs.filter (· != range) })
  else if range.2 < range.1 || (decide (16 ≤ subs.length) && !subs.contains range) then ended (d.reply cBadArgument)
  else ended (d.updSession id fun s => { s with subs := if s.subs.contains range then s.subs else s.subs ++ [range] })

/-- The meaning of SUBSCRIBE. -/
def execSubscribe (session : Option Nat) (r : OpRec) (s : State) : Host.Outcome State Fault Refusal :=
  s.onDev fun d => d.operate session r false fun id _ d => d.subscribeOp id r

/-- The meaning of ACK: the NOTIFY of a sequence number is acknowledged. -/
def execAck (session : Option Nat) (r : OpRec) (s : State) : Host.Outcome State Fault Refusal :=
  s.onDev fun d => d.operate session r false fun id _ d =>
    ended (d.updSession id fun s => { s with notes := s.notes.filter fun n => n.seq % 2 ^ 32 != r.arg })

/-- An unacknowledged NOTIFY is sent again; after the fifth sending it is dropped (R517). -/
def Dev.notifyAgain (d : Dev) (id seq : Nat) : Dev :=
  match ((d.session? id).bind fun s => s.notes.find? fun n => n.seq = seq) with
  | none => d
  | some n =>
    if 5 ≤ n.sent then
      (d.updSession id fun s => { s with notes := s.notes.filter fun m => m.seq != seq }).bump 0x1100 9 1
    else
      (d.updSession id fun s => { s with notes := s.notes.map fun m => if m.seq = seq then { m with sent := m.sent + 1 } else m }).emit
        (.notify id { n with sent := n.sent + 1 })

/-- The meaning of NOTIFY_RESEND_TIMER. -/
def execNotifyResendTimer (session seq : Nat) (s : State) : Host.Outcome State Fault Refusal := s.onDev fun d => d.notifyAgain session seq

/-! ### Sessions (R509 to R512, R541) -/

/-- Public key and highest role under a key index: client keys 0 to 15; the vendor keys follow them and serve MANUFACTURE and RETURNED (R509, R541). -/
def Dev.clientKey (d : Dev) (i role : Nat) : Option (List Byte × Nat) :=
  if i < 16 then (nmGet d.dop.keys i).map fun e => (e.drop 8, (e.headD 0#8).toNat)
  else if d.sec.fuses.lc = 0 || d.sec.fuses.lc = 3 || role = 3 then some (Config.vendorKey i, 3) else none

/-- The refusal of a HELLO (R510). -/
def Dev.helloCheck (d : Dev) (body : List Byte) : Option Code :=
  let role := (body.getD 33 0#8).toNat
  let key := d.clientKey (body.getD 32 0#8).toNat role
  let signed := key.any fun k => Config.sigOk k.1 (Config.sha3 (body.take 1616)) (body.drop 1616)
  firstFail [
    (body.length != 6243 || leNat ((body.drop 40).take 8) != d.sec.fuses.serial || !signed, cAuthFailed),
    (decide ((key.map Prod.snd).getD 0 < role), cRoleInsufficient),
    (role = 3 && d.sec.fuses.lc != 0 && d.sec.fuses.lc != 3, cLifecycleDenied),
    (decide (64 ≤ d.dop.sessions.length), cBusy)]

/-- A HELLO is answered with ACCEPT under keys of a new session, or refused with an anonymous RESPONSE (R510, R511). -/
def Dev.hello (d : Dev) (path : DopPath) (body : List Byte) : Dev :=
  if d.pow.mgmt ≠ 2 then d
  else
    match d.helloCheck body with
    | some c => ((if c = cAuthFailed then d.bump 0x1100 6 1 else d).reply c).emit (.dop 0 0 c 0 [])
    | none =>
      let (nonce, d) := d.fresh
      let (rand, d) := d.fresh
      let ek := (body.drop 48).take 1568
      let id := d.dop.nextId
      let head := natLe id 4 ++ List.replicate 4 0#8 ++ natLe nonce 32 ++ Config.kemCipher ek rand
      let accept := head ++ Config.sign d.sec.fuses.identitySeed (Config.sha3 (body ++ head))
      let t := (Config.sha3 (body ++ accept)).toNat
      let k := Config.kemSecret ek rand
      let s : Session :=
        { id := id, key := (body.getD 32 0#8).toNat, role := (body.getD 33 0#8).toNat, path := path, isOpen := false, transcript := t
          keyC2d := Config.kmac k t 256 (asciiNat "DOP c2d"), keyD2c := Config.kmac k t 256 (asciiNat "DOP d2c"), highest := 0, seen := []
          nextSeq := 1, lastUse := d.time, stage := [], kept := [], subs := [], notes := [], seg := none, snaps := [], selects := []
          nonce := none, rdma := none }
      { d with dop := { d.dop with sessions := d.dop.sessions ++ [s], nextId := id % (2 ^ 32 - 1) + 1 } }.emit (.eth 12 [path.kind, path.addr] accept)

/-- The meaning of HELLO. -/
def execHello (path : DopPath) (body : List Byte) (s : State) : Host.Outcome State Fault Refusal := s.onDev fun d => d.hello path body

/-- A FINISH opens its session; one that fails ends it (R510). -/
def Dev.finish (d : Dev) (id : Nat) (mac : List Byte) : Dev :=
  match d.dop.sessions.find? fun s => s.id = id && !s.isOpen with
  | none => d
  | some s =>
    if mac = natLe (Config.kmac s.keyC2d s.transcript 256 (asciiNat "DOP finish")) 32 then
      d.updSession id fun s => { s with isOpen := true, lastUse := d.time }
    else (d.closeSessions fun s => s.id = id).bump 0x1100 6 1

/-- The meaning of FINISH. -/
def execFinish (session : Nat) (mac : List Byte) (s : State) : Host.Outcome State Fault Refusal := s.onDev fun d => d.finish session mac

/-- The meaning of FINISH_TIMEOUT: 1 s has passed since ACCEPT (R510). -/
def execFinishTimeout (session : Nat) (s : State) : Host.Outcome State Fault Refusal :=
  s.onDev fun d => d.closeSessions fun s => s.id = session && !s.isOpen

/-- The meaning of CLOSE (R512). -/
def execClose (session : Nat) (s : State) : Host.Outcome State Fault Refusal := s.onDev fun d => d.closeSessions fun s => s.id = session

/-- The meaning of SESSION_IDLE_TIMEOUT: no message has been accepted for dop.session_idle_s (R512). -/
def execSessionIdleTimeout (session : Nat) (s : State) : Host.Outcome State Fault Refusal :=
  s.onDev fun d => d.closeSessions fun s => s.id = session && s.isOpen

/-! ### Fragments (R502 to R504, R507, R512, R513, R518) -/

/-- Relays a fragment of a client of this device towards its target, under a relay identifier (R518, R519). -/
def Dev.dopRelay (d : Dev) (path : DopPath) (dst : Nat) (bs : List Byte) : Dev :=
  let live := d.rack.relays.filter fun e => decide (d.time ≤ e.used + 10000000000)
  let known := live.find? fun e => e.path = path
  if d.self = 0xFFFF || (known.isNone && decide (256 ≤ live.length)) then d
  else
    let rid := (known.map (·.relayId)).getD d.rack.nextRelay
    let d := { d with rack := { d.rack with
      relays := (live.filter fun (e : RelayEnt) => e.relayId != rid) ++ [(⟨rid, path, d.time⟩ : RelayEnt)]
      nextRelay := if known.isSome then d.rack.nextRelay else (d.rack.nextRelay + 1) % 2 ^ 16 } }
    let h := leNat (bs.take 32)
    let h' := h - 2 ^ 25 * bits h 25 25 + 2 ^ 25 - 2 ^ 176 * bits h 191 176 + 2 ^ 176 * d.self
    let ps := chunks 256 5 (natLe h' 32 ++ bs.drop 32)
    (ps.zipIdx.foldl (fun (d : Dev) (p : List Byte × Nat) => d.sendMgmt dst 8 0 0 0 0
      (.relay { dstDev := dst, origin := d.self, relayId := rid, piece := p.2, piecesM1 := ps.length - 1, hops := 0, bytes := p.1 })) d).bump 0x1100 0xA 1

/-- Whether a fragment's own fields are consistent (R503, R504): sizes, place among its fragments, and the length that follows the header. -/
def fragShape (h len : Nat) (tagged : Bool) : Bool :=
  let frag := bits h 135 128
  let last := bits h 143 136
  let msg := bits h 159 144
  let n := bits h 207 192
  decide (frag ≤ last) && decide (last ≤ 15) && decide (1 ≤ msg) && decide (msg ≤ 16384) && ceilDiv msg 1024 = last + 1
    && n = (if frag < last then 1024 else msg - 1024 * last) && len = 32 + n + if tagged then 32 else 0

/-- A session accepts a message of a sequence number (R512). -/
def Session.accept (s : Session) (path : DopPath) (seq time : Nat) : Session :=
  let high := max s.highest seq
  { s with path := path, highest := high, seen := (seq :: s.seen).filter fun n => decide (high ≤ n + 64), lastUse := time }

/-- A whole message has come (R504, R512, R513): it is accepted and put out for its operations; anonymous ones are limited to 1,000 a second. -/
def Dev.messageIn (d : Dev) (m : Reasm) : Dev :=
  let body := m.got.flatMap Prod.snd
  if m.anon then
    let sec := d.time / 1000000000
    let n := if d.dop.anonSecond = sec then d.dop.anonCount else 0
    if 1000 ≤ n then d.bump 0x1100 6 1
    else
      let d := { d with dop := { d.dop with anonSecond := sec, anonCount := n + 1 } }
      if m.kind = 0x10 && d.objD 0x1100 3 0 = 0 then ((d.bump 0x1100 6 1).reply cAuthFailed).emit (.dop 0 0 cAuthFailed 0 [])
      else d.emit (.eth 10 [m.kind, m.session, m.seq] body)
  else
    (if m.kind = 0x01 then d else d.updSession m.session fun s => s.accept m.path m.seq d.time).emit (.eth 10 [m.kind, m.session, m.seq] body)

/-- A fragment joins the others of its message (R504). -/
def Dev.fragIn (d : Dev) (path : DopPath) (h : Nat) (body : List Byte) : Dev :=
  let mine (m : Reasm) : Bool := m.path = path && m.session = bits h 63 32 && m.seq = bits h 127 64 && m.kind = bits h 23 16
  let fresh : Reasm := ⟨path, bits h 63 32, bits h 127 64, bits h 143 136, bits h 159 144, bits h 23 16, bit h 24, []⟩
  let old := (d.dop.reasm.find? mine).getD fresh
  let rest := d.dop.reasm.filter fun m => !mine m
  if old.bytes != bits h 159 144 || old.fragsM1 != bits h 143 136 then d.bump 0x1100 8 1
  else
    let new := { old with got := nmSet old.got (bits h 135 128) body }
    if new.got.length = new.fragsM1 + 1 then { d with dop := { d.dop with reasm := rest } }.messageIn new
    else { d with dop := { d.dop with reasm := rest ++ [new] } }

/-- Why a fragment of a session is discarded (row 3 of R507): false a failed authentication, true a sequence outside the window. -/
def Dev.sessionFails (d : Dev) (h : Nat) (bs : List Byte) : Option Bool :=
  match d.dop.sessions.find? fun s => s.id = bits h 63 32 && (s.isOpen || bits h 23 16 = 0x03) with
  | none => some false
  | some s =>
    let n := bs.length - 32
    if bs.drop n != natLe (Config.kmac s.keyC2d (bytesNat (bs.take n)) 256 (asciiNat "DOP tag")) 32 then some false
    else if bits h 127 64 + 64 < s.highest || s.seen.contains (bits h 127 64) then some true
    else none

/-- A fragment arrives: relayed, or checked under rows 1 to 3 of R507 and joined to its message. -/
def Dev.fragment (d : Dev) (path : DopPath) (vlan : Nat) (bs : List Byte) : Dev :=
  let h := leNat (bs.take 32)
  let kind := bits h 23 16
  let dst := bits h 175 160
  let tagged := !bit h 24 && kind != 0x01 && kind != 0x02
  if path.kind ≤ 1 ∧ vlan ≠ d.objD 0x2800 6 0xFFFF then d.bump 0x2800 0xC 1
  else if path.kind = 1 ∧ d.objD 0x1100 2 1 = 0 then d
  else if bs.length < 32 then d.bump 0x1100 8 1
  else if dst ≠ 0xFFFF ∧ dst ≠ d.self then if path.kind ≤ 1 then d.dopRelay path dst bs else d
  else if bits h 15 8 ≠ 1 then (d.reply cUnsupportedVersion).emit (.dop 0 0 cUnsupportedVersion 0 [])
  else if bits h 31 26 ≠ 0 ∨ bits h 255 208 ≠ 0 ∨ !(List.contains [0x01, 0x02, 0x03, 0x04, 0x10, 0x11, 0x12] kind) ∨ !fragShape h bs.length tagged then
    d.bump 0x1100 8 1
  else if tagged then
    match d.sessionFails h bs with
    | some false => d.bump 0x1100 6 1
    | some true => d.bump 0x1100 7 1
    | none => d.fragIn path h ((bs.drop 32).take (bits h 207 192))
  else d.fragIn path h (bs.drop 32)

/-- The meaning of DOP_FRAGMENT: the path it comes by, its VLAN (0xFFFF untagged), its bytes, and the bytes that the DOP priority's receive buffer then holds. -/
def execDopFragment (path : DopPath) (vlan : Nat) (fragment : List Byte) (buffer : Nat) (s : State) : Host.Outcome State Fault Refusal :=
  s.onDev fun d =>
    let d := if path.kind ≤ 1 then d.pfcFill 1 buffer else d
    if d.pow.mgmt ≠ 2 then d else d.fragment path vlan fragment

/-- The meaning of DOP_REASSEMBLY_TIMEOUT: fragments that have not all come within 100 ms are discarded (R504). -/
def execDopReassemblyTimeout (path : DopPath) (session seq : Nat) (s : State) : Host.Outcome State Fault Refusal :=
  s.onDev fun d => { d with dop := { d.dop with reasm := d.dop.reasm.filter fun m => !(m.path = path && m.session = session && m.seq = seq) } }

/-! ### The I3C target (R414, R522, R523) -/

/-- Objects that the sideband may read (R523). -/
def i3cReads (i s : Nat) : Bool :=
  i = 0x1000 || i = 0x2000 || i = 0x2001 || (decide (0x2100 ≤ i) && decide (i < 0x2200) && (findObj i s).all fun o => o.role = 0)
    || (i = 0x6104 && (s = 1 || s = 2)) || (i = 0x6105 && (s = 8 || s = 9)) || (i = 0x6103 && s = 5)

/-- Whether the management firmware answers the sideband; otherwise the boot ROM does (R523). -/
def Dev.fwOnI3c (d : Dev) : Bool := d.pow.mgmt = 2 && d.pow.pcyc = 0

/-- Keeps what the next private read returns. -/
def Dev.i3cKeep (d : Dev) (data : List Byte) : Dev := { d with dop := { d.dop with i3cLast := some (d.answer, data) } }

/-- A request of the sideband: no answer while i3c.enable is 0 or the management complex is in reset (R522, R523). -/
def Dev.i3cAsk (d : Dev) (f : Dev → Dev) : Dev := if d.objD 0x1103 1 1 = 0 || d.pow.mgmt = 0 then d else f d

/-- A private write with op READ. -/
def Dev.i3cRead (d : Dev) (i s : Nat) : Dev :=
  let rom := i = 0x1000 || i = 0x2001 || (i = 0x6105 && s = 8)
  if !d.fwOnI3c && !rom then (d.reply cStateInvalid).i3cKeep []
  else if !i3cReads i s then (d.reply cRoleInsufficient).i3cKeep []
  else
    match findObj i s with
    | none => (d.reply cBadArgument).i3cKeep []
    | some o => d.i3cKeep (natLe (d.objRead o i s) o.len)

/-- The meaning of I3C_READ. -/
def execI3cRead (index sub : Nat) (s : State) : Host.Outcome State Fault Refusal := s.onDev fun d => d.i3cAsk fun d => d.i3cRead index sub

/-- A private write with op WRITE: only alert.cause accepts it. -/
def Dev.i3cWrite (d : Dev) (i s : Nat) (data : List Byte) : Dev :=
  if !d.fwOnI3c then (d.reply cStateInvalid).i3cKeep []
  else if i ≠ 0x6104 ∨ s ≠ 1 then (d.reply cRoleInsufficient).i3cKeep []
  else if data.length ≠ 1 then (d.reply cBadArgument).i3cKeep []
  else (d.alertClear (leNat data)).i3cKeep []

/-- The meaning of I3C_WRITE. -/
def execI3cWrite (index sub : Nat) (value : List Byte) (s : State) : Host.Outcome State Fault Refusal :=
  s.onDev fun d => d.i3cAsk fun d => d.i3cWrite index sub value

/-- The meaning of I3C_PRIVATE_READ: status, length and value of the last request. -/
def execI3cPrivateRead (s : State) : Host.Outcome State Fault Refusal :=
  s.onDev fun d => d.i3cAsk fun d =>
    match d.dop.i3cLast with
    | none => d
    | some (c, data) => { d with dop := { d.dop with i3cLast := none } }.emit (.bytes 3 (natLe c 2 ++ natLe data.length 1 ++ data))

/-- The meaning of I3C_DYNAMIC_ADDRESS (R522). -/
def execI3cDynamicAddress (address : Nat) (s : State) : Host.Outcome State Fault Refusal :=
  s.onDev fun d => d.i3cAsk fun d => { d with dop := { d.dop with i3cAddr := some (address % 128) } }

end Sys2Proof.Machine
end

