-- ==== Sys2Proof/Machine/Boot.lean ====
section
/-! DEFINITION. The boot chain, the start-time memory test, and words with a reserved major opcode (R91, R92, R410, R499, R530, R531, R540, R551, R557 to R561). -/

namespace Sys2Proof.Machine

/-! ### The boot ROM (R529 to R531) -/

/-- The slot that this start boots: the other slot, when it is marked good, after one that was refused or did not reach service; otherwise the one marked next (R531; log entry 38). -/
def Store.bootSlot (t : Store) : Bool :=
  match t.tried with
  | some b => if t.mgmt.good (!b) then !b else t.mgmt.next
  | none => t.mgmt.next

/-- The management complex leaves reset and the boot ROM verifies the image of the boot slot (R530, R531, R537). -/
def Dev.bootRom (d : Dev) : Dev :=
  let t := d.sec.store
  let b := t.bootSlot
  if d.pow.mgmt ≠ 0 then d
  else if d.pow.railBad ∨ (d.sec.fuses.lc = 4 ∧ t.erased = true) then d.romAlone
  else
    let d := d.updStore fun t => { t with tried := some b }
    match t.mgmt.at_ b with
    | none => d.romAlone
    | some m =>
      match d.sec.imageCheck 1 m with
      | some c => (d.imageRefused c).romAlone
      | none => { (d.updStore fun t => { t with mgmt := { t.mgmt with inForce := b } }) with pow := { d.pow with mgmt := 1 } }

/-- The meaning of MGMT_RESET_RELEASE. -/
def execMgmtResetRelease (s : State) : Host.Outcome State Fault Refusal := s.onDev Dev.bootRom

/-! ### Management firmware begins (R410, R499, R530, R540, R551, R557) -/

/-- Measures the management image in force. -/
def Dev.measured (d : Dev) : Dev :=
  match d.sec.store.mgmt.at_ d.sec.store.mgmt.inForce with
  | none => d
  | some m => d.updSec fun s => { s with fwDigest := m.digest, fwVersion := bits m.hdr 159 128 }

/-- With no verifying copy of the defect map the start is cold and a new map begins with a record of kind 8 (R410). -/
def Dev.mapRead (d : Dev) (mapOk : Bool) : Dev :=
  if mapOk then d
  else ({ d with keep := { clearKeep with replace := d.keep.replace }, pow := { d.pow with cold := true } }.defect 8 cBlockCheckFail 0 0xFFFF 0).setObj 0x2104 5 1

/-- Row maps from the fences: home maps, and a retired row holds no logical row (R22, R30). -/
def Keep.rowMaps (k : Keep) : Vector Nat 32 :=
  Vector.ofFn fun (i : Fin 32) => if k.retired = some i.val then 0xFFFFFFFF else homeMap (vGet k.fences i.val 0)

/-- Core firmware is verified and measured: the slot marked next, else the other one when it is marked good; with neither, nothing is measured (R530, R531; log entry 38). Its idle program is loaded into slot 0 of every logical core (R559; log entry 114). -/
def Dev.coreFirmware (d : Dev) : Dev :=
  let f := d.sec.store.core
  let fits (b : Bool) : Option SignedImage := (f.at_ b).filter fun m => (d.sec.imageCheck 2 m).isNone
  let use (b : Bool) (m : SignedImage) (d : Dev) : Dev :=
    { (d.updSec fun s => { s with coreDigest := m.digest, store := { s.store with core := { s.store.core with inForce := b } } }) with
      idleGear := true }.bump 0x4400 2 (60 * d.rows)
  match fits f.next with
  | some m => use f.next m d
  | none =>
    let d := match (f.at_ f.next).bind fun m => d.sec.imageCheck 2 m with
      | some c => d.imageRefused c
      | none => d
    match (fits (!f.next)).filter fun _ => f.good (!f.next) with
    | some m => use (!f.next) m d
    | none => d

/-- Every policy module of the store is verified; a refused one is left unloaded (R530, R533). -/
def Dev.loadPolicies (d : Dev) : Dev :=
  d.sec.store.policy.foldl (fun d p => match d.sec.imageCheck 3 p.2 with
    | some c => d.imageRefused c
    | none => d.updSec fun s => { s with loaded := insertUp s.loaded p.1 }) d

/-- start.full_test makes the start cold and returns to 0; a cold start keeps no tier-2 contents (R558, R560). -/
def Dev.fullTest (d : Dev) : Dev :=
  let d := if d.objD 0x2104 4 0 = 1 then
      ({ d with pow := { d.pow with cold := true } }.setObj 0x2104 4 0).updStore fun t => { t with saved := nmErase t.saved (okey 0x2104 4) }
    else d
  if d.pow.cold then { d with pow := { d.pow with keep2 := false }, ckpts := [], buddies := [] } else d

/-- The CORE clock runs at 0.95 GHz until VCORE meets the published target; a requested clock that is no higher is in force at once (R551; log entry 38). -/
def Dev.clockTarget (d : Dev) : Dev :=
  let k := d.askedClock
  let d := { (d.setObj 0x2100 2 (targetFor k)) with pow := { d.pow with vcoreMet := false } }
  if k ≤ 950000 then d.setObj 0x2103 1 k else d

/-- Management firmware runs; `mapOk` says that a copy of the defect map verifies. A part in SCRAPPED runs it only to complete its erase (R537, R540). -/
def Dev.firmwareRuns (d : Dev) (mapOk : Bool) : Dev :=
  if d.pow.mgmt ≠ 1 then d
  else
    let d := if 3 ≤ d.sec.fuses.lc ∧ d.sec.store.erased = false then d.eraseOwner else d
    if d.sec.fuses.lc = 4 then d.romAlone
    else
      let d := { d with pow := { d.pow with mgmt := 2 } }.measured.mapRead mapOk
      let d := { d with rowMap := d.keep.rowMaps, fencesAt := d.keep.fences }.coreFirmware.loadPolicies
      (((d.applySets.fullTest).clockTarget.setObj 0x2800 2 1).setObj 0x2104 2 2).answers cOk

/-- The meaning of MGMT_FW_RUN. -/
def execMgmtFwRun (mapOk : Bool) (s : State) : Host.Outcome State Fault Refusal := s.onDev fun d => d.firmwareRuns mapOk

/-! ### Memory initialisation and the memory test (R557, R560, R561) -/

/-- The meaning of MEMORY_INIT_COMPLETE: the memory test begins. -/
def execMemoryInitComplete (s : State) : Host.Outcome State Fault Refusal :=
  s.onDev fun d =>
    if d.objD 0x2104 2 1 ≠ 2 then d else d.setObj 0x2104 2 3

/-- The device enters service: boot slots are good and the start counts as successful (R530, R531, R557). -/
def Dev.enterService (d : Dev) : Dev :=
  let d := d.updStore fun t => { t with mgmt := t.mgmt.mark t.mgmt.inForce true, core := t.core.mark t.core.inForce true, tried := none }
  { (d.setObj 0x2104 3 ((d.time - d.pow.startAt) / 1000000)) with
    pow := { d.pow with failed := 0, lockFail := false, railFault := false } }.setObj 0x2104 2 0xFF

/-- The memory test ends: its defects are handled as in service and the device enters service (R561). -/
def Dev.testFinds (d : Dev) (f : TestFinds) : Dev :=
  if d.objD 0x2104 2 1 ≠ 3 then d
  else
    let before := d.keep.recs.length
    let kept (k : Ckpt) : Bool := !(f.lost.contains (k.device, k.ctx, k.slot))
    let d := f.cells.foldl (fun d p => d.fenceCell p.1 p.2 true) d
    let d := f.rows.foldl (fun d p => d.mapRow p.1 p.2.1 p.2.2.1 p.2.2.2 none) d
    let d := f.frames.foldl (fun d n => if d.keep.frames.contains n then d else d.retireFree n) d
    let d := { d with ckpts := d.ckpts.filter kept, buddies := d.buddies.filter kept }
    (d.setObj 0x2104 5 (d.objD 0x2104 5 0 + (d.keep.recs.length - before))).enterService

/-- The meaning of MEMORY_TEST_COMPLETE. -/
def execMemoryTestComplete (finds : TestFinds) (s : State) : Host.Outcome State Fault Refusal := s.onDev fun d => d.testFinds finds

/-! ### A reserved major opcode (R91, R92) -/

/-- A running core is presented with a word whose major opcode is reserved: row 1 of R92 refuses it in the first cycle, whatever its guard. An AOP of a reserved function, of which the common fields are given, is refused by row 4 when its guard lets it execute (R90, R107). -/
def Dev.reservedOpcode (d : Dev) (c : CoreId) (aop : Option Common) : Dev :=
  let s := (d.arch c).stat
  match aop with
  | some g => d.present c g ⟨0, false, []⟩ ⟨noWait, fun _ _ => some cReservedNonzero, fun d _ => d⟩
  | none =>
  if s.run ≠ .running then d
  else if (d.arch c).routerBehind then d.stalled c .routerBehind
  else if !(d.core c).inCode s.gear s.pc then d.stop c cBounds 0 0 s.lastPc s.gear 0 0
  else d.refuse c ⟨false, 0, 0⟩ 0 s.now cReservedNonzero

/-- The meaning of RESERVED_OPCODE. -/
def execReservedOpcode (word : ReservedWord) (s : State) : Host.Outcome State Fault Refusal :=
  s.onDev fun d => d.reservedOpcode word.core word.aop

/-! ### The passage of TIME (R554; log entry 1) -/

/-- One nanosecond of TIME passes; a fence that waits for gates and a retirement that waits for packets of the other epoch bit are looked at again (R30, R245, R399). -/
def Dev.tick (d : Dev) : Dev :=
  let d := { d with time := (d.time + 1) % 2 ^ 64 }.fencePassed fun _ => false
  if d.retiring.isSome then d.cellsFreed else d

/-- What a step does when no command waits. -/
def execTick (s : State) : Host.Outcome State Fault Refusal := s.onDev Dev.tick

end Sys2Proof.Machine
end

