-- ==== Sys2Proof/Machine/Dispatch.lean ====
section
/-! DEFINITION. Which meaning each command has: one arm per row of the operation table. -/

namespace Sys2Proof.Machine

/-- The effect of a command on everything but the queue. -/
def exec (i : Instr) (s : State) : Host.Outcome State Fault Refusal :=
  match i with
  | .nop c g => Sys2Proof.Machine.execNop c g s
  | .alu c g sD sA fn sB => Sys2Proof.Machine.execAlu c g sD sA fn sB s
  | .alui c g sD sA fn imm => Sys2Proof.Machine.execAlui c g sD sA fn imm s
  | .cmp c g pD sA sB cond => Sys2Proof.Machine.execCmp c g pD sA sB cond s
  | .cmpi c g pD sA cond imm => Sys2Proof.Machine.execCmpi c g pD sA cond imm s
  | .plog c g pD srcA srcB op inv => Sys2Proof.Machine.execPlog c g pD srcA srcB op inv s
  | .br c g sLink target => Sys2Proof.Machine.execBr c g sLink target s
  | .brr c g sLink sT => Sys2Proof.Machine.execBrr c g sLink sT s
  | .ld c g sR aR size sext postInc imm late => Sys2Proof.Machine.execLd c g sR aR size sext postInc imm late s
  | .st c g sR aR size postInc imm => Sys2Proof.Machine.execSt c g sR aR size postInc imm s
  | .aset c g aD sX imm => Sys2Proof.Machine.execAset c g aD sX imm s
  | .aoff c g aD sX imm => Sys2Proof.Machine.execAoff c g aD sX imm s
  | .aadd c g aD sX imm => Sys2Proof.Machine.execAadd c g aD sX imm s
  | .amov c g aD aS => Sys2Proof.Machine.execAmov c g aD aS s
  | .aget c g sX aS => Sys2Proof.Machine.execAget c g sX aS s
  | .ainv c g aD => Sys2Proof.Machine.execAinv c g aD s
  | .gate c g last => Sys2Proof.Machine.execGate c g last s
  | .shift c g gear carry entry => Sys2Proof.Machine.execShift c g gear carry entry s
  | .steer c g sTok port => Sys2Proof.Machine.execSteer c g sTok port s
  | .chkRead c g sD sel => Sys2Proof.Machine.execChkRead c g sD sel s
  | .waitq c g sD mode poll qmask => Sys2Proof.Machine.execWaitq c g sD mode poll qmask s
  | .dmaWait c g sD qmask => Sys2Proof.Machine.execDmaWait c g sD qmask s
  | .accOpen c g grp base rowsM1 init aBias => Sys2Proof.Machine.execAccOpen c g grp base rowsM1 init aBias s
  | .accClose c g grp => Sys2Proof.Machine.execAccClose c g grp s
  | .tmul c g f => Sys2Proof.Machine.execTmul c g f s
  | .tmuls c g f => Sys2Proof.Machine.execTmuls c g f s
  | .accDrain c g f => Sys2Proof.Machine.execAccDrain c g f s
  | .vop c g f => Sys2Proof.Machine.execVop c g f s
  | .vopLd c g v aV postInc imm => Sys2Proof.Machine.execVopLd c g v aV postInc imm s
  | .vopSt c g v aV postInc imm => Sys2Proof.Machine.execVopSt c g v aV postInc imm s
  | .send c g f => Sys2Proof.Machine.execSend c g f s
  | .recvAck c g queue nM1 => Sys2Proof.Machine.execRecvAck c g queue nM1 s
  | .dmaGet c g aDesc queue => Sys2Proof.Machine.execDmaGet c g aDesc queue s
  | .dmaPut c g aDesc queue => Sys2Proof.Machine.execDmaPut c g aDesc queue s
  | .tensorCommandStart c => Sys2Proof.Machine.execTensorCommandStart c s
  | .tensorCommandComplete c late => Sys2Proof.Machine.execTensorCommandComplete c late s
  | .vectorCommandStart c => Sys2Proof.Machine.execVectorCommandStart c s
  | .vectorCommandComplete c late => Sys2Proof.Machine.execVectorCommandComplete c late s
  | .checkerVerdict c rows cols refRows refCols q => Sys2Proof.Machine.execCheckerVerdict c rows cols refRows refCols q s
  | .sendStart c => Sys2Proof.Machine.execSendStart c s
  | .recvAckStart c => Sys2Proof.Machine.execRecvAckStart c s
  | .rpStoreStart c => Sys2Proof.Machine.execRpStoreStart c s
  | .messageCommandComplete c => Sys2Proof.Machine.execMessageCommandComplete c s
  | .dmaCommandStart c => Sys2Proof.Machine.execDmaCommandStart c s
  | .dmaGranuleComplete c ge => Sys2Proof.Machine.execDmaGranuleComplete c ge s
  | .lastStatusRead c unit => Sys2Proof.Machine.execLastStatusRead c unit s
  | .hardFault c => Sys2Proof.Machine.execHardFault c s
  | .hubStarvationGrant loser => Sys2Proof.Machine.execHubStarvationGrant loser s
  | .nearStarvationGrant loser => Sys2Proof.Machine.execNearStarvationGrant loser s
  | .eccWriteback c place row => Sys2Proof.Machine.execEccWriteback c place row s
  | .nearRefresh loser wait => Sys2Proof.Machine.execNearRefresh loser wait s
  | .nearRowMapped c lost loser wait => Sys2Proof.Machine.execNearRowMapped c lost loser wait s
  | .verifyBlock c flips => Sys2Proof.Machine.execVerifyBlock c flips s
  | .switchEntryExecute c => Sys2Proof.Machine.execSwitchEntryExecute c s
  | .beatArrival c port ecc => Sys2Proof.Machine.execBeatArrival c port ecc s
  | .steerSkew c => Sys2Proof.Machine.execSteerSkew c s
  | .routerPacketArrival at_ h actual ecc => Sys2Proof.Machine.execRouterPacketArrival at_ h actual ecc s
  | .multicastCompletion c tag => Sys2Proof.Machine.execMulticastCompletion c tag s
  | .meshFlip value => Sys2Proof.Machine.execMeshFlip value s
  | .messageFirstPacket c h units => Sys2Proof.Machine.execMessageFirstPacket c h units s
  | .messagePacket c h units => Sys2Proof.Machine.execMessagePacket c h units s
  | .reduceRootWrite c => Sys2Proof.Machine.execReduceRootWrite c s
  | .creditReturn c srcX srcY srcDev queue inc closed units at_ => Sys2Proof.Machine.execCreditReturn c srcX srcY srcDev queue inc closed units at_ s
  | .gearLoadPacket c fromEngine version slot target offset loadId data => Sys2Proof.Machine.execGearLoadPacket c fromEngine version slot target offset loadId data s
  | .gearSeal c slot loadId check => Sys2Proof.Machine.execGearSeal c slot loadId check s
  | .scanOutComplete ctx region => Sys2Proof.Machine.execScanOutComplete ctx region s
  | .tableWalkComplete c va write corrupt => Sys2Proof.Machine.execTableWalkComplete c va write corrupt s
  | .faultFillComplete ctx page frame data => Sys2Proof.Machine.execFaultFillComplete ctx page frame data s
  | .remoteFetchTimeout ctx page => Sys2Proof.Machine.execRemoteFetchTimeout ctx page s
  | .migrationComplete ctx data => Sys2Proof.Machine.execMigrationComplete ctx data s
  | .admission ctx image leases => Sys2Proof.Machine.execAdmission ctx image leases s
  | .ctxStart ctx => Sys2Proof.Machine.execCtxStart ctx s
  | .ctxStop ctx => Sys2Proof.Machine.execCtxStop ctx s
  | .ctxPreemptGate ctx => Sys2Proof.Machine.execCtxPreemptGate ctx s
  | .ctxPreemptMid ctx => Sys2Proof.Machine.execCtxPreemptMid ctx s
  | .ctxPark ctx => Sys2Proof.Machine.execCtxPark ctx s
  | .ctxUnload ctx => Sys2Proof.Machine.execCtxUnload ctx s
  | .ctxKill ctx => Sys2Proof.Machine.execCtxKill ctx s
  | .ctxReshardGo ctx => Sys2Proof.Machine.execCtxReshardGo ctx s
  | .ctxReshardCancel ctx => Sys2Proof.Machine.execCtxReshardCancel ctx s
  | .quantumExpiry ctx => Sys2Proof.Machine.execQuantumExpiry ctx s
  | .preemptWaitExpiry ctx => Sys2Proof.Machine.execPreemptWaitExpiry ctx s
  | .blockTimeout ctx cause => Sys2Proof.Machine.execBlockTimeout ctx cause s
  | .policyDecision op ctx value => Sys2Proof.Machine.execPolicyDecision op ctx value s
  | .drainComplete ctx => Sys2Proof.Machine.execDrainComplete ctx s
  | .gateSettle ctx region flipA flipB => Sys2Proof.Machine.execGateSettle ctx region flipA flipB s
  | .gateTimerExpiry ctx region => Sys2Proof.Machine.execGateTimerExpiry ctx region s
  | .stepCommit ctx region bad => Sys2Proof.Machine.execStepCommit ctx region bad s
  | .groomTestComplete e rows => Sys2Proof.Machine.execGroomTestComplete e rows s
  | .contentsMove lostBlocks lostShadows => Sys2Proof.Machine.execContentsMove lostBlocks lostShadows s
  | .parkWaitTimeout ctx region => Sys2Proof.Machine.execParkWaitTimeout ctx region s
  | .fenceCmd value => Sys2Proof.Machine.execFenceCmd value s
  | .scrubRead near blk e => Sys2Proof.Machine.execScrubRead near blk e s
  | .groomCellStart px py => Sys2Proof.Machine.execGroomCellStart px py s
  | .recoverCheckpoint auto localOk buddy => Sys2Proof.Machine.execRecoverCheckpoint auto localOk buddy s
  | .reinitContext ctx => Sys2Proof.Machine.execReinitContext ctx s
  | .reinitQueuePair n => Sys2Proof.Machine.execReinitQueuePair n s
  | .alertCauseWrite value => Sys2Proof.Machine.execAlertCauseWrite value s
  | .ppsInEdge ptp => Sys2Proof.Machine.execPpsInEdge ptp s
  | .linkSignalDetect n => Sys2Proof.Machine.execLinkSignalDetect n s
  | .linkRetryTimer n => Sys2Proof.Machine.execLinkRetryTimer n s
  | .linkTrained n lanes => Sys2Proof.Machine.execLinkTrained n lanes s
  | .linkTrainFailed n => Sys2Proof.Machine.execLinkTrainFailed n s
  | .identTimeout n => Sys2Proof.Machine.execIdentTimeout n s
  | .linkFrameTimeout n => Sys2Proof.Machine.execLinkFrameTimeout n s
  | .fecEvaluation n clean => Sys2Proof.Machine.execFecEvaluation n clean s
  | .linkPacketFrame n f p => Sys2Proof.Machine.execLinkPacketFrame n f p s
  | .linkAckFrame n f => Sys2Proof.Machine.execLinkAckFrame n f s
  | .linkNakFrame n f => Sys2Proof.Machine.execLinkNakFrame n f s
  | .linkCreditFrame n f => Sys2Proof.Machine.execLinkCreditFrame n f s
  | .linkIdleFrame n f => Sys2Proof.Machine.execLinkIdleFrame n f s
  | .linkAckTimer n => Sys2Proof.Machine.execLinkAckTimer n s
  | .identFrame n f r => Sys2Proof.Machine.execIdentFrame n f r s
  | .identTimer n => Sys2Proof.Machine.execIdentTimer n s
  | .markerFrame n f step idx => Sys2Proof.Machine.execMarkerFrame n f step idx s
  | .residencyFrame n f here => Sys2Proof.Machine.execResidencyFrame n f here s
  | .residencyResend ctx late => Sys2Proof.Machine.execResidencyResend ctx late s
  | .relayFrame n f p => Sys2Proof.Machine.execRelayFrame n f p s
  | .e2eResendTimeout ctx dev => Sys2Proof.Machine.execE2eResendTimeout ctx dev s
  | .replayRequest n f after => Sys2Proof.Machine.execReplayRequest n f after s
  | .membershipOrder link order => Sys2Proof.Machine.execMembershipOrder link order s
  | .membershipKeysWrite keys => Sys2Proof.Machine.execMembershipKeysWrite keys s
  | .membershipKWrite k => Sys2Proof.Machine.execMembershipKWrite k s
  | .linkRetrain n => Sys2Proof.Machine.execLinkRetrain n s
  | .linkFence n => Sys2Proof.Machine.execLinkFence n s
  | .linkUnfence n => Sys2Proof.Machine.execLinkUnfence n s
  | .leaseWrite sub value => Sys2Proof.Machine.execLeaseWrite sub value s
  | .ckptGo step => Sys2Proof.Machine.execCkptGo step s
  | .ckptPeriodTimer ctx => Sys2Proof.Machine.execCkptPeriodTimer ctx s
  | .buddyAck ctx code => Sys2Proof.Machine.execBuddyAck ctx code s
  | .buddyCopyReceive k => Sys2Proof.Machine.execBuddyCopyReceive k s
  | .arpRequest target asker askerMac => Sys2Proof.Machine.execArpRequest target asker askerMac s
  | .neighbourSolicitation target asker askerMac => Sys2Proof.Machine.execNeighbourSolicitation target asker askerMac s
  | .lldpReceive chassis port => Sys2Proof.Machine.execLldpReceive chassis port s
  | .pfcPauseReceive prio pause => Sys2Proof.Machine.execPfcPauseReceive prio pause s
  | .bctSendReceive n len w buffer => Sys2Proof.Machine.execBctSendReceive n len w buffer s
  | .bctNop n => Sys2Proof.Machine.execBctNop n s
  | .windowSet n => Sys2Proof.Machine.execWindowSet n s
  | .windowClear n => Sys2Proof.Machine.execWindowClear n s
  | .bctLoad n => Sys2Proof.Machine.execBctLoad n s
  | .bctStart n => Sys2Proof.Machine.execBctStart n s
  | .bctStop n => Sys2Proof.Machine.execBctStop n s
  | .bctPreempt n => Sys2Proof.Machine.execBctPreempt n s
  | .bctUnload n => Sys2Proof.Machine.execBctUnload n s
  | .bctGearLoad n => Sys2Proof.Machine.execBctGearLoad n s
  | .peerSet n => Sys2Proof.Machine.execPeerSet n s
  | .bctCheckpoint n => Sys2Proof.Machine.execBctCheckpoint n s
  | .mirror n => Sys2Proof.Machine.execMirror n s
  | .bctCancel n => Sys2Proof.Machine.execBctCancel n s
  | .statusBlockTimer n => Sys2Proof.Machine.execStatusBlockTimer n s
  | .rdmaReadRequest n rkey offset bytes => Sys2Proof.Machine.execRdmaReadRequest n rkey offset bytes s
  | .rdmaWriteRequest n => Sys2Proof.Machine.execRdmaWriteRequest n s
  | .atomicRequest n => Sys2Proof.Machine.execAtomicRequest n s
  | .rdmaReadResponse n done => Sys2Proof.Machine.execRdmaReadResponse n done s
  | .qpRetryExhausted n => Sys2Proof.Machine.execQpRetryExhausted n s
  | .cnpReceive n => Sys2Proof.Machine.execCnpReceive n s
  | .ecnRecoverTimer n => Sys2Proof.Machine.execEcnRecoverTimer n s
  | .steerFlip value => Sys2Proof.Machine.execSteerFlip value s
  | .steeredDatagram g => Sys2Proof.Machine.execSteeredDatagram g s
  | .sendqTransmit q => Sys2Proof.Machine.execSendqTransmit q s
  | .sendqHoldTimeout q => Sys2Proof.Machine.execSendqHoldTimeout q s
  | .ptpEventMessage masterTime => Sys2Proof.Machine.execPtpEventMessage masterTime s
  | .timeDisciplined time => Sys2Proof.Machine.execTimeDisciplined time s
  | .dopFragment path vlan fragment buffer => Sys2Proof.Machine.execDopFragment path vlan fragment buffer s
  | .dopReassemblyTimeout path session seq => Sys2Proof.Machine.execDopReassemblyTimeout path session seq s
  | .hello path body => Sys2Proof.Machine.execHello path body s
  | .finish session mac => Sys2Proof.Machine.execFinish session mac s
  | .finishTimeout session => Sys2Proof.Machine.execFinishTimeout session s
  | .close session => Sys2Proof.Machine.execClose session s
  | .sessionIdleTimeout session => Sys2Proof.Machine.execSessionIdleTimeout session s
  | .read session r => Sys2Proof.Machine.execRead session r s
  | .write session r data => Sys2Proof.Machine.execWrite session r data s
  | .commit session r => Sys2Proof.Machine.execCommit session r s
  | .abort session r => Sys2Proof.Machine.execAbort session r s
  | .segRead session r => Sys2Proof.Machine.execSegRead session r s
  | .segWrite session r data => Sys2Proof.Machine.execSegWrite session r data s
  | .segTransferTimeout session snap => Sys2Proof.Machine.execSegTransferTimeout session snap s
  | .domainRdma session r data => Sys2Proof.Machine.execDomainRdma session r data s
  | .domainRdmaComplete session data => Sys2Proof.Machine.execDomainRdmaComplete session data s
  | .subscribe session r => Sys2Proof.Machine.execSubscribe session r s
  | .describe session r => Sys2Proof.Machine.execDescribe session r s
  | .ack session r => Sys2Proof.Machine.execAck session r s
  | .notifyResendTimer session seq => Sys2Proof.Machine.execNotifyResendTimer session seq s
  | .dopKeysWrite sub entry => Sys2Proof.Machine.execDopKeysWrite sub entry s
  | .registerWrite index sub value => Sys2Proof.Machine.execRegisterWrite index sub value s
  | .i3cRead index sub => Sys2Proof.Machine.execI3cRead index sub s
  | .i3cWrite index sub value => Sys2Proof.Machine.execI3cWrite index sub value s
  | .i3cDynamicAddress address => Sys2Proof.Machine.execI3cDynamicAddress address s
  | .fwStage image => Sys2Proof.Machine.execFwStage image s
  | .coreFwStage image => Sys2Proof.Machine.execCoreFwStage image s
  | .svnCommit kind => Sys2Proof.Machine.execSvnCommit kind s
  | .policyWrite slot image => Sys2Proof.Machine.execPolicyWrite slot image s
  | .policyModuleFault slot => Sys2Proof.Machine.execPolicyModuleFault slot s
  | .ownerRotate rotation => Sys2Proof.Machine.execOwnerRotate rotation s
  | .attestNonce session nonce => Sys2Proof.Machine.execAttestNonce session nonce s
  | .lcShip session token => Sys2Proof.Machine.execLcShip session token s
  | .lcClaim session key => Sys2Proof.Machine.execLcClaim session key s
  | .lcReturn session token => Sys2Proof.Machine.execLcReturn session token s
  | .lcScrap session token => Sys2Proof.Machine.execLcScrap session token s
  | .tapUnlock session value => Sys2Proof.Machine.execTapUnlock session value s
  | .sysResetRelease straps railsOk => Sys2Proof.Machine.execSysResetRelease straps railsOk s
  | .cellRowResetRelease py => Sys2Proof.Machine.execCellRowResetRelease py s
  | .mgmtFwRun mapOk => Sys2Proof.Machine.execMgmtFwRun mapOk s
  | .memoryTestComplete finds => Sys2Proof.Machine.execMemoryTestComplete finds s
  | .coreClockWrite khz quiesce => Sys2Proof.Machine.execCoreClockWrite khz quiesce s
  | .powerSample watts vcore => Sys2Proof.Machine.execPowerSample watts vcore s
  | .thermalSample logic stack tier2 hotPkgs => Sys2Proof.Machine.execThermalSample logic stack tier2 hotPkgs s
  | .reservedOpcode word => Sys2Proof.Machine.execReservedOpcode word s
  | .testAccessPortCycle tms tdi trst => Sys2Proof.Machine.execTestAccessPortCycle tms tdi trst s
  | .relayReassemblyTimeout origin relayId => Sys2Proof.Machine.execRelayReassemblyTimeout origin relayId s
  | .memtestComplete failed => Sys2Proof.Machine.execMemtestComplete failed s
  | .ckptCopyComplete ctx => Sys2Proof.Machine.execCkptCopyComplete ctx s
  | .contentsCopyComplete ctx => Sys2Proof.Machine.execContentsCopyComplete ctx s
  | .roceAckReceive n granules => Sys2Proof.Machine.execRoceAckReceive n granules s
  | .gearLoadGo => Sys2Proof.Machine.execGearLoadGo s
  | .gearLoadCancel => Sys2Proof.Machine.execGearLoadCancel s
  | .migrateGo => Sys2Proof.Machine.execMigrateGo s
  | .ctxLoadGo => Sys2Proof.Machine.execCtxLoadGo s
  | .ctxLoadCancel => Sys2Proof.Machine.execCtxLoadCancel s
  | .policyTimeout => Sys2Proof.Machine.execPolicyTimeout s
  | .groomTestStart => Sys2Proof.Machine.execGroomTestStart s
  | .watchExpiry => Sys2Proof.Machine.execWatchExpiry s
  | .moveComplete => Sys2Proof.Machine.execMoveComplete s
  | .memtestStart => Sys2Proof.Machine.execMemtestStart s
  | .memtestCancel => Sys2Proof.Machine.execMemtestCancel s
  | .groomCellCancel => Sys2Proof.Machine.execGroomCellCancel s
  | .reinitPager => Sys2Proof.Machine.execReinitPager s
  | .reinitEthernet => Sys2Proof.Machine.execReinitEthernet s
  | .warmReset => Sys2Proof.Machine.execWarmReset s
  | .ckptCancel => Sys2Proof.Machine.execCkptCancel s
  | .ethPortDown => Sys2Proof.Machine.execEthPortDown s
  | .ethPortUp => Sys2Proof.Machine.execEthPortUp s
  | .lldpTimer => Sys2Proof.Machine.execLldpTimer s
  | .qpToRts => Sys2Proof.Machine.execQpToRts s
  | .qpToReset => Sys2Proof.Machine.execQpToReset s
  | .ppsOutSecond => Sys2Proof.Machine.execPpsOutSecond s
  | .dictSave => Sys2Proof.Machine.execDictSave s
  | .cfgRackFlip => Sys2Proof.Machine.execCfgRackFlip s
  | .i3cPrivateRead => Sys2Proof.Machine.execI3cPrivateRead s
  | .pwrGoodAssert => Sys2Proof.Machine.execPwrGoodAssert s
  | .pwrGoodDeassert => Sys2Proof.Machine.execPwrGoodDeassert s
  | .sysResetAssert => Sys2Proof.Machine.execSysResetAssert s
  | .mgmtResetRelease => Sys2Proof.Machine.execMgmtResetRelease s
  | .memoryInitComplete => Sys2Proof.Machine.execMemoryInitComplete s
  | .vcoreTargetMet => Sys2Proof.Machine.execVcoreTargetMet s
  | .vcoreTargetTimeout => Sys2Proof.Machine.execVcoreTargetTimeout s
  | .vcoreDroop => Sys2Proof.Machine.execVcoreDroop s
  | .railFault => Sys2Proof.Machine.execRailFault s
  | .pllUnlock => Sys2Proof.Machine.execPllUnlock s
  | .vcoreOvercurrent => Sys2Proof.Machine.execVcoreOvercurrent s
  | .thermalTrip => Sys2Proof.Machine.execThermalTrip s
  | .eventRateSecond => Sys2Proof.Machine.execEventRateSecond s
  | .lockstepDisagreement => Sys2Proof.Machine.execLockstepDisagreement s
  | .alertMinWidthExpiry => Sys2Proof.Machine.execAlertMinWidthExpiry s

end Sys2Proof.Machine
end

