-- ==== Sys2Proof/Safety.lean ====
section
/-! DEFINITION. The terms in which statements about the block are made: safe steps, what a command gives, and when a core issues. -/

namespace Sys2Proof.Machine

/-- An outcome that is a next state. -/
def isNext {σ φ ρ : Type} (o : Host.Outcome σ φ ρ) : Prop := ∃ t, o = .next t

/-- A state is safe when its next step is neither a fault nor a refusal. -/
def safe (s : State) : Prop := isNext (step s)

/-- The clocks of the device run (R549, R550, R570). -/
def clocked (s : State) : Prop := s.dev.pow.stopped = false

/-- The commands that act whatever the clocks do: the reset pins and supplies, the thermal trip and the test access port (R547, R549, R570, R589). -/
def unclocked (i : Instr) : Bool :=
  match i with
  | .pwrGoodAssert | .pwrGoodDeassert | .sysResetAssert | .sysResetRelease _ _ | .thermalTrip | .testAccessPortCycle _ _ _ => true
  | _ => false

/-- y is the exact value at x of the function that a default table approximates: code 2 GELU, 3 SiLU, 4 tanh, 5 sigmoid (R150, R152). -/
def actExact (code : Nat) (x y : ℝ) : Prop :=
  match code with
  | 2 => y = x * ((∫ t in Set.Iic x, Real.exp (-t ^ 2 / 2)) / Real.sqrt (2 * Real.pi))
  | 3 => y = x / (1 + Real.exp (-x))
  | 4 => y = Real.tanh x
  | _ => y = 1 / (1 + Real.exp (-x))

/-- A value of a binary format is finite and is the real number x. -/
def Num.isReal (v : Num) (x : ℝ) : Prop := ∃ neg n q, v = .fin neg n q ∧ x = (sig neg n : ℝ) * (2 : ℝ) ^ q

/-- The bound that R152 sets on the default tables: over every finite input the result is finite and within 2^-22 + 2^-20 * |f(x)| of the exact f(x). The tables' values are free (log entry 10), so a claim that rests on the bound has this as its hypothesis. -/
def actDefaultsWithin : Prop :=
  ∀ code, 2 ≤ code → code ≤ 5 → ∀ (w : Word) (x y : ℝ), (ofF32 w).isReal x → actExact code x y →
    ∃ z, (ofF32 ((defaultTable code).eval w)).isReal z ∧ |z - y| ≤ (2 : ℝ) ^ (-22 : Int) + (2 : ℝ) ^ (-20 : Int) * |y|

/-- A command completes and makes device d of the state: nothing else of the state changes but what closing a command does. -/
def gives (i : Instr) (s : State) (d : Dev) : Prop := exec i s = .next (s.closing d)

/-- Core c is to execute the instruction at its program counter, with common fields g: it runs inside its code range, its router has executed every step cycle up to it, its guard is not reserved and lets the instruction execute, and its own registers are usable from w (R88 to R92, R96, R217). -/
def Dev.issues (d : Dev) (c : CoreId) (g : Common) (unguarded : Bool) (regs : List Nat) (w : At) : Prop :=
  (d.arch c).stat.run = .running ∧ (d.arch c).routerBehind = false ∧ (d.core c).inCode (d.arch c).stat.gear (d.arch c).stat.pc = true ∧ guardReserved g = false
    ∧ (unguarded = true → g.guardIdx = 0 ∧ g.guardNeg = false)
    ∧ ∃ w0, (d.arch c).guardWait g = some w0 ∧ (d.arch c).guardTrue g w0.cyc = true ∧ w = w0.waitRegs (d.arch c).regs regs

/-- The device after core c has issued an instruction in cycle w: clocks advanced, program counter on the next instruction. -/
def Dev.issued (d : Dev) (c : CoreId) (w : At) : Dev :=
  (d.spend c w 1).updArch c fun a => ({ a with stat := { a.stat with pc := a.stat.pc + 1, lastPc := a.stat.pc } }).prune

/-- A command is accepted by a unit of core c. -/
def Dev.accepted (d : Dev) (c : CoreId) (w : At) (unit sb : Nat) (cmd : UnitCmd) : Dev :=
  (d.issued c w).updArch c fun a => a.accept unit sb cmd w.cyc

/-- Queue `unit` of core c can accept a command from w, of one that could issue from w0 (R45). -/
def Dev.hasRoom (d : Dev) (c : CoreId) (unit : Nat) (w0 w : At) : Prop :=
  w0.waitQueue (vGet (d.arch c).units unit clearUnit) unit = some w

/-- The address register of an access after it: with post-increment its offset has grown by n (R106, R124). -/
def Arch.stepped (a : Arch) (postInc : Bool) (aR n t : Nat) : Arch :=
  if postInc then a.putA aR (withOffset (a.regs.aGet aR) (aOffset (a.regs.aGet aR) + n)) t else a

/-- A read of blocks bl by the instruction just issued, through a handle with bc or without: with it the blocks join the verify set, listed for its unit and scoreboard bit (R201). -/
def Dev.lists (d : Dev) (c : CoreId) (bc : Bool) (unit sb : Nat) (bl : List (Nat × Nat)) : Dev :=
  if bc then d.listBlocks c unit sb (d.arch c).stat.lastPc (d.arch c).stat.gear bl else d

/-- A scalar destination written with a latency and a late part (R58, R96). -/
def Arch.loaded (a : Arch) (sR : Nat) (v : Word) (t latency late : Nat) : Arch :=
  { a with regs := (a.regs.sSet sR v).busy (sId sR) (t + latency) (t + latency + late) }

/-- Core e is untouched from one state to the next, for every e but c. -/
def sameCores (s t : State) (c : CoreId) : Prop := ∀ e : CoreId, ckey e ≠ ckey c → t.dev.core e = s.dev.core e

/-- What a tensor command at the head of its queue does when it starts (R94, R114 to R122). -/
def Dev.tensorRun (d : Dev) (c : CoreId) (e : QEntry) (start : Nat) : Option Started :=
  match e.cmd with
  | .accOpen grp base rowsM1 bias => d.runAccOpen c grp base rowsM1 bias
  | .accClose grp => some ⟨d.updArch c fun a => { a with tensor := { a.tensor with
      groups := vSet a.tensor.groups grp { grpOf a.tensor.groups grp with opened := false } } }, 1, 0, none⟩
  | .tmul f ra rb rs stride => d.runTmul c f ra rb rs stride start
  | .drain f rd rs rb index => d.runDrain c f rd rs rb index e.step
  | .tmuls f ra bR bW rs stride =>
    match d.runTmuls c f ra bR bW rs stride start with
    | .ran r => some r
    | _ => none
  | _ => none

/-- The cycle in which a unit starts the command at the head of its queue (R98). -/
def CmdUnit.startOf (u : CmdUnit) (e : QEntry) : Nat := max e.accepted u.lastEnd

/-! ### Terms of the links -/

/-- A frame is the next one of a link's sequence and its content is acted on: the link is in IDENT or beyond, the check holds, the device implements the version and the type, the sequence number is the one expected, no membership epoch or expulsion stands against it, and the link's state carries its channel (R423, R428, R429, R431, R436, R449). -/
def Dev.takesFrame (d : Dev) (n : Nat) (f : FrameHdr) : Prop :=
  d.linkUp n = true ∧ f.crcOk = true ∧ f.version / 16 = 1 ∧ (f.kind = 0 ∨ 5 ≤ f.kind ∧ f.kind < 9) ∧ f.seq = (d.link n).rxSeq
    ∧ (f.vc = 2 ∨ (f.epoch = d.epoch ∧ d.expelled f.srcDev = false ∧ d.expelled (d.link n).partnerDev = false))
    ∧ (carries (d.linkState n) f.vc = true ∨ f.kind = 5)

/-- Entries of the input log, whether sent yet or not. -/
def logged (l : List Released) : List Released := l.map fun e => { e with sent := false }

/-! ### Terms of the command transport -/

/-- The end of the first command of a queue pair: it completes with the code that it answered, and commands after it that fail the first checks complete with theirs (R476, R477). -/
def Dev.bctEnds (d : Dev) (n : Nat) (rest : List BctWord) : Dev := (d.bctDone n d.answer).bctPump n rest

/-- From state s to state t the first command w of queue pair n, before the commands `rest`, has completed with a code. The commands directly after it that fail the first checks have completed too; the others wait, the pair has counted all that completed and its state is as before, and when only w has completed its tag and code are the last ones (R476 to R478). -/
def bctEnded (s t : State) (n : Nat) (w : BctWord) (rest : List BctWord) (code : Code) : Prop :=
  ∃ gone, rest = gone ++ (t.dev.qp n).queue ∧ (∀ v ∈ gone, bctCheck n v ≠ none) ∧ (∀ v ∈ (t.dev.qp n).queue.head?, bctCheck n v = none)
    ∧ (t.dev.qp n).cmdCount = ((s.dev.qp n).cmdCount + 1 + gone.length) % 2 ^ 32 ∧ (t.dev.qp n).state = (s.dev.qp n).state
    ∧ (gone = [] → (t.dev.qp n).lastTag = bits w 63 32 ∧ (t.dev.qp n).lastCode = code)

/-- Some core of every region of context n runs and has not ended. -/
def Dev.coresRun (d : Dev) (n : Nat) : Prop :=
  ∀ r ∈ (d.ctx n).image.regions, ∃ c ∈ (d.ctx n).coresIn r.region, (d.arch c).stat.run = .running ∧ (d.arch c).stat.ended = false

/-! ### Terms of the dictionary and its protocol -/

/-- The indices whose writable objects below are listed values of their own, applied at once (R495, R496). -/
def listedIndex (i : Nat) : Prop := i = 0x4100 ∨ i = 0x6000 ∨ i = 0x6100 ∨ i = 0x1100 ∨ i = 0x2A00

/-- A write of value v to object o at index i and sub-index k passes the checks that concern the object and its value (rows 6, 7 and 9 of R507). -/
def Dev.takes (d : Dev) (o : ObjDef) (i k v : Nat) : Prop :=
  findObj i k = some o ∧ o.access = 2 ∧ o.isDomain = false ∧ v < 256 ^ o.len ∧ (o.type = 1 → v ≤ 1) ∧ d.valueOk o k v = true

/-- Session w, of identifier id, may make request r: the firmware runs, the request is not one of the kept ones, and its reserved bits and index are clear (R505, R507, R508). -/
def Dev.asks (d : Dev) (id : Nat) (w : Session) (r : OpRec) : Prop :=
  d.pow.mgmt = 2 ∧ d.session? id = some w ∧ (w.kept.find? fun k => k.reqId = r.reqId) = none ∧ opReserved r = false

/-- The device as the operations of a session see it: under the session's selections (R494). -/
def Dev.asSeenBy (d : Dev) (w : Session) : Dev := { d.cleared with objs := withSelects d.objs w.selects }

/-- Response (r, code, result, data) of session id has gone out, or waits for the end of a pause (R467), and is kept, every core is as before, and the session is now w'. -/
def answered (s t : State) (id reqId : Nat) (code : Code) (arg : Nat) (data : List Byte) (w' : Session) : Prop :=
  Out.dop id reqId code arg data ∈ t.dev.out ++ t.dev.txHeld.map Prod.snd ∧ t.dev.session? id = some w' ∧ (⟨reqId, code, arg, data⟩ : Kept) ∈ w'.kept
    ∧ (∀ e, t.dev.core e = s.dev.core e)

/-- The dictionary's values are as before. -/
def sameObjs (s t : State) : Prop := ∀ k, nmGet t.dev.objs k = nmGet s.dev.objs k

/-- A staged write of a session to a listed object. -/
def Dev.stagedWell (d : Dev) (w : Session) (v : Staged) : Prop :=
  v.domain = false ∧ v.overtaken = false ∧ ∃ o, d.takes o v.index v.sub v.value ∧ o.apply = 1 ∧ listedIndex o.index ∧ o.role ≤ w.role

/-- What the fuses and the non-volatile store keep is always what their working copies hold. -/
def State.storeFollows (s : State) : Prop := s.nv = ⟨s.dev.keep, s.dev.sec.fuses, s.dev.sec.store⟩

end Sys2Proof.Machine
end

