-- ==== Sys2Proof/Certificates/Slice0/Obligations.lean ====
section
/-! DEFINITION. The statements about the block that the provers are asked for. -/

open Sys2Proof Sys2Proof.Machine

/-! ### Steps, queue and clocks -/

/-- A step takes the command at the front of the queue and is that command's meaning on the state with the queue's rest. -/
def Obligations.StepRunsFront : Prop :=
  ∀ (s : State) (c : Instr), step { s with pending := c :: s.pending } = exec c s

/-- With no command waiting, and no fence or retirement that waits for its moment, a step of a clocked device lets one nanosecond of TIME pass; without clocks nothing passes (log entry 1: the model's choice). -/
def Obligations.IdleStepTicks : Prop :=
  ∀ s : State, s.pending = [] → s.dev.fenceWaits = [] → s.dev.retiring = none →
    (clocked s → step s = .next (s.closing { s.dev.cleared with time := (s.dev.time + 1) % 2 ^ 64 }))
    ∧ (s.dev.pow.stopped = true → step s = .next (s.closing s.dev.cleared))

/-- No command ends the run: each answers a next state whose queue is the one it found. While every clock is stopped, a command of a core, of a link, of the Ethernet port, of the dictionary or of a context changes nothing (R549, R550, R570). -/
def Obligations.EveryCommandAnswers : Prop :=
  (∀ (i : Instr) (s : State), ∃ t, exec i s = .next t ∧ t.pending = s.pending)
  ∧ (∀ (s : State) (i : Instr), s.dev.pow.stopped = true → unclocked i = false → gives i s s.dev.cleared)

/-- Closing a command changes nothing of the device but the sessions' notifications, the status-block counters of queue pairs, the most recent operation of contexts, and the outputs, of which a pause of the Ethernet port holds some back; fuses and the non-volatile store follow their working copies. -/
def Obligations.ClosingFrame : Prop :=
  ∀ (s : State) (d : Dev),
    (∃ ctxs qps sessions out held, (s.closing d).dev =
      { d with ctxs := ctxs, eth := { d.eth with qps := qps }, dop := { d.dop with sessions := sessions }, out := out, txHeld := held })
    ∧ (∀ n, ((s.closing d).dev.ctx n).state = (d.ctx n).state)
    ∧ (∀ n, ((s.closing d).dev.qp n).state = (d.qp n).state ∧ ((s.closing d).dev.qp n).queue = (d.qp n).queue)
    ∧ (s.closing d).nv = ⟨d.keep, d.sec.fuses, d.sec.store⟩

/-! ### Issue -/

/-- What issuing an instruction does to a device: the program counter moves on by one, the core's cycle and its late cycles advance, and of the core nothing else changes but its status and what its units remember of commands that have left them; every other core, every object but a throttle counter and all else of the device stay (R57, R61, R88, R95). -/
def Obligations.IssueFrame : Prop :=
  ∀ (d : Dev) (c : CoreId) (w : At),
    ((d.issued c w).arch c).stat.pc = (d.arch c).stat.pc + 1
    ∧ ((d.issued c w).arch c).stat.lastPc = (d.arch c).stat.pc
    ∧ ((d.issued c w).arch c).stat.cyc = w.cyc + 1
    ∧ ((d.issued c w).arch c).stat.late = (d.arch c).stat.late + w.late
    ∧ ((d.issued c w).arch c).stat.run = (d.arch c).stat.run
    ∧ (∃ stat units, (d.issued c w).core c = { d.core c with arch := { d.arch c with stat := stat, units := units } })
    ∧ (∀ u, u < 4 → (vGet ((d.issued c w).arch c).units u clearUnit).queue = (vGet (d.arch c).units u clearUnit).queue)
    ∧ (∀ e : CoreId, ckey e ≠ ckey c → (d.issued c w).core e = d.core e)
    ∧ (∀ k, k ≠ okey 0x2100 9 → nmGet (d.issued c w).objs k = nmGet d.objs k)
    ∧ (d.issued c w) = { d with cores := (d.issued c w).cores, objs := (d.issued c w).objs }

/-- An instruction whose guard is false takes one issue cycle, moves the program counter on, and has no other effect and no other field checked (R90). A reserved guard is refused with RESERVED_NONZERO before anything else of the instruction is looked at, then a guarded GATE or SHIFT with BAD_ARGUMENT, both in the cycle in which the instruction is presented and with its unit (R92, R108). A word with a reserved major opcode is refused with RESERVED_NONZERO in the cycle in which it is presented, whatever its guard, and an AOP of a reserved function when its guard lets it execute, both with unit 0 (R91, R92, R107). -/
def Obligations.GuardRules : Prop :=
  (∀ (d : Dev) (c : CoreId) (g : Common) (n : Need) (b : Body) (w : At),
    (d.arch c).stat.run = .running → (d.arch c).routerBehind = false → (d.core c).inCode (d.arch c).stat.gear (d.arch c).stat.pc = true →
    guardReserved g = false → n.unguarded = false →
    (d.arch c).guardWait g = some w → (d.arch c).guardTrue g w.cyc = false → d.present c g n b = d.issued c w)
  ∧ (∀ (d : Dev) (c : CoreId) (g : Common) (n : Need) (b : Body),
    (d.arch c).stat.run = .running → (d.arch c).routerBehind = false → (d.core c).inCode (d.arch c).stat.gear (d.arch c).stat.pc = true →
    (guardReserved g = true → d.present c g n b = d.refuse c g n.unit (d.arch c).stat.now cReservedNonzero)
    ∧ (guardReserved g = false → n.unguarded = true → ¬(g.guardIdx = 0 ∧ g.guardNeg = false) →
        d.present c g n b = d.refuse c g n.unit (d.arch c).stat.now cBadArgument))
  ∧ (∀ (s : State) (c : CoreId), clocked s →
    ((s.dev.arch c).stat.run = .running → (s.dev.arch c).routerBehind = false →
      (s.dev.core c).inCode (s.dev.arch c).stat.gear (s.dev.arch c).stat.pc = true →
      gives (.reservedOpcode ⟨c, none⟩) s (s.dev.cleared.refuse c ⟨false, 0, 0⟩ 0 (s.dev.arch c).stat.now cReservedNonzero))
    ∧ (∀ g w, s.dev.issues c g false [] w → gives (.reservedOpcode ⟨c, some g⟩) s (s.dev.cleared.refuse c g 0 w cReservedNonzero)))

/-- A refused instruction stops its core: the program counter stays, its program-error bit is set and its clean bit cleared, the exception registers name the code, the unit and the place, and registers, memory and every other core stay (R67, R75, R79). A hard fault stops the core and its units at once, with CORE_FENCED and nothing left in any queue (R81). -/
def Obligations.CoreStops : Prop :=
  (∀ (d : Dev) (c : CoreId) (g : Common) (unit : Nat) (w : At) (code : Code),
    (d.arch c).stat.run = .running → stopKind code = 1 →
    (((d.refuse c g unit w code).arch c).stat.run = .stopped
      ∧ ((d.refuse c g unit w code).arch c).stat.clean = false
      ∧ ((d.refuse c g unit w code).arch c).stat.programError = true
      ∧ ((d.refuse c g unit w code).arch c).stat.pc = (d.arch c).stat.pc
      ∧ ((d.refuse c g unit w code).arch c).stat.exc.code = code
      ∧ ((d.refuse c g unit w code).arch c).stat.exc.unit = unit
      ∧ ((d.refuse c g unit w code).arch c).stat.excWhere = (d.arch c).stat.pc + 4096 * (d.arch c).stat.gear
      ∧ ((d.refuse c g unit w code).arch c).regs = (d.arch c).regs
      ∧ ((d.refuse c g unit w code).core c).mem = (d.core c).mem
      ∧ ∀ e : CoreId, ckey e ≠ ckey c → (d.refuse c g unit w code).core e = d.core e))
  ∧ (∀ (s : State) (c : CoreId), clocked s → ∃ t, exec (.hardFault c) s = .next t
    ∧ (t.dev.arch c).stat.run = .stopped ∧ (t.dev.arch c).stat.hardFault = true ∧ (t.dev.arch c).stat.clean = false
    ∧ (t.dev.arch c).stat.exc.code = cCoreFenced
    ∧ (∀ u, u < 4 → (vGet (t.dev.arch c).units u clearUnit).queue = [])
    ∧ (t.dev.arch c).regs = (s.dev.arch c).regs ∧ (t.dev.core c).mem = (s.dev.core c).mem ∧ sameCores s t c)

/-! ### Scalar instructions -/

/-- NOP and PLOG complete: NOP changes only what issue changes; PLOG sets its destination to the operation on its two sources, sampled in the cycle of issue, with latency 1, and inverts it when inv is 1 (R101, R104). -/
def Obligations.NopAndPlog : Prop :=
  ∀ (s : State) (c : CoreId) (g : Common) (w : At), clocked s →
    (s.dev.issues c g false [] w → gives (.nop c g) s (s.dev.cleared.issued c w))
    ∧ (∀ pD srcA srcB op inv, 0 < pD → srcA < 28 → srcB < 28 → op < 5 →
        s.dev.issues c g false (pId pD :: ([srcA, srcB].filter fun i => decide (i < 8)).map pId) w →
        gives (.plog c g pD srcA srcB op inv) s ((s.dev.cleared.issued c w).updArch c fun a =>
          a.putP pD (xor inv (plogOp op (a.predBit srcA w.cyc) (a.predBit srcB w.cyc))) w.cyc))
    ∧ (∀ x y : Bool, plogOp 0 x y = (x && y) ∧ plogOp 1 x y = (x || y) ∧ plogOp 2 x y = xor x y ∧ plogOp 3 x y = (x && !y) ∧ plogOp 4 x y = x)
    ∧ (∀ (a : Arch) (i t : Nat), (i = 0 → a.predBit i t = true) ∧ (0 < i → i < 8 → a.predBit i t = vGet a.regs.p i false)
        ∧ (8 ≤ i → i < 24 → a.predBit i t = a.board.reads (i - 8) t) ∧ (24 ≤ i → i < 28 → a.predBit i t = vGet a.stat.sp (i - 24) false))

/-- ALU sets s_d to s_a fn s_b and ALUI to s_a fn imm, each with the fields and the latency that R102 gives it: arithmetic wraps modulo 2^32, shifts use bits [4:0] of the second operand, a write to s0 is discarded, s0 reads 0 (so that ALUI ADD with s_a = s0 loads imm), and functions 0x0F to 0x1F are refused. -/
def Obligations.AluRule : Prop :=
  ∀ (s : State) (c : CoreId) (g : Common) (w : At), clocked s →
    (∀ sD sA fn sB, s.dev.issues c g false [sId sA, sId sB, sId sD] w →
        (fn < 15 → gives (.alu c g sD sA fn sB) s ((s.dev.cleared.issued c w).updArch c fun a =>
          a.putS sD (aluFn fn (a.regs.sGet sA) (a.regs.sGet sB)) w.cyc (aluLatency fn)))
        ∧ (15 ≤ fn → gives (.alu c g sD sA fn sB) s (s.dev.cleared.refuse c g 0 w cReservedNonzero)))
    ∧ (∀ sD sA fn imm, s.dev.issues c g false [sId sA, sId sD] w →
        (fn < 15 → gives (.alui c g sD sA fn imm) s ((s.dev.cleared.issued c w).updArch c fun a =>
          a.putS sD (aluFn fn (a.regs.sGet sA) imm) w.cyc (aluLatency fn)))
        ∧ (15 ≤ fn → gives (.alui c g sD sA fn imm) s (s.dev.cleared.refuse c g 0 w cReservedNonzero)))
    ∧ (∀ a b : Word, (aluFn 0 a b).toNat = (a.toNat + b.toNat) % 2 ^ 32
        ∧ (aluFn 1 a b).toNat = (a.toNat + (2 ^ 32 - b.toNat)) % 2 ^ 32
        ∧ aluFn 2 a b = a &&& b ∧ aluFn 3 a b = a ||| b ∧ aluFn 4 a b = a ^^^ b
        ∧ (aluFn 5 a b).toNat = a.toNat * 2 ^ (b.toNat % 32) % 2 ^ 32
        ∧ (aluFn 6 a b).toNat = a.toNat / 2 ^ (b.toNat % 32)
        ∧ (aluFn 7 a b).toInt = a.toInt / 2 ^ (b.toNat % 32)
        ∧ (aluFn 8 a b).toNat = a.toNat * b.toNat % 2 ^ 32
        ∧ (aluFn 9 a b).toInt = a.toInt * b.toInt / 2 ^ 32
        ∧ (aluFn 0xA a b).toNat = a.toNat * b.toNat / 2 ^ 32
        ∧ (aluFn 0xB a b).toInt = min a.toInt b.toInt ∧ (aluFn 0xC a b).toInt = max a.toInt b.toInt
        ∧ (aluFn 0xD a b).toNat = min a.toNat b.toNat ∧ (aluFn 0xE a b).toNat = max a.toNat b.toNat)
    ∧ (∀ (a : Arch) (v : Word) (t latency : Nat), (a.putS 0 v t latency).regs = a.regs ∧ a.regs.sGet 0 = 0#32)
    ∧ (∀ (a : Arch) (i : Nat) (v : Word) (t latency : Nat), 0 < i → i < 32 →
        (∀ j, (a.putS i v t latency).regs.sGet j = if j = i then v else a.regs.sGet j)
        ∧ nmGet (a.putS i v t latency).regs.ready (sId i) = some (t + latency, t + latency))
    ∧ (∀ fn, aluLatency fn = if fn = 8 ∨ fn = 9 ∨ fn = 10 then 3 else 1)
    ∧ (∀ sD sA fn sB, sD < 32 → sA < 32 → fn < 32 → sB < 32 → decodeWord c 0 (2 * 2 ^ 58 + sD * 2 ^ 44 + sA * 2 ^ 39 + fn * 2 ^ 34 + sB * 2 ^ 29)
        = some (.alu c ⟨false, 0, 0⟩ sD sA fn sB))
    ∧ (∀ sD sA fn (imm : Word), sD < 32 → sA < 32 → fn < 32 → decodeWord c 0 (3 * 2 ^ 58 + sD * 2 ^ 44 + sA * 2 ^ 39 + fn * 2 ^ 34 + imm.toNat)
        = some (.alui c ⟨false, 0, 0⟩ sD sA fn imm))

/-- CMP sets p_d to s_a cond s_b and CMPI to s_a cond imm, with latency 1 and the fields that R103 gives; p_d 0 is refused with BAD_ARGUMENT, and conditions 6 and 7 are reserved. -/
def Obligations.Comparisons : Prop :=
  ∀ (s : State) (c : CoreId) (g : Common) (w : At) (pD cond : Nat), clocked s →
    (∀ sA sB, s.dev.issues c g false [sId sA, sId sB, pId pD] w →
        (0 < pD → cond < 6 → gives (.cmp c g pD sA sB cond) s ((s.dev.cleared.issued c w).updArch c fun a =>
          a.putP pD (cmpCond cond (a.regs.sGet sA) (a.regs.sGet sB)) w.cyc))
        ∧ (pD = 0 → cond < 6 → gives (.cmp c g pD sA sB cond) s (s.dev.cleared.refuse c g 0 w cBadArgument))
        ∧ (6 ≤ cond → gives (.cmp c g pD sA sB cond) s (s.dev.cleared.refuse c g 0 w cReservedNonzero)))
    ∧ (∀ sA imm, s.dev.issues c g false [sId sA, pId pD] w →
        (0 < pD → cond < 6 → gives (.cmpi c g pD sA cond imm) s ((s.dev.cleared.issued c w).updArch c fun a =>
          a.putP pD (cmpCond cond (a.regs.sGet sA) imm) w.cyc))
        ∧ (pD = 0 → cond < 6 → gives (.cmpi c g pD sA cond imm) s (s.dev.cleared.refuse c g 0 w cBadArgument))
        ∧ (6 ≤ cond → gives (.cmpi c g pD sA cond imm) s (s.dev.cleared.refuse c g 0 w cReservedNonzero)))
    ∧ (∀ a b : Word, cmpCond 0 a b = decide (a = b) ∧ cmpCond 1 a b = decide (a ≠ b) ∧ cmpCond 2 a b = decide (a.toInt < b.toInt)
        ∧ cmpCond 3 a b = decide (a.toInt ≥ b.toInt) ∧ cmpCond 4 a b = decide (a.toNat < b.toNat) ∧ cmpCond 5 a b = decide (a.toNat ≥ b.toNat))
    ∧ (∀ (a : Arch) (i : Nat) (v : Bool) (t : Nat), 0 < i → i < 8 →
        (∀ j, vGet (a.putP i v t).regs.p j false = if j = i then v else vGet a.regs.p j false)
        ∧ nmGet (a.putP i v t).regs.ready (pId i) = some (t + 1, t + 1) ∧ (a.putP i v t).regs.s = a.regs.s)
    ∧ (∀ sA sB, pD < 8 → sA < 32 → sB < 32 → cond < 8 → decodeWord c 0 (4 * 2 ^ 58 + pD * 2 ^ 46 + sA * 2 ^ 41 + sB * 2 ^ 36 + cond * 2 ^ 33)
        = some (.cmp c ⟨false, 0, 0⟩ pD sA sB cond))
    ∧ (∀ sA (imm : Word), pD < 8 → sA < 32 → cond < 8 → decodeWord c 0 (5 * 2 ^ 58 + pD * 2 ^ 46 + sA * 2 ^ 41 + cond * 2 ^ 33 + imm.toNat)
        = some (.cmpi c ⟨false, 0, 0⟩ pD sA cond imm))

/-- BR branches to its target and BRR to the index in bits [11:0] of s_t; both write the index of the instruction after the branch into s_link, of which s0 discards it, with 2 and 3 issue cycles in all; a target outside the code range of the gear in force is refused with BOUNDS, and in BRR a value with any of bits [31:12] set with BAD_ARGUMENT (R95, R105). -/
def Obligations.Branches : Prop :=
  ∀ (s : State) (c : CoreId) (g : Common) (w : At) (sLink : Nat), clocked s →
    (∀ target, s.dev.issues c g false [sId sLink] w →
        ((s.dev.core c).inCode (s.dev.arch c).stat.gear target = true →
          gives (.br c g sLink target) s ((s.dev.cleared.issued c w).branch c sLink target 1 w.cyc))
        ∧ ((s.dev.core c).inCode (s.dev.arch c).stat.gear target = false →
          gives (.br c g sLink target) s (s.dev.cleared.refuse c g 0 w cBounds)))
    ∧ (∀ sT v, s.dev.issues c g false [sId sT, sId sLink] w → ((s.dev.arch c).regs.sGet sT).toNat = v →
        (v < 4096 → (s.dev.core c).inCode (s.dev.arch c).stat.gear v = true →
          gives (.brr c g sLink sT) s ((s.dev.cleared.issued c w).branch c sLink v 2 w.cyc))
        ∧ (v < 4096 → (s.dev.core c).inCode (s.dev.arch c).stat.gear v = false →
          gives (.brr c g sLink sT) s (s.dev.cleared.refuse c g 0 w cBounds))
        ∧ (4096 ≤ v → gives (.brr c g sLink sT) s (s.dev.cleared.refuse c g 0 w cBadArgument)))
    ∧ (∀ (d : Dev) (target extra t : Nat), ((d.branch c sLink target extra t).arch c).stat.pc = target
        ∧ ((d.branch c sLink target extra t).arch c).stat.cyc = (d.arch c).stat.cyc + extra
        ∧ ((d.branch c sLink target extra t).arch c).stat.issue = (d.arch c).stat.issue + extra
        ∧ (0 < sLink → sLink < 32 → ((d.branch c sLink target extra t).arch c).regs.sGet sLink = BitVec.ofNat 32 (d.arch c).stat.pc)
        ∧ (sLink = 0 → ((d.branch c sLink target extra t).arch c).regs = (d.arch c).regs)
        ∧ (∀ j, j ≠ sLink → ((d.branch c sLink target extra t).arch c).regs.sGet j = (d.arch c).regs.sGet j)
        ∧ ((d.branch c sLink target extra t).core c).mem = (d.core c).mem
        ∧ ∀ e : CoreId, ckey e ≠ ckey c → (d.branch c sLink target extra t).core e = d.core e)
    ∧ ((s.dev.cleared.issued c w).arch c).stat.pc = (s.dev.arch c).stat.pc + 1
    ∧ (∀ target, sLink < 32 → target < 4096 → decodeWord c 0 (8 * 2 ^ 58 + sLink * 2 ^ 44 + target) = some (.br c ⟨false, 0, 0⟩ sLink target))
    ∧ (∀ sT, sLink < 32 → sT < 32 → decodeWord c 0 (9 * 2 ^ 58 + sLink * 2 ^ 44 + sT * 2 ^ 39) = some (.brr c ⟨false, 0, 0⟩ sLink sT))

/-- ASET, AOFF, AADD, AMOV, AGET and AINV complete, each with its destination alone written (R107). The fields of an address register: ASET, AOFF, AADD and AINV write their own field and leave the others (R51, R107). -/
def Obligations.AddressRegisters : Prop :=
  (∀ (s : State) (c : CoreId) (g : Common) (w : At), clocked s →
    (∀ aD sX imm, s.dev.issues c g false [sId sX, aId aD] w →
        gives (.aset c g aD sX imm) s ((s.dev.cleared.issued c w).updArch c fun a => a.putA aD
          (withValid (withOffset (withHandle (a.regs.aGet aD) imm.toNat) (a.regs.sGet sX).toNat) true) w.cyc))
    ∧ (∀ aD sX imm, s.dev.issues c g false [sId sX, aId aD] w →
        gives (.aoff c g aD sX imm) s ((s.dev.cleared.issued c w).updArch c fun a => a.putA aD
          (withOffset (a.regs.aGet aD) (a.regs.sGet sX + imm).toNat) w.cyc))
    ∧ (∀ aD sX imm, s.dev.issues c g false [sId sX, aId aD] w → aValid ((s.dev.arch c).regs.aGet aD) = true →
        gives (.aadd c g aD sX imm) s ((s.dev.cleared.issued c w).updArch c fun a => a.putA aD
          (withOffset (a.regs.aGet aD) (aOffset (a.regs.aGet aD) + (a.regs.sGet sX).toNat + imm.toNat)) w.cyc))
    ∧ (∀ aD aS, s.dev.issues c g false [aId aS, aId aD] w →
        gives (.amov c g aD aS) s ((s.dev.cleared.issued c w).updArch c fun a => a.putA aD (a.regs.aGet aS) w.cyc))
    ∧ (∀ sX aS, s.dev.issues c g false [aId aS, sId sX] w → aValid ((s.dev.arch c).regs.aGet aS) = true →
        gives (.aget c g sX aS) s ((s.dev.cleared.issued c w).updArch c fun a =>
          a.putS sX (BitVec.ofNat 32 (aOffset (a.regs.aGet aS))) w.cyc 1))
    ∧ (∀ aD, s.dev.issues c g false [aId aD] w →
        gives (.ainv c g aD) s ((s.dev.cleared.issued c w).updArch c fun a => a.putA aD (withValid (a.regs.aGet aD) false) w.cyc)))
  ∧ (∀ (r : DWord) (o h : Nat) (v : Bool),
    aOffset (withOffset r o) = o % 2 ^ 32 ∧ aHandle (withOffset r o) = aHandle r ∧ aValid (withOffset r o) = aValid r
    ∧ aHandle (withHandle r h) = h % 64 ∧ aOffset (withHandle r h) = aOffset r ∧ aValid (withHandle r h) = aValid r
    ∧ aValid (withValid r v) = v ∧ aOffset (withValid r v) = aOffset r ∧ aHandle (withValid r v) = aHandle r)

/-- LD of 1, 2 or 4 bytes completes: through a local handle the bytes at the resolved address, extended, are written to s_r with the latency of the memory, through the control handle those of the control space; a_r is post-incremented by the size when post_inc is 1, the blocks that a handle with bc reads join the verify set, and of memory and of the other cores nothing changes (R58, R64, R106, R201). -/
def Obligations.Loads : Prop :=
  ∀ (s : State) (c : CoreId) (g : Common) (w : At) (sR aR size : Nat) (sext postInc : Bool) (imm : Word) (late : Nat),
    clocked s → size < 3 → s.dev.issues c g false [aId aR, sId sR] w →
    (∀ res bs, isControl ((s.dev.arch c).regs.aGet aR) = false →
        (s.dev.arch c).resolve ((s.dev.arch c).regs.aGet aR) false [0, 1, 2, 3] (2 ^ size) imm.toNat (2 ^ size) = .ok res →
        (res.bc = true → s.dev.verifyRoom c (blocksOf c res.addr (2 ^ size)) = true) →
        s.dev.localRead c res.addr (2 ^ size) = some bs →
        gives (.ld c g sR aR size sext postInc imm late) s
          (((s.dev.cleared.issued c w).lists c res.bc 0 0 (blocksOf c res.addr (2 ^ size))).updArch c fun a =>
            (a.loaded sR (extend sext (2 ^ size) (leNat bs)) w.cyc (nominal c res.addr) late).stepped postInc aR (2 ^ size) w.cyc))
    ∧ (isControl ((s.dev.arch c).regs.aGet aR) = true → ctlCheck ((s.dev.arch c).regs.aGet aR) false imm.toNat (2 ^ size) = none →
        ∃ t, exec (.ld c g sR aR size sext postInc imm late) s = .next t ∧ t.pending = s.pending
          ∧ (t.dev.core c).mem = (s.dev.core c).mem
          ∧ (t.dev.arch c).stat.pc = (s.dev.arch c).stat.pc + 1
          ∧ (0 < sR → sR < 32 → (t.dev.arch c).regs.sGet sR = extend sext (2 ^ size) (((s.dev.cleared.issued c w).arch c).ctlRead c w.cyc
              ((aOffset ((s.dev.arch c).regs.aGet aR) + imm.toNat) % 2 ^ 32) (2 ^ size)))
          ∧ (∀ e : CoreId, ckey e ≠ ckey c → t.dev.core e = s.dev.core e))

/-- ST of 1, 2 or 4 bytes completes: through a local handle the low bytes of s_r are written at the resolved address (what that changes is said last) and the handle is marked as written; through the control handle a store to a ring's read pointer joins the message unit's queue; a_r is post-incremented by the size when post_inc is 1 (R64, R106, R206, R259). A byte of a core's home bank after a local write is the written byte inside the written range and as before outside it; the near store, the accumulators' and every other core's memory stay (R106, R188). -/
def Obligations.Stores : Prop :=
  (∀ (s : State) (c : CoreId) (g : Common) (w : At) (sR aR size : Nat) (postInc : Bool) (imm : Word),
    clocked s → size < 3 → s.dev.issues c g false [aId aR, sId sR] w →
    (∀ res d, isControl ((s.dev.arch c).regs.aGet aR) = false →
        (s.dev.arch c).resolve ((s.dev.arch c).regs.aGet aR) true [0, 1, 2, 3] (2 ^ size) imm.toNat (2 ^ size) = .ok res →
        (s.dev.cleared.issued c w).localWrite c res.addr (natLe ((s.dev.arch c).regs.sGet sR).toNat (2 ^ size)) = some d →
        gives (.st c g sR aR size postInc imm) s (d.updArch c fun a =>
          (a.touch res.handle).stepped postInc aR (2 ^ size) w.cyc))
    ∧ (∀ w', isControl ((s.dev.arch c).regs.aGet aR) = true → ctlCheck ((s.dev.arch c).regs.aGet aR) true imm.toNat (2 ^ size) = none →
        s.dev.hasRoom c 2 w w' →
        gives (.st c g sR aR size postInc imm) s ((s.dev.cleared.issued c w').updArch c fun a => (a.accept 2 0
          (.rpStore ((aOffset (a.regs.aGet aR) + imm.toNat) % 2 ^ 32 / 64) ((a.regs.sGet sR).toNat % 4096)) w'.cyc).stepped
            postInc aR (2 ^ size) w'.cyc)))
  ∧ (∀ (d e : Dev) (c o : CoreId) (addr off : Nat) (bs : List Byte), locate c addr = .home o off → d.localWrite c addr bs = some e →
    (∀ a, memGet (e.core o).mem.home a = if off ≤ a ∧ a < off + bs.length then bs.getD (a - off) 0#8 else memGet (d.core o).mem.home a)
    ∧ (e.core o).mem.near = (d.core o).mem.near ∧ (e.core o).arch = (d.core o).arch
    ∧ (∀ x : CoreId, ckey x ≠ ckey o → e.core x = d.core x)
    ∧ e = { d with cores := e.cores })

/-- STEER, CHK.READ, WAITQ and DMA.WAIT complete: STEER with room in the pairing buffer of its port hands it the token, CHK.READ with no verdict outstanding writes the selected checker word to s_d, WAITQ writes the chosen ring's number, or with poll and no ring ready 0xFFFFFFFF, and DMA.WAIT with no DMA command queued writes the wait code and clears the wait codes of its queues (R111, R112, R128, R130). -/
def Obligations.ScalarQueues : Prop :=
  ∀ (s : State) (c : CoreId) (g : Common) (w : At) (sD : Nat), clocked s →
    (∀ sTok port, port < 5 → s.dev.issues c g false [sId sTok] w → pairFill (vGet (s.dev.arch c).router.pairing port []) < 4 →
        gives (.steer c g sTok port) s ((s.dev.cleared.issued c w).updArch c fun a => { a with router := { a.router with
          pairing := vSet a.router.pairing port (pairToken (vGet a.router.pairing port []) (a.regs.sGet sTok)) } }))
    ∧ (∀ sel, sel < 4 → s.dev.issues c g false [sId sD] w → (s.dev.arch c).checker.pendingV = [] →
        (∀ v ∈ (s.dev.arch c).checker.judged, v.due ≤ w.cyc) →
        gives (.chkRead c g sD sel) s ((s.dev.cleared.issued c w).updArch c fun a =>
          a.putS sD (BitVec.ofNat 32 (a.checkerWord sel)) w.cyc 2))
    ∧ (∀ mode poll qmask q, qmask ≠ 0 → s.dev.issues c g false [sId sD] w → (s.dev.arch c).msg.choose mode qmask = some q →
        gives (.waitq c g sD mode poll qmask) s ((s.dev.cleared.issued c w).updArch c fun a =>
          { a.putS sD (BitVec.ofNat 32 q) w.cyc 2 with msg := { a.msg with rot := (q + 1) % 16 } }))
    ∧ (∀ mode qmask, qmask ≠ 0 → s.dev.issues c g false [sId sD] w → (s.dev.arch c).msg.choose mode qmask = none →
        gives (.waitq c g sD mode true qmask) s ((s.dev.cleared.issued c w).updArch c fun a => a.putS sD 0xFFFFFFFF#32 w.cyc 2))
    ∧ (∀ qmask, qmask ≠ 0 → s.dev.issues c g false [sId sD] w → (vGet (s.dev.arch c).units 3 clearUnit).queue = [] →
        (∀ q, q < 8 → (vGet (s.dev.arch c).dma.queues q clearDmaQ).lastEnd ≤ w.cyc) →
        ∃ t, exec (.dmaWait c g sD qmask) s = .next t
          ∧ (0 < sD → sD < 32 → (t.dev.arch c).regs.sGet sD = BitVec.ofNat 32 ((s.dev.arch c).dma.waitCode qmask))
          ∧ (∀ j, j ≠ sD → (t.dev.arch c).regs.sGet j = (s.dev.arch c).regs.sGet j)
          ∧ (∀ q, q < 8 → (vGet (t.dev.arch c).dma.queues q clearDmaQ).waitCode
              = if bit qmask q then 0 else (vGet (s.dev.arch c).dma.queues q clearDmaQ).waitCode)
          ∧ (∀ q, (vGet (t.dev.arch c).dma.queues q clearDmaQ).lastCode = (vGet (s.dev.arch c).dma.queues q clearDmaQ).lastCode)
          ∧ (t.dev.core c).mem = (s.dev.core c).mem ∧ ∀ e : CoreId, ckey e ≠ ckey c → t.dev.core e = s.dev.core e)

/-- GATE and SHIFT complete, unguarded and once their waits are over: GATE with no refusal, SHIFT to another loaded gear at an entry inside its code, with carry or without a held message; a step none of whose switch entries has executed runs its first step cycle before them (R85, R86, R108 to R110, R233). A core at its gate reports its step, keeps and clears its counts, is clean for the next step, advances its dirty pairs and keeps registers and memory; its checker starts the next step with nothing judged, and its throttled flag is clear; a commit takes the committed generation of a pair that the step's snapshot holds with the same five fields from that snapshot (R61, R67, R109, R206, R207, R209, R364). -/
def Obligations.GateAndShift : Prop :=
  (∀ (s : State) (c : CoreId) (g : Common) (w w' : At), clocked s → s.dev.issues c g true [] w →
    (∀ last, gateWait c s.dev w = .ok w' → gives (.gate c g last) s ((s.dev.cleared.issued c w').firstCycle c fun d => d.gate c last))
    ∧ (∀ gear carry entry w1, arithWait s.dev c w = .ok w1 → sendWait s.dev c w1 = .ok w' → gear ≠ (s.dev.arch c).stat.gear →
        ((s.dev.core c).slot gear).state = 2 → (carry = false → (s.dev.arch c).msg.broom = []) →
        (s.dev.core c).inCode gear entry = true →
        gives (.shift c g gear carry entry) s ((s.dev.cleared.issued c w').firstCycle c fun d => d.shift c gear carry entry)))
  ∧ (∀ (k : Core) (last : Bool),
    (k.atGate last).arch.stat.run = .atGate ∧ (k.atGate last).arch.stat.issue = 0 ∧ (k.atGate last).arch.stat.late = 0
    ∧ (k.atGate last).arch.stat.prevIssue = k.arch.stat.issue ∧ (k.atGate last).arch.stat.prevLate = k.arch.stat.late
    ∧ (k.atGate last).arch.stat.stepNo = (k.arch.stat.stepNo + 1) % 2 ^ 32 ∧ (k.atGate last).arch.stat.clean = true
    ∧ (k.atGate last).arch.regs = k.arch.regs ∧ (k.atGate last).mem = k.mem ∧ (k.atGate last).arch.tensor.acc = k.arch.tensor.acc
    ∧ (∃ r, (k.atGate last).reports = k.reports ++ [r] ∧ r.step = k.arch.stat.stepNo ∧ r.clean = k.arch.stat.clean
        ∧ r.issue = k.arch.stat.issue ∧ r.late = k.arch.stat.late ∧ r.ended = last)
    ∧ (∀ i h, nmGet k.arch.handles i = some h → nmGet (k.atGate last).arch.handles i = some
        (if h.valid = true ∧ h.mode = 1 ∧ h.dirty = true then { h with gen := (h.gen + 1) % (h.copiesM1 + 1), dirty := false } else h))
    ∧ (k.atGate last).arch.checker = clearChecker ∧ (k.atGate last).arch.stat.throttled = false ∧ (k.atGate last).arch.verified = []
    ∧ (∀ i h snap, nmGet k.arch.handles i = some h → nmGet (k.arch.commitHandles snap).handles i = some
        (if h.mode = 1 ∧ (snap.handle i).valid = true ∧ (snap.handle i).base = h.base ∧ (snap.handle i).length = h.length
            ∧ (snap.handle i).kind = h.kind ∧ (snap.handle i).mode = h.mode ∧ (snap.handle i).copiesM1 = h.copiesM1
          then { h with cgen := (snap.handle i).gen } else h)))

/-- ACC.OPEN, ACC.CLOSE, TMUL, TMULS and ACC.DRAIN complete when their checks pass and the tensor unit's queue has room: each issues in cycle w' and joins the end of that queue with its fields, the addresses that its operands resolve to and its scoreboard bit; ACC.OPEN sets the view of its group to open, used, with its base and row count and no row written, ACC.CLOSE marks it closed, TMUL changes the view of the B buffers as its bmode says, TMULS leaves both B buffers not loaded in it, and ACC.DRAIN takes the next drain number and marks the handle that it writes (R43, R93, R114 to R117, R119, R121, R122). -/
def Obligations.TensorAccepts : Prop :=
  ∀ (s : State) (c : CoreId) (g : Common) (w w' : At), clocked s → g.sb < 5 → s.dev.hasRoom c 0 w w' →
    (∀ grp base rowsM1 init aBias, accOpenCheck (s.dev.arch c) grp base rowsM1 init aBias = none → init < 2 →
        s.dev.issues c g false (if init = 1 then [aId aBias] else []) w →
        gives (.accOpen c g grp base rowsM1 init aBias) s
          ((s.dev.cleared.issued c w').updArch c fun a =>
            { a.accept 0 g.sb (.accOpen grp base rowsM1 (if init = 1 then optRes (a.resolve (a.regs.aGet aBias) false [0, 1] 64 0 64)
                else none)) w'.cyc with
              tensor := { a.tensor with gview := vSet a.tensor.gview grp ⟨true, true, base, rowsM1, []⟩ } }))
    ∧ (∀ grp, (grpOf (s.dev.arch c).tensor.gview grp).opened = true → s.dev.issues c g false [] w →
        gives (.accClose c g grp) s ((s.dev.cleared.issued c w').updArch c fun a =>
          { a.accept 0 g.sb (.accClose grp) w'.cyc with tensor := { a.tensor with gview := vSet a.tensor.gview grp { grpOf a.tensor.gview grp with opened := false } } }))
    ∧ (∀ (f : TmulF) ra, tmulCheck (s.dev.arch c) f = none →
        (s.dev.arch c).resolve ((s.dev.arch c).regs.aGet f.aA) false [0, 1, 2] 16 0
          (f.rowsM1 * ((s.dev.arch c).regs.sGet f.sStride).toNat + aRowBytes f.fmtA) = .ok ra →
        s.dev.issues c g false ([aId f.aA, sId f.sStride] ++ (if f.bmode = 1 ∨ f.bmode = 2 then [aId f.aB] else [])
          ++ (if f.mx then [aId f.aS] else [])) w →
        gives (.tmul c g f) s ((s.dev.cleared.issued c w').updArch c fun a =>
          { a.accept 0 g.sb (.tmul f ra
              (if f.bmode = 1 ∨ f.bmode = 2 then optRes (a.resolve (a.regs.aGet f.aB) false [0, 1, 2] 64 0 (bTileBytes f.fmtB)) else none)
              (if f.mx then optRes (a.resolve (a.regs.aGet f.aS) false [0, 1] 1 0 (scaleBytes f.fmtA (f.rowsM1 + 1))) else none)
              (a.regs.sGet f.sStride).toNat) w'.cyc with
            tensor := { a.tensor with
              bview := (if f.bmode = 1 then vSet a.tensor.bview a.tensor.viewActive ⟨true, f.fmtB, f.mx⟩
                else if f.bmode = 2 then vSet a.tensor.bview (1 - a.tensor.viewActive) ⟨true, f.fmtB, f.mx⟩ else a.tensor.bview)
              viewActive := (if f.bmode = 3 then 1 - a.tensor.viewActive else a.tensor.viewActive) } }))
    ∧ (∀ (f : TmulsF) ra, tmulsCheck (s.dev.arch c) f = none →
        (s.dev.arch c).resolve ((s.dev.arch c).regs.aGet f.aA) false [0, 1, 2] 1 0 0 = .ok ra →
        s.dev.issues c g false ([aId f.aA, aId f.aB, sId f.sStride] ++ (if f.mx then [aId f.aS] else [])) w →
        gives (.tmuls c g f) s ((s.dev.cleared.issued c w').updArch c fun a =>
          { a.accept 0 g.sb (.tmuls f ra (optRes (a.resolve (a.regs.aGet f.aB) false [0, 1, 2] 1 0 0))
              (optRes (a.resolve (a.regs.aGet f.aB) true [0, 1, 2] 1 0 0))
              (if f.mx then optRes (a.resolve (a.regs.aGet f.aS) false [0, 1] 1 0 0) else none) (a.regs.sGet f.sStride).toNat) w'.cyc with
            tensor := { a.tensor with bview := Vector.replicate 2 ⟨false, 0, false⟩ } }))
    ∧ (∀ (f : DrainF) rd, drainCheck (s.dev.arch c) f = none →
        (s.dev.arch c).resolve ((s.dev.arch c).regs.aGet f.aD) true [0, 1, 2] 1 0
          ((f.rowsM1 + 1) * outRowBytes f.fmtOut + if f.mx then (f.rowsM1 + 1) / 2 else 0) = .ok rd →
        s.dev.issues c g false ([aId f.aD] ++ (if f.scaleMode ≠ 0 then [aId f.aScale] else []) ++ (if f.biasEn then [aId f.aBias] else [])) w →
        gives (.accDrain c g f) s ((s.dev.cleared.issued c w').updArch c fun a =>
          { (a.accept 0 g.sb (.drain f rd
              (if f.scaleMode ≠ 0 then optRes (a.resolve (a.regs.aGet f.aScale) false [0, 1] 1 0
                (if f.scaleMode = 1 then 4 else if f.scaleMode = 2 then 4 * (f.rowsM1 + 1) else 64)) else none)
              (if f.biasEn then optRes (a.resolve (a.regs.aGet f.aBias) false [0, 1] 1 0 64) else none)
              (a.tensor.drains % 2 ^ 16)) w'.cyc).touch rd.handle with
            tensor := { a.tensor with drains := a.tensor.drains + 1 } }))

/-- VOP, VOP.LD, VOP.ST, SEND, RECV.ACK, DMA.GET and DMA.PUT complete when their checks pass and their unit's queue has room: each joins the end of that queue with its fields and the values and addresses that its operands have when it issues, a DMA command with its descriptor and both its local ends; a_v is post-incremented by 256, a handle to be written is marked, and a descriptor read through a handle with bc joins the verify set (R43, R51, R123 to R125, R127, R129, R201, R206). Accepting a command adds it at the end of its unit's queue, counts it against the scoreboard bit it names, and changes nothing else of the core's memory or registers (R43, R45, R50). -/
def Obligations.OtherUnitsAccept : Prop :=
  (∀ (s : State) (c : CoreId) (g : Common) (w w' : At), clocked s → g.sb < 5 →
    (∀ f : VopF, s.dev.hasRoom c 1 w w' → vopReserved f.fn = false → (f.fn = 0x0B → f.vc < 7) →
        s.dev.issues c g false (if f.bsel then [sId f.sB] else []) w →
        gives (.vop c g f) s (s.dev.cleared.accepted c w' 1 g.sb (.vop f ((s.dev.arch c).regs.sGet f.sB))))
    ∧ (∀ v aV postInc imm r, s.dev.hasRoom c 1 w w' → s.dev.issues c g false [aId aV] w →
        (s.dev.arch c).resolve ((s.dev.arch c).regs.aGet aV) false [0, 1, 2, 3] 64 imm.toNat 256 = .ok r →
        gives (.vopLd c g v aV postInc imm) s ((s.dev.cleared.issued c w').updArch c fun a =>
          (a.accept 1 g.sb (.vopLd v r) w'.cyc).stepped postInc aV 256 w'.cyc))
    ∧ (∀ v aV postInc imm r, s.dev.hasRoom c 1 w w' → s.dev.issues c g false [aId aV] w →
        (s.dev.arch c).resolve ((s.dev.arch c).regs.aGet aV) true [0, 1, 2, 3] 64 imm.toNat 256 = .ok r →
        gives (.vopSt c g v aV postInc imm) s ((s.dev.cleared.issued c w').updArch c fun a =>
          ((a.accept 1 g.sb (.vopSt v r) w'.cyc).touch r.handle).stepped postInc aV 256 w'.cyc))
    ∧ (∀ f : SendF, s.dev.hasRoom c 2 w w' → sendCheck (s.dev.arch c) f = none →
        s.dev.issues c g false ([sId f.sDest, sId f.sUser] ++ (if f.length ≤ 1 then [] else [aId f.aP])) w →
        gives (.send c g f) s (s.dev.cleared.accepted c w' 2 g.sb (.send f ((s.dev.arch c).regs.sGet f.sDest)
          ((s.dev.arch c).regs.sGet f.sUser) (s.dev.arch c).stat.gear (if f.length ≤ 1 then none else
            optRes ((s.dev.arch c).resolve ((s.dev.arch c).regs.aGet f.aP) false [0, 1] 16 0 ((f.length - 1) * 16))))))
    ∧ (∀ queue nM1, s.dev.hasRoom c 2 w w' → s.dev.issues c g false [] w →
        gives (.recvAck c g queue nM1) s (s.dev.cleared.accepted c w' 2 g.sb (.recvAck queue nM1)))
    ∧ (∀ aDesc queue r bs put i, i = (if put then .dmaPut c g aDesc queue else .dmaGet c g aDesc queue) →
        s.dev.hasRoom c 3 w w' → s.dev.issues c g false [aId aDesc] w →
        (s.dev.arch c).resolve ((s.dev.arch c).regs.aGet aDesc) false [0, 1] 32 0 32 = .ok r →
        (r.bc = true → s.dev.verifyRoom c (blocksOf c r.addr 32) = true) → s.dev.localRead c r.addr 32 = some bs →
        gives i s (((s.dev.cleared.issued c w').lists c r.bc 4 g.sb (blocksOf c r.addr 32)).updArch c fun a =>
          if put = false ∧ (dmaDesc bs).dstSpace = 0 then
            (a.accept 3 g.sb (.dma put queue bs (a.dmaEnd (dmaDesc bs).srcH false) (a.dmaEnd (dmaDesc bs).dstH true)
              (dmaDesc bs).startOff) w'.cyc).touch (dmaDesc bs).dstH
          else a.accept 3 g.sb (.dma put queue bs (a.dmaEnd (dmaDesc bs).srcH false) (a.dmaEnd (dmaDesc bs).dstH true)
            (dmaDesc bs).startOff) w'.cyc)))
  ∧ (∀ (a : Arch) (unit sb : Nat) (cmd : UnitCmd) (t : Nat), unit < 4 →
    (∃ e, (vGet (a.accept unit sb cmd t).units unit clearUnit).queue = (vGet a.units unit clearUnit).queue ++ [e]
      ∧ e.cmd = cmd ∧ e.sb = sb ∧ e.accepted = t ∧ e.started = false)
    ∧ (∀ u, u ≠ unit → vGet (a.accept unit sb cmd t).units u clearUnit = vGet a.units u clearUnit)
    ∧ (∀ i, i < 16 → vGet (a.accept unit sb cmd t).board.count i 0
        = vGet a.board.count i 0 + if 0 < sb ∧ i = unit * 4 + sb - 1 then 1 else 0)
    ∧ (a.accept unit sb cmd t).regs = a.regs ∧ (a.accept unit sb cmd t).stat = a.stat
    ∧ (a.accept unit sb cmd t).tensor = a.tensor ∧ (a.accept unit sb cmd t).handles = a.handles)

/-! ### The units of a core -/

/-- The tensor unit: a command that waits at the head of the queue of a core that runs, whose step cycle the router has passed and whose reads find room in the verify set, starts in cycle max(t, c_prev): it has its effect, given last for ACC.CLOSE and left to the run functions of the model for the others, its reads join the verify set, and its start, duration and late cycles are kept; a started command completes by leaving the queue in cycle start + D + its late cycles, registers and memory as they were (R55, R94, R98, R201, R202). -/
def Obligations.TensorUnit : Prop :=
  ∀ (s : State) (c : CoreId) (e : QEntry) (rest : List QEntry) (u : CmdUnit), clocked s →
    vGet (s.dev.arch c).units 0 clearUnit = u → u.queue = e :: rest →
    (∀ r, e.started = false → (s.dev.arch c).live = true → (s.dev.arch c).routerPast e = true →
        s.dev.verifyRoom c (s.dev.cmdBlocks c e.cmd) = true →
        (s.dev.cleared.listBlocks c 1 e.sb e.pc e.gear (s.dev.cmdBlocks c e.cmd)).tensorRun c e (u.startOf e) = some r →
        gives (.tensorCommandStart c) s (r.dev.updArch c fun a => a.started 0 0 (u.startOf e) r.dur (e.late + r.late) r.tail))
    ∧ (∀ late, e.started = true → ∃ t, exec (.tensorCommandComplete c late) s = .next t
        ∧ (vGet (t.dev.arch c).units 0 clearUnit).queue = rest
        ∧ (vGet (t.dev.arch c).units 0 clearUnit).lastEnd = e.start + e.dur + (e.late + late)
        ∧ (t.dev.arch c).regs = (s.dev.arch c).regs ∧ (t.dev.core c).mem = (s.dev.core c).mem ∧ sameCores s t c)
    ∧ (∀ (d : Dev) grp start, e.cmd = .accClose grp → d.tensorRun c e start = some ⟨d.updArch c fun a => { a with tensor := { a.tensor with
        groups := vSet a.tensor.groups grp { grpOf a.tensor.groups grp with opened := false } } }, 1, 0, none⟩)

/-- The vector unit: the oldest waiting command of a core that runs, when the router has passed its step cycle, it awaits no register of a load in progress and its reads find room in the verify set, starts at s = max(t, s_prev + 1, q): a VOP writes its result, and the register is ready L cycles after s, a VOP.LD writes the 64 words of its address, a VOP.ST writes its register's 64 words to its address; the head completes by leaving the queue at max(s + L, its predecessor's completion) and its late cycles, which a load's register waits for too (R99, R123, R124, R201, R202, R362). -/
def Obligations.VectorUnit : Prop :=
  ∀ (s : State) (c : CoreId) (u : CmdUnit) (after : Nat), clocked s →
    vGet (s.dev.arch c).units 1 clearUnit = u → after = (if u.lastStart = 0 ∧ u.lastEnd = 0 then 0 else u.lastStart + 1) →
    (∀ i e, firstWaiting u.queue = some (i, e) → (s.dev.arch c).live = true → (s.dev.arch c).routerPast e = true →
        (∀ p ∈ u.queue, p.started = true → e.cmd.needs p.cmd = false) → s.dev.verifyRoom c (s.dev.cmdBlocks c e.cmd) = true →
        (∀ f x start out, e.cmd = .vop f x → start = max (max e.accepted after) ((s.dev.arch c).regs.vReadyAt (vopReads f)) →
          out = vopResult f (Dev.runDrain.actTableOf (s.dev.ctxOf c).image.act) ((s.dev.arch c).regs.vRead f.va)
            (if f.bsel then Vector.replicate 64 x else (s.dev.arch c).regs.vRead f.vb) ((s.dev.arch c).regs.vRead f.vc) →
          gives (.vectorCommandStart c) s
            ((s.dev.cleared.listBlocks c 2 e.sb e.pc e.gear (s.dev.cmdBlocks c e.cmd)).updArch c fun a =>
              { a.started 1 i start (vopLatency f.fn) e.late none with
                regs := { a.regs.vWrite f.vd out with vready := nmSet (a.regs.vWrite f.vd out).vready f.vd (start + vopLatency f.fn) }
                checker := { a.checker with vops := a.checker.vops + 1, lanes := a.checker.lanes ++ [vopChecks a.checker.vops out] } }))
        ∧ (∀ v r bs, e.cmd = .vopLd v r → s.dev.localRead c r.addr 256 = some bs →
            ∃ t, exec (.vectorCommandStart c) s = .next t
              ∧ (v < 32 → (t.dev.arch c).regs.vRead v = Vector.ofFn fun l : Fin 64 => f32At bs l.val)
              ∧ (∀ j, j ≠ v → (t.dev.arch c).regs.vRead j = (s.dev.arch c).regs.vRead j)
              ∧ (t.dev.core c).mem = (s.dev.core c).mem ∧ sameCores s t c)
        ∧ (∀ v r d, e.cmd = .vopSt v r →
            (s.dev.cleared.listBlocks c 2 e.sb e.pc e.gear (s.dev.cmdBlocks c e.cmd)).localWrite c r.addr
              (((s.dev.arch c).regs.vRead v).toList.flatMap fun w => natLe w.toNat 4) = some d →
            gives (.vectorCommandStart c) s (d.updArch c fun a =>
              a.started 1 i (max (max e.accepted after) ((s.dev.arch c).regs.vReadyAt [v])) (if r.kind = 2 then 16 else 1) e.late none)))
    ∧ (∀ e rest late, u.queue = e :: rest → e.started = true → ∃ t, exec (.vectorCommandComplete c late) s = .next t
        ∧ (vGet (t.dev.arch c).units 1 clearUnit).queue = rest
        ∧ (vGet (t.dev.arch c).units 1 clearUnit).lastEnd = max (e.start + e.dur) u.lastEnd + (e.late + late)
        ∧ (t.dev.arch c).regs = { (s.dev.arch c).regs with vready := (t.dev.arch c).regs.vready }
        ∧ (∀ v r, e.cmd = .vopLd v r → nmGet (s.dev.arch c).regs.vready v = some (e.start + e.dur) →
            nmGet (t.dev.arch c).regs.vready v = some (e.start + e.dur + (e.late + late)))
        ∧ ((∀ v r, e.cmd ≠ .vopLd v r) → (t.dev.arch c).regs.vready = (s.dev.arch c).regs.vready)
        ∧ (t.dev.core c).mem = (s.dev.core c).mem ∧ sameCores s t c)

/-- A verdict on the oldest completed arithmetic command takes it from those that await one, counts it as a tensor command or as a vector command or drain, and keeps the outcomes of its checks, those a failure of the hardware changes changed; when all pass, the clean flag, the count of failed commands and the suspect record stay; the first that fails clears the clean flag, raises that count by one, marks its kind as seen and is the suspect record, with the command's ordinal, when the step has none; the core goes on, registers and memory as they were. A block at the head of the verify set leaves it when it is read: one without a bad quarter that agrees with its check word is verified, and one that does not agree stops its core with BLOCK_CHECK_FAIL against the unit that listed it. Reading a last-status register puts out its word, clears its status-pending bit and starts its count again (R67, R77, R201, R202, R359 to R364). -/
def Obligations.CheckerAndStatus : Prop :=
  ∀ (s : State) (c : CoreId), clocked s →
    (∀ v rest rows cols refRows refCols q checks, (s.dev.arch c).checker.pendingV = v :: rest →
        checks = v.checks.map (fun k => k.upset rows cols refRows refCols q) →
        ∃ t, exec (.checkerVerdict c rows cols refRows refCols q) s = .next t
          ∧ (t.dev.arch c).checker.pendingV = rest
          ∧ (t.dev.arch c).checker.tensorJudged = (s.dev.arch c).checker.tensorJudged + (if v.tensor && !v.drain then 1 else 0)
          ∧ (t.dev.arch c).checker.vectorJudged = (s.dev.arch c).checker.vectorJudged + (if !v.tensor || v.drain then 1 else 0)
          ∧ (t.dev.arch c).checker.results = (s.dev.arch c).checker.results ++ [(v.ordinal, checks)]
          ∧ ((∀ k ∈ checks, k.passes = true) →
              (t.dev.arch c).stat = (s.dev.arch c).stat
              ∧ (t.dev.arch c).checker.failed = (s.dev.arch c).checker.failed
              ∧ (t.dev.arch c).checker.suspect = (s.dev.arch c).checker.suspect)
          ∧ (∀ pre k post, checks = pre ++ k :: post → (∀ p ∈ pre, p.passes = true) → k.passes = false →
              (t.dev.arch c).stat.clean = false
              ∧ (t.dev.arch c).checker.failed = (s.dev.arch c).checker.failed + 1
              ∧ (k.kind < 6 → vGet (t.dev.arch c).checker.flags k.kind false = true)
              ∧ ((s.dev.arch c).checker.suspect = none → (t.dev.arch c).checker.suspect = some ⟨v.ordinal, k⟩)
              ∧ ((s.dev.arch c).checker.suspect ≠ none → (t.dev.arch c).checker.suspect = (s.dev.arch c).checker.suspect))
          ∧ (t.dev.arch c).stat.run = (s.dev.arch c).stat.run
          ∧ (t.dev.arch c).regs = (s.dev.arch c).regs ∧ (t.dev.core c).mem = (s.dev.core c).mem ∧ sameCores s t c)
    ∧ (∀ v rest near, (s.dev.arch c).verify = v :: rest → near = decide (v.bank % 2 = 1) →
        (∀ q ∈ (if near then (s.dev.core (coreOfKey (v.bank / 2))).mem.badNear else (s.dev.core (coreOfKey (v.bank / 2))).mem.badHome),
          q / 256 ≠ v.blk) →
        ((s.dev.core (coreOfKey (v.bank / 2))).mem.agrees near v.blk = true →
          gives (.verifyBlock c []) s (((s.dev.cleared.updArch c fun a => { a with verify := rest }).bump 0x3000 0xB 1).updArch c fun a =>
            { a with verified := (v.bank, v.blk, s.dev.writesOf (v.bank, v.blk)) :: a.verified }))
        ∧ ((s.dev.core (coreOfKey (v.bank / 2))).mem.agrees near v.blk = false → (s.dev.arch c).stat.run ≠ .stopped →
          ∃ t, exec (.verifyBlock c []) s = .next t ∧ (t.dev.arch c).verify = rest
            ∧ (t.dev.arch c).stat.run = .stopped ∧ (t.dev.arch c).stat.clean = false
            ∧ (t.dev.arch c).stat.exc = ⟨cBlockCheckFail, v.unit, v.sb, 0⟩ ∧ (t.dev.arch c).stat.excWhere = v.pc + 4096 * v.gear
            ∧ (t.dev.arch c).verified = (s.dev.arch c).verified
            ∧ (t.dev.arch c).regs = (s.dev.arch c).regs ∧ (t.dev.core c).mem = (s.dev.core c).mem ∧ sameCores s t c))
    ∧ (∀ unit, unit < 4 → gives (.lastStatusRead c unit) s
        ((s.dev.cleared.emit (.words 1 [(vGet (s.dev.arch c).stat.last unit clearStatus).word])).updArch c fun a =>
          { a with stat := { a.stat with
            sp := vSet a.stat.sp unit false
            last := vSet a.stat.last unit { vGet a.stat.last unit clearStatus with count := 0 } } }))

/-- The near store's small events: a hub starvation grant costs the requester that loses the cycle one late cycle, a near-store one four, and a wait for a refresh at most 228: of the scalar unit the core's cycle and late count grow by them, of the tensor or vector unit the late cycles of the command at the head of its queue; a word corrected in a home bank is counted, one in a slice is counted for the device and the slice, and one in a store or command queue of the core in its own count; the oldest row that is to be mapped out, while spare rows last, enters the list of mapped rows, and its words that read uncorrectable stay lost (R71, R78, R188, R191, R193 to R195). -/
def Obligations.NearStore : Prop :=
  ∀ (s : State) (c : CoreId), clocked s →
    (∀ unit, gives (.hubStarvationGrant ⟨c, unit⟩) s (s.dev.cleared.lateFor c unit 1)
        ∧ gives (.nearStarvationGrant ⟨c, unit⟩) s (s.dev.cleared.lateFor c unit 4)
        ∧ ∀ wait, gives (.nearRefresh ⟨c, unit⟩ wait) s ((s.dev.cleared.updSlice (s.dev.physKey c) fun x =>
          { x with refresh := (x.refresh + 1) % 16 }).lateFor c unit (min wait 228)))
    ∧ (∀ (d : Dev) n, ((d.lateFor c 0 n).arch c).stat.late = (d.arch c).stat.late + n
        ∧ ((d.lateFor c 0 n).arch c).stat.cyc = (d.arch c).stat.cyc + n
        ∧ ((d.lateFor c 0 n).arch c).stat.issue = (d.arch c).stat.issue
        ∧ ((d.lateFor c 0 n).arch c).regs = (d.arch c).regs ∧ ((d.lateFor c 0 n).core c).mem = (d.core c).mem
        ∧ (∀ unit, 0 < unit → unit < 3 → d.lateFor c unit n = d.updArch c fun a => a.updHead (unit - 1) fun e => { e with late := e.late + n })
        ∧ ∀ e : CoreId, ckey e ≠ ckey c → (d.lateFor c 0 n).core e = d.core e)
    ∧ (∀ row, gives (.eccWriteback c 0 row) s (s.dev.cleared.bump 0x3001 1 1)
        ∧ (∃ t, exec (.eccWriteback c 1 row) s = .next t
          ∧ t.dev.objD 0x3000 8 0 = s.dev.objD 0x3000 8 0 + 1
          ∧ (t.dev.slice (s.dev.physKey c)).corrected = min (2 ^ 32 - 1) ((s.dev.slice (s.dev.physKey c)).corrected + 1)
          ∧ ∀ e, t.dev.core e = s.dev.core e)
        ∧ ∀ n, gives (.eccWriteback c (n + 2) row) s (s.dev.cleared.updSlice (s.dev.physKey c) fun x =>
            { x with stores := vSet x.stores n (vGet x.stores n 0 + 1) }))
    ∧ (∀ row rest lost wait, (s.dev.slice (s.dev.physKey c)).due = row :: rest →
        s.dev.keep.spareLeft (s.dev.physCore c).1 (s.dev.physCore c).2 (row / 8192) ≠ 0 →
        ∃ t, exec (.nearRowMapped c lost 1 wait) s = .next t
          ∧ t.nv.keep.nearRows = ((s.dev.physCore c).2 * 64 + (s.dev.physCore c).1, row) :: s.dev.keep.nearRows
          ∧ (t.dev.slice (s.dev.physKey c)).due = rest
          ∧ (∀ q, q ∈ (t.dev.core c).mem.badNear ↔ q ∈ (s.dev.core c).mem.badNear ∨ (q ∈ lost ∧ nearRow (16 * q) = row))
          ∧ (t.dev.arch c).regs = (s.dev.arch c).regs ∧ (t.dev.core c).mem.near = (s.dev.core c).mem.near ∧ sameCores s t c)

/-! ### Messages and channels -/

/-- The message unit's commands: a SEND without ORDER whose channel has the credits starts, takes them and its sequence number; a RECV.ACK or a read-pointer store that finds enough messages starts; a started command that waits for no credit completes by leaving the queue in its cycle, and a completed RECV.ACK or read-pointer store has passed its messages (R98, R125 to R127, R259, R260, R262 to R264). -/
def Obligations.MessageUnit : Prop :=
  ∀ (s : State) (c : CoreId) (e : QEntry) (rest : List QEntry) (u : CmdUnit), clocked s →
    vGet (s.dev.arch c).units 2 clearUnit = u → u.queue = e :: rest →
    (∀ f dest user gear payload k d body, e.cmd = .send f dest user gear payload → e.started = false → (s.dev.arch c).live = true →
        f.order = false → s.dev.verifyRoom c (s.dev.cmdBlocks c e.cmd) = true →
        sendStartCheck s.dev c f dest user gear = .sends k → s.dev.cleared.sendBody c e f payload = some (d, body) →
        ∃ t, exec (.sendStart c) s = .next t
          ∧ (t.dev.arch c).msg.chans = ((s.dev.arch c).msg.updChan dest f.queue fun k =>
              { k with credits := k.credits - f.length, seq := (k.seq + 1) % 2 ^ 32 }).chans
          ∧ (vGet (t.dev.arch c).units 2 clearUnit).queue = { e with
              started := true, creditWait := false, start := u.startOf e, dur := 3 + f.length + ceilDiv f.length 16 } :: rest
          ∧ (t.dev.arch c).regs = (s.dev.arch c).regs ∧ (t.dev.core c).mem = (s.dev.core c).mem ∧ sameCores s t c)
    ∧ (∀ q n l, e.cmd = .recvAck q n → e.started = false → (s.dev.arch c).live = true →
        ((s.dev.arch c).msg.ring q).passes e.cmd = some l →
        gives (.recvAckStart c) s (s.dev.cleared.updArch c fun a => a.updHead 2 fun x =>
          { x with started := true, start := u.startOf e, dur := 2 + l.length }))
    ∧ (∀ q v l, e.cmd = .rpStore q v → e.started = false → (s.dev.arch c).live = true →
        ((s.dev.arch c).msg.ring q).passes e.cmd = some l →
        gives (.rpStoreStart c) s (s.dev.cleared.updArch c fun a => a.updHead 2 fun x =>
          { x with started := true, start := u.startOf e, dur := 2 + l.length }))
    ∧ (e.started = true → e.creditWait = false → ∃ t, exec (.messageCommandComplete c) s = .next t
        ∧ (vGet (t.dev.arch c).units 2 clearUnit).queue = rest
        ∧ (vGet (t.dev.arch c).units 2 clearUnit).lastEnd = e.start + e.dur
        ∧ (∀ q l, (∃ n, e.cmd = .recvAck q n) ∨ (∃ v, e.cmd = .rpStore q v) → q < 16 → ((s.dev.arch c).msg.ring q).passes e.cmd = some l →
            (t.dev.arch c).msg.ring q = ((s.dev.arch c).msg.ring q).passed' (s.dev.arch c).stat.stepNo l)
        ∧ (t.dev.arch c).regs = (s.dev.arch c).regs ∧ (t.dev.core c).mem = (s.dev.core c).mem ∧ sameCores s t c)

/-- Arrivals at a core: a message's first packet that may be delivered and passes its checks is placed in its ring, the last packet of a placed message makes its record complete and is awaited no longer, a completion flit in flight ends its multicast message, a credit return that closes nothing adds its units to the channels of its destination, ring and incarnation, and the oldest waiting root result whose rows no open group covers is written (R163, R241, R250, R256, R262). -/
def Obligations.Arrivals : Prop :=
  ∀ (s : State) (c : CoreId), clocked s →
    (∀ h units m, m = hdrOf (units.headD 0#128) → h.poison = 0 → m.gear = (s.dev.arch c).stat.gear → m.queue < 16 →
        s.dev.mayLand c (pktOf h units) = true → deliveryCheck (s.dev.core c) (s.dev.arch c).stat.gear m = .place →
        ∃ t, exec (.messageFirstPacket c h units) s = .next t
          ∧ (t.dev.arch c).msg.ring m.queue = (((s.dev.arch c).msg.ring m.queue).place m h.mcast h.last).1
          ∧ (t.dev.arch c).regs = (s.dev.arch c).regs ∧ (t.dev.arch c).stat = (s.dev.arch c).stat)
    ∧ (∀ h units x q pos, h.poison = 0 → h.last = true → x.sink = 1 → x.place = some (q, pos) → q < 16 →
        s.dev.mayLand c (pktOf h units) = true →
        (s.dev.arch c).msg.partials.find? (fun y => y.src = ⟨h.srcX, h.srcY, h.srcDev⟩ && y.tag = h.msgTag) = some x →
        ∃ t, exec (.messagePacket c h units) s = .next t
          ∧ ((t.dev.arch c).msg.ring q).recs = ((s.dev.arch c).msg.ring q).recs.map (fun y =>
              if y.pos = pos && !y.pad then { y with complete := true } else y)
          ∧ (t.dev.arch c).msg.partials = (s.dev.arch c).msg.partials.filter (fun y =>
              !(y.src = ⟨h.srcX, h.srcY, h.srcDev⟩ && y.tag = h.msgTag))
          ∧ (t.dev.arch c).regs = (s.dev.arch c).regs ∧ (t.dev.arch c).stat = (s.dev.arch c).stat)
    ∧ (∀ tag p, s.dev.completionFor c tag = some p → ∃ t, exec (.multicastCompletion c tag) s = .next t
        ∧ (t.dev.arch c).msg.mcastWait = (s.dev.arch c).msg.mcastWait.erase tag
        ∧ (t.dev.arch c).regs = (s.dev.arch c).regs ∧ (t.dev.arch c).stat = (s.dev.arch c).stat)
    ∧ (∀ srcX srcY srcDev queue inc units at_, c.x ≠ 0xF0 → (vGet (s.dev.arch c).units 2 clearUnit).queue = [] →
        ∃ t, exec (.creditReturn c srcX srcY srcDev queue inc false units at_) s = .next t
          ∧ (t.dev.arch c).msg.chans = (s.dev.arch c).msg.chans.map (fun k =>
              if k.isFor ⟨srcX, srcY, srcDev⟩ queue inc then { k with credits := k.credits + units } else k)
          ∧ (t.dev.arch c).regs = (s.dev.arch c).regs ∧ (t.dev.arch c).stat = (s.dev.arch c).stat)
    ∧ (∀ row es, (s.dev.arch c).msg.rootWait.find? (fun w => !openMeets (s.dev.arch c).tensor.groups 99 w.1 (w.2.length / 16 - 1))
          = some (row, es) →
        gives (.reduceRootWrite c) s (s.dev.cleared.updArch c fun a => { a with
          tensor := a.tensor.rootWrite row es, msg := { a.msg with rootWait := a.msg.rootWait.erase (row, es) } }))

/-! ### Tier-2 memory, paging and DMA -/

/-- The DMA engine: a command that passes the start checks runs and asks for what its first granule reads of far and host pages, one of length 0 ends with OK, and a granule whose pages are in the translation cache, present and not busy, whose source has no failed block, is read, written whole to its destination, and then done; a core whose crossing commands have run again goes on with its region (R309, R324 to R328). What is done with a granule comes last: the resume offset moves past it and its bytes are counted. -/
def Obligations.DmaEngine : Prop :=
  ∀ (s : State) (c : CoreId) (e : QEntry) (rest : List QEntry) (put : Bool) (q : Nat) (bs : List Byte) (src dst : DmaEnd) (off n : Nat),
    clocked s → (vGet (s.dev.arch c).units 3 clearUnit).queue = e :: rest → e.cmd = .dma put q bs src dst off →
    n = min 4096 ((dmaDesc bs).length - off) →
    (e.started = false → (s.dev.arch c).live = true → dmaStartCheck (s.dev.ctxOf c) put (dmaDesc bs) src dst = .ok true →
        gives (.dmaCommandStart c) s (((s.dev.cleared.updArch c fun a =>
          a.updHead 3 fun e => { e with started := true, start := max e.accepted (s.dev.arch c).stat.cyc }).askRemote c).rerunDone c))
    ∧ (e.started = false → (s.dev.arch c).live = true → dmaStartCheck (s.dev.ctxOf c) put (dmaDesc bs) src dst = .ok false →
        gives (.dmaCommandStart c) s ((s.dev.cleared.dmaEnds c cOk).rerunDone c))
    ∧ (∀ ctx remote retries transient late pages used data d, (s.dev.core c).ctx = some ctx → (s.dev.arch c).dmaRuns = true → e.started = true →
        pages = granulePages (dmaDesc bs).srcSpace ((dmaDesc bs).srcAddr + off) n false
          ++ granulePages (dmaDesc bs).dstSpace ((dmaDesc bs).dstAddr + off) n true →
        (∀ p ∈ pages, s.dev.tlbHit c ctx ((s.dev.ctx ctx).cachePage p.1) p.2 = true
            ∧ ∃ l, (s.dev.ctx ctx).leaf p.1 = some l ∧ l.valid = true ∧ l.busy = false) →
        used = (pages.foldl (fun d p => d.tlbUse c ctx ((s.dev.ctx ctx).cachePage p.1)) s.dev.cleared).readCounts retries transient →
        used.sourceBad (s.dev.ctx ctx) (dmaDesc bs) off n = none →
        ((dmaDesc bs).srcSpace = 0 → used.badAt c (src.span (src.base + (dmaDesc bs).srcAddr + off) n) = none
          ∧ (src.bc = true → used.localDiffers c (src.base + (dmaDesc bs).srcAddr + off) n = none)) →
        used.granuleRead c (s.dev.ctx ctx) (dmaDesc bs) src off n remote = some data →
        used.granuleWrite c ctx (s.dev.ctx ctx) (dmaDesc bs) dst off data = some d →
        gives (.dmaGranuleComplete c ⟨.moved remote retries transient, late⟩) s
          ((d.granuleDone c q off n (dmaDesc bs).length late).rerunDone c))
    ∧ (∀ (d : Dev) late queue, off + n < (dmaDesc bs).length → (vGet (d.arch c).units 3 clearUnit).queue = e :: rest → queue < 8 →
        (vGet ((d.granuleDone c queue off n (dmaDesc bs).length late).arch c).units 3 clearUnit).queue
            = { e with cmd := .dma put q bs src dst (off + n), started := (d.arch c).live } :: rest
        ∧ (vGet ((d.granuleDone c queue off n (dmaDesc bs).length late).arch c).dma.queues queue clearDmaQ).bytes
            = (vGet (d.arch c).dma.queues queue clearDmaQ).bytes + n
        ∧ (d.granuleDone c queue off n (dmaDesc bs).length late).t2 = d.t2)

/-- The pager: a walk of a present page fills the core's translation cache, one of a page neither present nor busy raises a fault for it, a fill writes its bytes into the frame taken and the leaf present there, a fetch without reply below the limit is tried again, a migration that passes its checks to near or far memory marks its page busy and runs, and a migration without a failed block completes (R313, R316, R317, R319). -/
def Obligations.Pager : Prop :=
  ∀ (s : State) (n : Nat), clocked s →
    (∀ c va write l, (s.dev.core c).ctx = some n → (s.dev.ctx n).leaf (va / 65536) = some l → l.busy = false → l.valid = true →
        (∀ pa ∈ (s.dev.ctx n).walkPas (va / 65536), pa / 4096 ∉ s.dev.t2.badBlocks) →
        ∃ t, exec (.tableWalkComplete c va write false) s = .next t
          ∧ t.dev.t2 = { s.dev.t2 with tlb := tlbFill s.dev.t2.tlb (ckey c) n (l.span (va / 65536)).1 write }
          ∧ (∀ e, t.dev.core e = s.dev.core e) ∧ ∀ m, m ≠ n → (t.dev.ctx m) = (s.dev.ctx m))
    ∧ (∀ c va write l, (s.dev.core c).ctx = some n → (s.dev.ctx n).leaf (va / 65536) = some l → l.busy = false → l.valid = false →
        (∀ pa ∈ (s.dev.ctx n).walkPas (va / 65536), pa / 4096 ∉ s.dev.t2.badBlocks) →
        ∃ t, exec (.tableWalkComplete c va write false) s = .next t
          ∧ t.dev.t2 = { s.dev.t2 with fills := s.dev.t2.fills ++ [(n, (l.span (va / 65536)).1, 0)] }
          ∧ sameCores s t c ∧ ∀ m, m ≠ n → (t.dev.ctx m) = (s.dev.ctx m))
    ∧ (∀ page frame data retries transient l f, s.dev.t2.fills.find? (fun f => f.1 = n && f.2.1 = page) = some f →
        (s.dev.ctx n).leaf page = some l → l.large = false → l.home = 2 ∨ l.home = 3 → s.dev.framesFree frame 1 = true →
        ∃ t, exec (.faultFillComplete n page frame ⟨data, retries, transient, none⟩) s = .next t
          ∧ (∀ a, memGet t.dev.t2.mem a = if frame * 65536 ≤ a ∧ a < frame * 65536 + 65536 then data.getD (a - frame * 65536) 0#8
              else memGet s.dev.t2.mem a)
          ∧ (t.dev.ctx n).leaf page = some { l with valid := true, home := 0, target := frame * 16, busy := false }
          ∧ t.dev.t2.fills = s.dev.t2.fills.erase f)
    ∧ (∀ page l f, s.dev.t2.fills.find? (fun f => f.1 = n && f.2.1 = page) = some f → (s.dev.ctx n).leaf page = some l →
        2 ≤ l.home → f.2.2 < s.dev.objD 0x3101 5 2 →
        ∃ t, exec (.remoteFetchTimeout n page) s = .next t
          ∧ t.dev.t2.fills = s.dev.t2.fills.map (fun g => if g = f then (n, page, f.2.2 + 1) else g))
    ∧ (s.dev.objD 0x3103 1 0 = n → bits (s.dev.objD 0x3103 3 0) 4 3 ≠ 0 →
        s.dev.migrateCheck n (s.dev.objD 0x3103 2 0) (s.dev.objD 0x3103 3 0) = none →
        ∃ t, exec .migrateGo s = .next t ∧ (t.dev.ctx n).migrate
            = ⟨2, 0, cPending, (s.dev.ctx n).cachePage (s.dev.objD 0x3103 2 0 / 65536), s.dev.objD 0x3103 3 0, 0, 0⟩
          ∧ (∀ l, (t.dev.ctx n).leaf (s.dev.objD 0x3103 2 0 / 65536) = some l → l.busy = true)
          ∧ t.dev.t2.mem = s.dev.t2.mem ∧ (∀ e, t.dev.core e = s.dev.core e) ∧ ∀ m, m ≠ n → t.dev.ctx m = s.dev.ctx m)
    ∧ (∀ data l, (s.dev.ctx n).migrate.state = 2 → (s.dev.ctx n).leaf (s.dev.ctx n).migrate.a = some l → data.failed = none →
        s.dev.targetStands n (s.dev.ctx n).migrate.b = true → bits (s.dev.ctx n).migrate.b 4 3 < 2 →
        ∃ t, exec (.migrationComplete n data) s = .next t ∧ (t.dev.ctx n).migrate.state = 3 ∧ (t.dev.ctx n).migrate.code = cOk)

/-! ### The scheduled network, the packet network and gears -/

/-- A router whose next step cycle the issue count has reached asks for and serves the reads of its inject streams; then, at a ROUTE with no condition of the hold table met, no read outstanding and no conflict with its core, it runs the entry and passes the cycle; with a condition met it holds, and at END it only zeroes the counts of steered streams. A hold costs the core one late cycle, lengthens each tensor and vector command in progress by one and leaves router, registers and memory (R215 to R220, R222, R233). A step cycle that a router passes: its cycle count grows by one, a repeated entry stays until its repeats are spent, and then the program moves to the next entry, through LOOPs (R215, R216). -/
def Obligations.SwitchEntries : Prop :=
  (∀ (s : State) (c : CoreId) (a : Arch), clocked s → s.dev.arch c = a →
    a.stat.run = .running ∨ a.stat.run = .atGate → a.router.cycle ≤ a.stat.issue →
    (∀ d out inj ej steerIn steerDl rep, a.router.atEnd = false →
        d = (s.dev.cleared.updCore c (Core.askReads 4)).serveReads c → (d.arch c).stat.run ≠ .stopped →
        ((d.core c).slot a.stat.gear).sw a.router.sw = .route out inj ej steerIn steerDl rep →
        (d.coreHold c out steerIn = false → (∀ x ∈ (d.arch c).router.due, x.data.isSome = true) →
          (d.arch c).router.conflict c ((d.runRoute c out ej steerIn steerDl).arch c).router = false →
          gives (.switchEntryExecute c) s ((d.runRoute c out ej steerIn steerDl).updCore c Core.routerPassed))
        ∧ (d.coreHold c out steerIn = true → gives (.switchEntryExecute c) s (d.holdCycle c)))
    ∧ (a.router.atEnd = true → gives (.switchEntryExecute c) s ((s.dev.cleared.zeroCounts c).updCore c Core.routerPassed))
    ∧ (∀ d : Dev, ((d.holdCycle c).arch c).stat.late = (d.arch c).stat.late + 1 ∧ ((d.holdCycle c).arch c).stat.cyc = (d.arch c).stat.cyc + 1
        ∧ (∀ u, u < 2 → (vGet ((d.holdCycle c).arch c).units u clearUnit).queue
            = (vGet (d.arch c).units u clearUnit).queue.map fun e => if e.started then { e with dur := e.dur + 1 } else e)
        ∧ ((d.holdCycle c).arch c).router = (d.arch c).router ∧ ((d.holdCycle c).arch c).regs = (d.arch c).regs
        ∧ ((d.holdCycle c).core c).mem = (d.core c).mem ∧ ∀ e : CoreId, ckey e ≠ ckey c → (d.holdCycle c).core e = d.core e))
  ∧ (∀ k : Core,
    k.routerPassed.arch.router.cycle = k.arch.router.cycle + 1
    ∧ (k.arch.router.atEnd = true → k.routerPassed.arch.router.sw = k.arch.router.sw ∧ k.routerPassed.arch.router.atEnd = true)
    ∧ (∀ n, k.arch.router.atEnd = false → k.arch.router.left = some (n + 1) →
        k.routerPassed.arch.router.sw = k.arch.router.sw ∧ k.routerPassed.arch.router.left = some n)
    ∧ (∀ out inj ej si sd rep, k.arch.router.atEnd = false → k.arch.router.left = some 0 →
        (k.slot k.arch.stat.gear).sw (k.arch.router.sw + 1) = .route out inj ej si sd rep →
        k.routerPassed.arch.router.sw = k.arch.router.sw + 1 ∧ k.routerPassed.arch.router.left = some rep
          ∧ k.routerPassed.arch.router.atEnd = false)
    ∧ (k.arch.router.atEnd = false → k.arch.router.left = some 0 →
        (k.slot k.arch.stat.gear).sw (k.arch.router.sw + 1) = .stop → k.routerPassed.arch.router.atEnd = true)
    ∧ (∀ target n ctr out inj ej si sd rep, k.arch.router.atEnd = false → k.arch.router.left = some 0 → ctr < 4 →
        (k.slot k.arch.stat.gear).sw (k.arch.router.sw + 1) = .loop target n ctr → vGet k.arch.router.ctrs ctr 0 = 0 →
        (k.slot k.arch.stat.gear).sw target = .route out inj ej si sd rep →
        k.routerPassed.arch.router.sw = target ∧ vGet k.routerPassed.arch.router.ctrs ctr 0 = n + 1)
    ∧ k.routerPassed.arch.regs = k.arch.regs ∧ k.routerPassed.mem = k.mem ∧ k.routerPassed.slots = k.slots)

/-- A beat reaches the input queue of its port, and a token that waited too long stops the core with STEER_SKEW (R218, R225, R232). -/
def Obligations.BeatsAndSkew : Prop :=
  ∀ (s : State) (c : CoreId), clocked s →
    (∀ port b rest, port < 4 → takeFlying port (s.dev.arch c).router.flying = some (b, rest) →
        (vGet (s.dev.arch c).router.inq port []).length < 8 →
        ∀ ecc, ∃ t, exec (.beatArrival c port ecc) s = .next t
          ∧ vGet (t.dev.arch c).router.inq port [] = vGet (s.dev.arch c).router.inq port []
              ++ [if ecc = .uncorrectable then { b with poisoned := true } else b]
          ∧ (t.dev.arch c).router.flying = rest
          ∧ (∀ q, q ≠ port → vGet (t.dev.arch c).router.inq q [] = vGet (s.dev.arch c).router.inq q [])
          ∧ (t.dev.arch c).stat = (s.dev.arch c).stat ∧ (t.dev.arch c).regs = (s.dev.arch c).regs
          ∧ (t.dev.core c).mem = (s.dev.core c).mem ∧ sameCores s t c)
    ∧ ((s.dev.arch c).live = true → (s.dev.arch c).router.overdue = true →
        ∃ t, exec (.steerSkew c) s = .next t ∧ (t.dev.arch c).stat.run = .stopped
          ∧ (t.dev.arch c).stat.exc.code = cSteerSkew ∧ (t.dev.arch c).stat.exc.unit = 6 ∧ (t.dev.arch c).stat.programError = false
          ∧ (t.dev.arch c).regs = (s.dev.arch c).regs ∧ (t.dev.core c).mem = (s.dev.core c).mem ∧ sameCores s t c)

/-- A packet that reaches a router: a malformed one is discarded and counted; a well-formed one with no packet of its head in flight (log entry 12 says what is tracked) is forwarded at once by its ports, one with a corrected error after it is counted, one with an uncorrectable error with its poison field set to 2; one in flight joins the packets at its router, with that field set for an uncorrectable error, and at routers that hold nothing else it is forwarded at once. The ports of a packet for a core are the first hop in dimension order, first x and then y, those of a multicast packet its branches (R237 to R239, R241, R243). A write of 1 to mesh.flip with no packet of the other epoch in flight exchanges the station and route banks and the epoch bit; with packets it is BUSY, another value is BAD_ARGUMENT, and both change nothing else (R244, R245, R247). -/
def Obligations.PacketRouting : Prop :=
  (∀ (s : State) (c : CoreId) (port : Nat) (h : PktHead) (actual p : Nat) (ps : List Nat), clocked s →
    (∀ code, s.dev.malformed h actual = some code → ∀ ecc, ∃ t, exec (.routerPacketArrival ⟨c, port⟩ h actual ecc) s = .next t
        ∧ Out.discardPacket h ∈ t.dev.out
        ∧ t.dev.objD 0x4200 0xA 0 = s.dev.objD 0x4200 0xA 0 + 1
        ∧ (∀ e, t.dev.core e = s.dev.core e))
    ∧ (s.dev.malformed h actual = none → s.dev.packetPorts c h = p :: ps →
        (∀ q ∈ s.dev.mesh.transit, q.head ≠ h ∧ q.head ≠ { h with poison := 2 }) →
        gives (.routerPacketArrival ⟨c, port⟩ h actual .clean) s (s.dev.cleared.emit (.forward c (s.dev.routerAt h.epoch c) (p :: ps) h))
        ∧ gives (.routerPacketArrival ⟨c, port⟩ h actual .corrected) s
          ((s.dev.cleared.bump 0x4200 8 1).emit (.forward c (s.dev.routerAt h.epoch c) (p :: ps) h))
        ∧ ∃ t, exec (.routerPacketArrival ⟨c, port⟩ h actual .uncorrectable) s = .next t
            ∧ Out.forward c (s.dev.routerAt h.epoch c) (p :: ps) { h with poison := 2 } ∈ t.dev.out
            ∧ t.dev.mesh.transit = s.dev.mesh.transit ∧ ∀ e, t.dev.core e = s.dev.core e)
    ∧ (s.dev.malformed h actual = none → s.dev.packetPorts c h = p :: ps → (s.dev.inFlight h).isSome = true →
        gives (.routerPacketArrival ⟨c, port⟩ h actual .clean) s (s.dev.cleared.enterRouter c port h (p :: ps))
        ∧ gives (.routerPacketArrival ⟨c, port⟩ h actual .corrected) s ((s.dev.cleared.bump 0x4200 8 1).enterRouter c port h (p :: ps))
        ∧ gives (.routerPacketArrival ⟨c, port⟩ h actual .uncorrectable) s
          ((s.dev.cleared.remark h { h with poison := 2 }).enterRouter c port { h with poison := 2 } (p :: ps)))
    ∧ (∀ d : Dev, d.mesh.routers = [] → (d.inFlight h).isSome = true → c.x < 60 → c.y < 64 → h.dkind = 0 → h.mcast = false →
        h.dstX < 60 → h.dstY < 64 →
        Out.forward c (d.routerAt h.epoch c) (d.packetPorts c h) h ∈ (d.enterRouter c port h (d.packetPorts c h)).out)
    ∧ (h.dkind = 0 → h.mcast = false → s.dev.packetPorts c h = [hopPort c h.dstX h.dstY])
    ∧ (h.mcast = true → s.dev.packetPorts c h = mcastPorts c h)
    ∧ (∀ x y, hopPort c x y = if c.x < x then 1 else if x < c.x then 3 else if c.y < y then 2 else if y < c.y then 0 else 4))
  ∧ (∀ s : State, clocked s →
    (s.dev.epochDrain = 0 → ∃ t, exec (.meshFlip 1) s = .next t
      ∧ t.dev.mesh.epoch = 1 - s.dev.mesh.epoch ∧ t.dev.mesh.transit = s.dev.mesh.transit
      ∧ t.dev.mesh.stationCur = s.dev.mesh.stationNext ∧ t.dev.mesh.stationNext = s.dev.mesh.stationCur
      ∧ t.dev.mesh.routeCur = s.dev.mesh.routeNext ∧ t.dev.mesh.routeNext = s.dev.mesh.routeCur
      ∧ (∀ e, t.dev.core e = s.dev.core e))
    ∧ (s.dev.epochDrain ≠ 0 → gives (.meshFlip 1) s (s.dev.cleared.reply cBusy))
    ∧ (∀ v, v ≠ 1 → gives (.meshFlip v) s (s.dev.cleared.reply cBadArgument)))

/-- Chairlift packets: one that the context engine did not send changes nothing but a count; a header that is due makes its slot loading, with no part but the header's bytes; a part that is due is written into the loading slot of its load, and a seal that is due and agrees with the slot's check makes the gear loaded (R276, R279 to R281). -/
def Obligations.GearLoading : Prop :=
  ∀ (s : State) (c : CoreId) (slot loadId : Nat) (p : Packet), clocked s → slot < 4 → s.dev.loadDue c = some p → p.head.poison = 0 →
    (∀ version target offset data, gives (.gearLoadPacket c false version slot target offset loadId data) s (s.dev.cleared.bump 0x4400 4 1))
    ∧ (∀ version offset data, version / 256 = 1 → (s.dev.arch c).msg.broom = [] → p.units = loadUnits slot 0 loadId (offset, data) →
        ∃ t, exec (.gearLoadPacket c true version slot 0 offset loadId data) s = .next t
          ∧ ((t.dev.core c).slot slot).state = 1 ∧ ((t.dev.core c).slot slot).loadId = loadId
          ∧ (∀ a, memGet (vGet ((t.dev.core c).slot slot).parts 0 []) a = (data.flatMap qBytes).getD a 0#8)
          ∧ (∀ i, i ≠ slot → (t.dev.core c).slot i = (s.dev.core c).slot i)
          ∧ (t.dev.arch c).regs = (s.dev.arch c).regs ∧ (t.dev.core c).mem = (s.dev.core c).mem ∧ sameCores s t c)
    ∧ (∀ version target offset data, version / 256 = 1 → 0 < target → target < 8 → p.units = loadUnits slot target loadId (offset, data) →
        ((s.dev.core c).slot slot).state = 1 → ((s.dev.core c).slot slot).header = true → ((s.dev.core c).slot slot).loadId = loadId →
        gives (.gearLoadPacket c true version slot target offset loadId data) s ((s.dev.cleared.landed c p.head).updCore c fun k => k.setSlot slot
          { k.slot slot with
            parts := vSet (k.slot slot).parts target (memWrite (vGet (k.slot slot).parts target []) (16 * offset) (data.flatMap qBytes)) }))
    ∧ (∀ check, check = crc64 ((s.dev.core c).slot slot).imageBytes → p.units = loadUnits slot 8 loadId (0, [BitVec.ofNat 128 check]) →
        ((s.dev.core c).slot slot).state = 1 → ((s.dev.core c).slot slot).header = true → ((s.dev.core c).slot slot).loadId = loadId →
        ∃ t, exec (.gearSeal c slot loadId check) s = .next t
          ∧ (t.dev.core c).slot slot = { (s.dev.core c).slot slot with state := 2 }
          ∧ (∀ i, i ≠ slot → (t.dev.core c).slot i = (s.dev.core c).slot i)
          ∧ (t.dev.core c).arch = (s.dev.core c).arch ∧ (t.dev.core c).mem = (s.dev.core c).mem ∧ sameCores s t c)

/-! ### Contexts -/

/-- The requests of long operations on contexts: a load or a re-shard that passes its checks is PENDING with its operands and its image is read from the host, a load that is refused answers its code, a gear load puts its packets on the network; a load, a re-shard or a gear load that is cancelled in progress is CANCELLED, the last with no slot of the cores of its rectangle still loading; admission ends a load with the image admitted, or with a code (R279, R282, R343, R355 to R357, R606). -/
def Obligations.ContextRequests : Prop :=
  ∀ (s : State), clocked s →
    (∀ n w o b, n = s.dev.objD 0x5002 1 0 → w = s.dev.objD 0x5002 2 0 → o = s.dev.objD 0x5002 3 0 → b = s.dev.objD 0x5002 4 0 →
        (s.dev.loadCheck n w o b = none → gives .ctxLoadGo s
          ({ s.dev.cleared.updCtx n fun x => { x with load := ⟨1, 0, cPending, w, o, b, 0⟩ } with
              lastReq := nmSet s.dev.lastReq (okey 0x5002 5) n }.emit (.hostRead w o b)))
        ∧ (∀ code, s.dev.loadCheck n w o b = some code → gives .ctxLoadGo s (s.dev.cleared.reply code))
        ∧ ((s.dev.ctx n).load.busy = true → gives .ctxLoadCancel s (s.dev.cleared.updCtx n fun x => { x with load := x.load.cancelled }))
        ∧ (∀ m, s.dev.inService = true → (s.dev.ctx m).state = .preempted ∨ (s.dev.ctx m).state = .running →
            (s.dev.ctx m).opBusy = false → sourceCheck (s.dev.ctx m) w o b = none → gives (.ctxReshardGo m) s
              ((s.dev.cleared.updCtx m fun x => { x with reshard := ⟨1, 0, cPending, w, o, b, 0⟩ }).emit (.hostRead w o b))))
    ∧ (∀ n, (s.dev.ctx n).reshard.busy = true → gives (.ctxReshardCancel n) s (s.dev.cleared.updCtx n fun x =>
        { x with reshard := x.reshard.cancelled, nextImage := none, gateReq := if x.midStep then x.gateReq else none }))
    ∧ (∀ n image, n = s.dev.objD 0x4403 1 0 → image = s.dev.objD 0x4403 2 0 →
        (s.dev.gearLoadCheck n image s.dev.gearRect = none → ∃ t, exec .gearLoadGo s = .next t
          ∧ (t.dev.ctx n).gearLoad = ⟨2, 0, cPending, s.dev.gearRect, image, 0, 0⟩
          ∧ (∃ ps, t.dev.mesh.transit = s.dev.mesh.transit ++ ps ∧ ps = s.dev.loadPackets (fun c => (s.dev.ctx n).image.slot c image)
              (rectOf s.dev.gearRect) (rectCores s.dev.gearRect) (fun c => bits ((s.dev.ctx n).image.gearHdr c image) 17 16) s.dev.nextLoad
            ∧ ∀ p ∈ ps, Out.packet s.dev.engineCore p ∈ t.dev.out)
          ∧ ∀ e, t.dev.core e = s.dev.core e)
        ∧ ((s.dev.ctx n).gearLoad.busy = true → ∃ t, exec .gearLoadCancel s = .next t
          ∧ (t.dev.ctx n).gearLoad = (s.dev.ctx n).gearLoad.cancelled
          ∧ (∀ c ∈ rectCores (s.dev.ctx n).gearLoad.a, ∀ i, i < 4 → ((t.dev.core c).slot i).state ≠ 1)
          ∧ (∀ c i, ((s.dev.core c).slot i).state ≠ 1 → (t.dev.core c).slot i = (s.dev.core c).slot i)
          ∧ ∀ c, (t.dev.core c).arch = (s.dev.core c).arch ∧ (t.dev.core c).mem = (s.dev.core c).mem))
    ∧ (∀ n bs leases, (s.dev.ctx n).load.busy = true →
        (∀ m, s.dev.admitImage bs (s.dev.ctx n).windows leases 0 n = .ok m →
          gives (.admission n bs leases) s (s.dev.cleared.admitted n m (m.fixedFrames (keptBytes bs))))
        ∧ (∀ code, s.dev.admitImage bs (s.dev.ctx n).windows leases 0 n = .error code →
          gives (.admission n bs leases) s (((s.dev.cleared.raised code).updCtx n fun x =>
            { x with load := x.load.ends code, lastCode := code }).bump 0x5000 6 1)))

/-- The commands on contexts, in the states that R347 allows them: start queues a LOADED context whose devices are all peers, a stop or a pre-emption or a park is asked for, a stop that meets a pre-emption with no commit to come drains the context at once, a mid-step pre-emption (also one at a gate that waits too long) stops issue in every core of a RUNNING context, unload frees a LOADED or FAILED context and zero-fills its frames, kill fails it with the code it last had (R344, R347, R350, R354). A context that fails is FAILED with its code, without regions and without requests, and a change of state counts its time RUNNING (R346, R347, R358). -/
def Obligations.ContextCommands : Prop :=
  (∀ (s : State) (n : Nat), clocked s →
    ((s.dev.ctx n).state = .loaded → (∀ v ∈ (s.dev.ctx n).image.devices, v = 0xFFFF ∨ ∃ p ∈ (s.dev.ctx n).peerList, p.1 = v) →
        gives (.ctxStart n) s (((s.dev.cleared.toState n .ready).join n).schedule))
    ∧ ((s.dev.ctx n).state = .running ∨ (s.dev.ctx n).state = .blocked →
        ((s.dev.ctx n).noCommit = false → gives (.ctxStop n) s (s.dev.cleared.updCtx n fun x => { x with stopReq := true }))
        ∧ ((s.dev.ctx n).noCommit = true → gives (.ctxStop n) s
            ((s.dev.cleared.updCtx n fun x => { x with midStep := false }).drain n)))
    ∧ ((s.dev.ctx n).state = .running ∨ (s.dev.ctx n).state = .blocked ∨ (s.dev.ctx n).state = .resident →
        gives (.ctxPreemptGate n) s (s.dev.cleared.askGate n false))
    ∧ ((s.dev.ctx n).state = .running → gives (.ctxPark n) s (s.dev.cleared.askGate n true))
    ∧ ((s.dev.ctx n).state = .running → (s.dev.ctx n).entering = false → (s.dev.ctx n).stopReq = false → (∀ r ∈ (s.dev.ctx n).regions, r.replay = none ∧ r.parked = false) →
        ∃ t, exec (.ctxPreemptMid n) s = .next t ∧ (t.dev.ctx n).midStep = true ∧ (t.dev.ctx n).gateReq = some false
          ∧ (∀ r ∈ (s.dev.ctx n).regions, ∀ c ∈ (s.dev.ctx n).coresIn r.num, (s.dev.arch c).live = true → (t.dev.arch c).stat.run = .scanning)
          ∧ ∀ c, (t.dev.arch c).regs = (s.dev.arch c).regs ∧ (t.dev.core c).mem = (s.dev.core c).mem)
    ∧ ((s.dev.ctx n).gateReq = some false → (s.dev.ctx n).midStep = false → (s.dev.ctx n).entering = false → (s.dev.ctx n).state = .running →
        (∃ r ∈ (s.dev.ctx n).regions, r.parked = false) → gives (.preemptWaitExpiry n) s (s.dev.cleared.midStop n))
    ∧ ((s.dev.ctx n).state = .loaded ∨ (s.dev.ctx n).state = .failed → ∃ t, exec (.ctxUnload n) s = .next t
        ∧ (t.dev.ctx n).state = .free ∧ (t.dev.ctx n).frames = [] ∧ (t.dev.ctx n).fixed = [] ∧ (t.dev.ctx n).windows = (s.dev.ctx n).windows
        ∧ (∀ f ∈ (s.dev.ctx n).frames ++ (s.dev.ctx n).fixed, ∀ a, f * 65536 ≤ a → a < f * 65536 + 65536 → memGet t.dev.t2.mem a = 0#8)
        ∧ (∀ a, (∀ f ∈ (s.dev.ctx n).frames ++ (s.dev.ctx n).fixed, ¬(f * 65536 ≤ a ∧ a < f * 65536 + 65536)) →
            memGet t.dev.t2.mem a = memGet s.dev.t2.mem a)
        ∧ ∀ c, t.dev.core c = s.dev.core c)
    ∧ ((s.dev.ctx n).state ≠ .free → (s.dev.ctx n).state ≠ .loaded → gives (.ctxKill n) s (s.dev.cleared.fail n (s.dev.ctx n).lastCode)))
  ∧ (∀ (d : Dev) (n : Nat),
    (∀ code, ((d.toFailed n code).ctx n).state = .failed ∧ ((d.toFailed n code).ctx n).lastCode = code
      ∧ ((d.toFailed n code).ctx n).regions = [] ∧ ((d.toFailed n code).ctx n).gateReq = none ∧ ((d.toFailed n code).ctx n).stopReq = false)
    ∧ (∀ st, ((d.toState n st).ctx n).state = st ∧ ((d.toState n st).ctx n).image = (d.ctx n).image
      ∧ ((d.toState n st).ctx n).runSince = (if st = .running then some d.time else none)
      ∧ (∀ t, (d.ctx n).runSince = some t → ((d.toState n st).ctx n).runNs = (d.ctx n).runNs + (d.time - t))
      ∧ ((d.ctx n).runSince = none → ((d.toState n st).ctx n).runNs = (d.ctx n).runNs)
      ∧ (∀ c, (d.toState n st).core c = d.core c) ∧ ∀ m, m ≠ n → (d.toState n st).ctx m = d.ctx m))

/-- Timers and the policy: an expired quantum marks its context and is a scheduling event, a long wait blocks a RUNNING context, an owner module answers one event at a time, and a module that is late is replaced by the default policy (R347, R350, R351, R353). -/
def Obligations.Scheduling : Prop :=
  ∀ (s : State) (n : Nat), clocked s →
    ((s.dev.ctx n).state.holds = true → (s.dev.ctx n).quantumUs ≠ 0 →
        gives (.quantumExpiry n) s (s.dev.cleared.updCtx n fun x => { x with quantumOver := true }).schedule)
    ∧ (∀ cause, (s.dev.ctx n).state = .running → gives (.blockTimeout n cause) s
        ((s.dev.cleared.toState n .blocked).updCtx n fun x => { x with blockCause := cause }).schedule)
    ∧ (∀ k, s.dev.schedWait = k + 1 →
        (∀ value, gives (.policyDecision 0 n value) s { s.dev.cleared with schedWait := k })
        ∧ (∀ value, { s.dev.cleared with schedWait := k }.dispatchCheck n = none →
            gives (.policyDecision 1 n value) s ({ s.dev.cleared with schedWait := k }.dispatch n))
        ∧ (∀ value, gives (.policyDecision 2 n value) s ({ s.dev.cleared with schedWait := k }.preemptGate n true))
        ∧ (∀ value, gives (.policyDecision 3 n value) s ({ s.dev.cleared with schedWait := k }.preemptGate n false))
        ∧ (∀ value, gives (.policyDecision 4 n value) s ({ s.dev.cleared with schedWait := k }.preemptMid n))
        ∧ (∀ value, gives (.policyDecision 6 n value) s ({ s.dev.cleared with schedWait := k }.updCtx n fun x => { x with quantumUs := value }))
        ∧ (∀ value, value < 8 → ∃ t, exec (.policyDecision 5 n value) s = .next t ∧ (t.dev.ctx n).cls = value
            ∧ (t.dev.ctx n).state = (s.dev.ctx n).state ∧ ∀ c, t.dev.core c = s.dev.core c)
        ∧ gives .policyTimeout s ({ s.dev.cleared with schedWait := k }.bump 0x5000 9 1).defaultPolicy)
    ∧ (s.dev.objD 0x5000 3 0 = 1 → s.dev.schedule = { s.dev with schedWait := s.dev.schedWait + 1 })
    ∧ (s.dev.objD 0x5000 3 0 ≠ 1 → s.dev.schedule = s.dev.defaultPolicy)

/-- The ends of context operations: a region parked at a commit is scanned out with a record of every core, while other regions of its context remain; contents copied to the save area leave the cells, which are then idle where nothing holds them; and a draining context whose traffic is placed or acknowledged is LOADED, without regions and held traffic (R190, R199, R265, R301, R347). -/
def Obligations.ContextEnds : Prop :=
  ∀ (s : State) (n : Nat), clocked s →
    (∀ num r, (s.dev.ctx n).rt? num = some r → s.dev.scanReady n r = true → (s.dev.ctx n).midStep = false → (s.dev.ctx n).gearLoad.busy = false →
        (∀ c ∈ (s.dev.ctx n).coresIn num, c.x < 64) → ((s.dev.ctx n).regions.any fun t => t.num != num && !t.scanned) = true →
        ∃ t, exec (.scanOutComplete n num) s = .next t
          ∧ (∀ c ∈ (s.dev.ctx n).coresIn num, nmGet (t.dev.ctx n).saved (ckey c) = some ((s.dev.core c).record n c false))
          ∧ (∀ q, q ≠ num → (t.dev.ctx n).rt? q = (s.dev.ctx n).rt? q) ∧ (t.dev.ctx n).state = (s.dev.ctx n).state
          ∧ ∀ c, t.dev.core c = s.dev.core c)
    ∧ ((s.dev.ctx n).copying = true → gives (.contentsCopyComplete n) s
        ((((s.dev.cleared.wipe n).updCtx n fun y => { y with
          savedMem := s.dev.contents n, contentsInPlace := false, copying := false }).powerCells
            ((s.dev.ctx n).cells.filter fun c => !((s.dev.cleared.wipe n).updCtx n fun y => { y with
              savedMem := s.dev.contents n, contentsInPlace := false, copying := false }).cellHeld n c) 2).cellsFreed))
    ∧ ((s.dev.ctx n).state = .draining → (∀ h ∈ (s.dev.ctx n).msgHold, h.released = false ∨ h.placedIn.isSome = true) →
        (∀ h ∈ (s.dev.ctx n).dmaHold, h.released = false) → (∀ e ∈ s.dev.inlog, e.ctx = n → e.acked = false → s.dev.expelled e.dev = true) → ∃ d : Dev, gives (.drainComplete n) s d.cellsFreed.schedule
        ∧ (d.ctx n).state = .loaded ∧ (d.ctx n).regions = [] ∧ (d.ctx n).entered = false ∧ (d.ctx n).msgHold = [] ∧ (d.ctx n).dmaHold = [])

/-! ### Gates -/

/-- A gate that can settle: with every report clean and the two copies of the tree agreeing it settles clean; with a report that is not clean, or copies that disagree, it is acted on, once no packet of the other epoch is in flight (log entry 117: the model's choice); in a tandem replay the records are decided. A settled step commits after its read-back, and the gate timer stops every core that has not reported, with CADENCE_DEVIATION (R367 to R373, R380, R383, R604). -/
def Obligations.Gates : Prop :=
  ∀ (s : State) (n num : Nat) (r : RegionRt), clocked s → (s.dev.ctx n).rt? num = some r →
    (s.dev.canSettle n r = true → r.replay = none →
        ((∀ p ∈ s.dev.gateReports n r, p.2.clean = true) → gives (.gateSettle n num false false) s (s.dev.cleared.settleClean n num))
        ∧ (s.dev.epochDrain = 0 →
            ((∃ p ∈ s.dev.gateReports n r, p.2.clean = false) → gives (.gateSettle n num false false) s
              (s.dev.cleared.settleBad n num r.gateStep (s.dev.gateReports n r)))
            ∧ ∀ flipA flipB, flipA ≠ flipB → gives (.gateSettle n num flipA flipB) s
              ((s.dev.cleared.bump 0x6000 0xE 1).settleBad n num r.gateStep (s.dev.gateReports n r)))
        ∧ (s.dev.epochDrain ≠ 0 → (∃ p ∈ s.dev.gateReports n r, p.2.clean = false) → gives (.gateSettle n num false false) s s.dev.cleared))
    ∧ (∀ p, s.dev.canSettle n r = true → r.replay = some p → p.waiting = false →
        ((∀ q ∈ s.dev.gateReports n r, q.2.clean = true) → gives (.gateSettle n num false false) s
          (s.dev.cleared.settleReplay n num p (s.dev.gateReports n r) true))
        ∧ ((∃ q ∈ s.dev.gateReports n r, q.2.clean = false) → s.dev.epochDrain = 0 → gives (.gateSettle n num false false) s
          (s.dev.cleared.settleReplay n num p (s.dev.gateReports n r) false)))
    ∧ (∀ step rest, r.settled = step :: rest →
        gives (.stepCommit n num none) s (s.dev.cleared.commitStep n num step (rest.length + 1)))
    ∧ (r.timer = true → r.parked = false → (s.dev.ctx n).state ≠ .blocked → ∃ t, exec (.gateTimerExpiry n num) s = .next t
        ∧ (∀ c ∈ s.dev.gateCores n num, ((s.dev.core c).reportOf r.gateStep).isNone → (t.dev.arch c).stat.run = .stopped
            ∧ (t.dev.arch c).stat.exc.code = cCadenceDeviation ∧ (t.dev.arch c).stat.clean = false)
        ∧ (∀ e, (∀ c ∈ s.dev.gateCores n num, ckey e ≠ ckey c) → t.dev.core e = s.dev.core e)
        ∧ ∀ e, (t.dev.arch e).regs = (s.dev.arch e).regs ∧ (t.dev.core e).mem = (s.dev.core e).mem)

/-! ### Healing -/

/-- The groomer: with groom.enable set and no test, fence, replay or move in progress the interval's end returns a row that is due or starts the test of the next cell; a test that failed fences its cell, one that passed with no failed row and no open blame gives the cell back; a cell test on demand goes to the front of the targets or leaves them; a watch record whose window is over closes (R389 to R395, R399 to R401). -/
def Obligations.Groomer : Prop :=
  ∀ (s : State), clocked s →
    (s.dev.objD 0x6100 1 1 ≠ 0 → s.dev.groom.test = none → s.dev.healBusy = false → s.dev.moves = [] →
        (∀ py rest, s.dev.groom.returns = py :: rest → gives .groomTestStart s (s.dev.cleared.returnRow py))
        ∧ (∀ d n demand, s.dev.groom.returns = [] → s.dev.cleared.pickCell = (d, some (n, demand)) → gives .groomTestStart s (d.startTest n demand)))
    ∧ (∀ t rows, s.dev.groom.test = some t → t.stage = 1 →
        gives (.groomTestComplete .fail rows) s (((((((s.dev.cleared.testPower t.cell false).bump 0x6100 0xA 1).testRows t.cell rows).bump 0x6100 0xB 1).blamed
          t.cell false).testFences t).demandEnds t true []))
    ∧ (∀ t, s.dev.groom.test = some t → t.stage = 1 → s.dev.isFenced (t.cell % 32) (t.cell / 32) = false → s.dev.groom.blame = [] →
        gives (.groomTestComplete .pass []) s ((((s.dev.cleared.testPower t.cell false).bump 0x6100 0xA 1).testReturns t).demandEnds t false []))
    ∧ (∀ px py, px < 32 → py < 32 → s.dev.groomCell.busy = false → s.dev.skipped (py * 32 + px) = false →
        gives (.groomCellStart px py) s { s.dev.cleared with
          groomCell := ⟨1, 0, cPending, py * 32 + px, 0, 0, 0⟩
          groom := { s.dev.groom with targets := (py * 32 + px, 1) :: s.dev.groom.targets } })
    ∧ (s.dev.groomCell.busy = true → ∃ t, exec .groomCellCancel s = .next t ∧ t.dev.groomCell = s.dev.groomCell.cancelled
        ∧ (∀ u, u ∈ t.dev.groom.targets ↔ u ∈ s.dev.groom.targets ∧ ¬(u.2 = 1 ∧ u.1 = s.dev.groomCell.a))
        ∧ ∀ e, t.dev.core e = s.dev.core e)
    ∧ (s.dev.disciplined = true → ∃ t, exec .watchExpiry s = .next t
        ∧ t.nv.keep.recs = s.dev.keep.recs.map (fun r => if r.watch && !r.closed && !s.dev.young r then { r with closed := true } else r)
        ∧ t.nv.keep.fences = s.dev.keep.fences ∧ ∀ e, t.dev.core e = s.dev.core e)

/-- Moves of contents: once no packet of the other epoch is in flight the oldest move whose regions have parked starts its copies and keeps every core's registers, and a finished copy changes the rows' maps and the regions go on; a region that does not park in time makes the groomer give up its move and makes a fence stop its context in mid-step; fence.cmd fences at once on a row without resident regions, and waits for theirs otherwise (R245, R404 to R407, R419). -/
def Obligations.Moves : Prop :=
  ∀ (s : State) (m : Move), clocked s →
    (s.dev.epochDrain = 0 → (s.dev.moves.find? fun m => s.dev.moveReady m) = some m → ∃ t, exec (.contentsMove [] []) s = .next t
        ∧ t.dev.moves = s.dev.moves.map (fun k => if k = m then { k with copying := true } else k)
        ∧ ∀ e, t.dev.arch e = s.dev.arch e)
    ∧ (s.dev.epochDrain = 0 → (s.dev.moves.find? fun m => m.copying) = some m →
        (m.purpose = 0 → gives .moveComplete s ((s.dev.moveRegions m).foldl (fun (d : Dev) q => d.parkOrBegin q.1 q.2)
          ({ s.dev.cleared with moves := s.dev.moves.erase m }.setRows m.rows fun _ => false)).cellsFreed)
        ∧ (m.purpose ≠ 0 → s.dev.groom.test = none → gives .moveComplete s ((s.dev.moveRegions m).foldl (fun (d : Dev) q => d.parkOrBegin q.1 q.2)
          ((s.dev.moveRegions m).foldl Dev.addPause
            ({ s.dev.cleared with moves := s.dev.moves.erase m }.setRows m.rows fun _ => false))).cellsFreed))
    ∧ (∀ n num r, (s.dev.ctx n).rt? num = some r → r.parked = false →
        (s.dev.moves.find? fun m => !m.copying && (s.dev.moveRegions m).contains (n, num)) = some m →
        (m.purpose = 0 → (s.dev.ctx n).midStep = false → gives (.parkWaitTimeout n num) s (s.dev.cleared.midStop n))
        ∧ (∀ t, m.purpose = 1 → s.dev.groom.test = some t → t.demand = false → gives (.parkWaitTimeout n num) s
          ((s.dev.moveRegions m).foldl (fun (d : Dev) q => d.parkOrBegin q.1 q.2)
            { ({ s.dev.cleared with moves := s.dev.moves.erase m }.bump 0x6100 0xD 1) with
              groom := { s.dev.groom with test := none, deferred := s.dev.groom.deferred ++ [t.cell] } })))
    ∧ (∀ px py, px < 32 → py < 32 → s.dev.isFenced px py = false → s.dev.keep.retired ≠ some py →
        (((s.dev.regionsOnRow py).filter fun q => (s.dev.ctx q.1).state.holds && !(s.dev.ctx q.1).entering) = [] →
          gives (.fenceCmd (px + 256 * py)) s (s.dev.cleared.fenceCell px py false))
        ∧ (∀ q rest, ((s.dev.regionsOnRow py).filter fun q => (s.dev.ctx q.1).state.holds && !(s.dev.ctx q.1).entering) = q :: rest →
          gives (.fenceCmd (px + 256 * py)) s { s.dev.cleared with fenceWaits := s.dev.fenceWaits ++ [⟨px, py, q :: rest⟩] }))

/-- Maintenance: a scrub read counts, and one that is lost retires its free tier-2 frame; a memory test takes frames and gives those that failed to the retired list; a FAILED context is restored from its newest readable checkpoint and queued; a re-initialised context goes on from its last commits, a re-initialised pager has empty translation caches; ones written to alert.cause clear causes, the alert pin falls when no cause is due; PPS is captured unless PTP holds the unit (R398, R399, R414 to R417). -/
def Obligations.Maintenance : Prop :=
  ∀ (s : State), clocked s →
    (∀ near blk, gives (.scrubRead near blk .good) s (s.dev.cleared.bump 0x6101 2 1))
    ∧ (∀ near blk, gives (.scrubRead near blk .transient) s
        (((s.dev.cleared.bump 0x6101 2 1).bump 0x6101 3 1).bump 0x3100 4 (if near.isNone then 1 else 0)))
    ∧ (∀ blk, s.dev.keep.frames.contains (blk / 16) = false → s.dev.t2.used.contains (blk / 16) = false →
        ∃ t, exec (.scrubRead none blk .lost) s = .next t ∧ t.nv.keep.frames = blk / 16 :: s.dev.keep.frames ∧ ∀ e, t.dev.core e = s.dev.core e)
    ∧ (s.dev.memtest.busy = false → gives .memtestStart s { s.dev.cleared with
        memtest := ⟨2, 0, cPending, s.dev.testFrames, 0, 0, 0⟩, t2 := { s.dev.t2 with pinned := s.dev.t2.pinned + s.dev.testFrames } })
    ∧ (s.dev.memtest.busy = true →
        gives .memtestCancel s (s.dev.cleared.memtestOver s.dev.memtest.cancelled)
        ∧ ∀ failed, ∃ t, exec (.memtestComplete failed) s = .next t ∧ t.dev.memtest.state = 3 ∧ t.dev.memtest.code = cOk
          ∧ t.nv.keep.frames = failed.reverse ++ s.dev.keep.frames ∧ ∀ e, t.dev.core e = s.dev.core e)
    ∧ (∀ auto n k buddy, (auto = some n ∧ s.dev.objD 0x6105 4 1 = 1) ∨ (auto = none ∧ n = s.dev.objD 0x5100 1 0 ∧ s.dev.recover.busy = false) →
        (s.dev.ctx n).state = .failed → newest s.dev.ckpts n = some k → k.readable = true → gives (.recoverCheckpoint auto true buddy) s
          ((({ (s.dev.cleared.restore n k) with recover := (⟨2, 0, cPending, n, 0, 0, 0⟩ : LongOp).ends cOk }.toState n .preempted).join n).schedule))
    ∧ (∀ n, (s.dev.ctx n).state = .running → (s.dev.ctx n).entering = false → (∀ r ∈ (s.dev.ctx n).regions, r.shadowed = true ∧ r.scanned = false) →
        gives (.reinitContext n) s ((s.dev.ctx n).image.regions.foldl (fun (d : Dev) r => (d.replayEnds n r.region).parkOrBegin n r.region)
          { (s.dev.cleared.rollbackAll n) with reinit := (⟨2, 0, cPending, n, 0, 0, 0⟩ : LongOp).ends cOk }))
    ∧ (∃ t, exec .reinitPager s = .next t ∧ t.dev.t2.tlb = [] ∧ (∀ f ∈ t.dev.t2.fills, f.2.2 = 0) ∧ t.dev.t2.mem = s.dev.t2.mem
        ∧ t.dev.reinit.state = 3 ∧ ∀ e, t.dev.core e = s.dev.core e)
    ∧ (∀ value, ∃ t, exec (.alertCauseWrite value) s = .next t
        ∧ t.dev.objD 0x6104 1 0 = s.dev.objD 0x6104 1 0 - (s.dev.objD 0x6104 1 0).land (value % 8) ∧ ∀ e, t.dev.core e = s.dev.core e)
    ∧ (s.dev.alertN = true → s.dev.alertDue = false →
        gives .alertMinWidthExpiry s ({ s.dev.cleared with alertN := false }.emit (.pin 0 false)))
    ∧ gives (.ppsInEdge false) s { s.dev.cleared with ppsTime := s.dev.time } ∧ gives (.ppsInEdge true) s (s.dev.cleared.bump 0x6104 3 1)

/-! ### Links -/

/-- The states of a link: signal takes it from DOWN to TRAIN, training to IDENT with full credits and the width that trained, a failure or silence to DOWN, commands to TRAIN, FENCED or IDENT, and no core is touched (R420 to R427). -/
def Obligations.LinkStates : Prop :=
  ∀ (s : State) (n : Nat), clocked s → s.dev.linkAbsent n = false →
    (s.dev.linkState n = 0 → s.dev.objD (0x2B00 + n) 4 1 ≠ 0 → ∀ i, i = .linkSignalDetect n ∨ i = .linkRetryTimer n →
        ∃ t, exec i s = .next t ∧ t.dev.linkState n = 1 ∧ t.dev.links = s.dev.links ∧ ∀ e, t.dev.core e = s.dev.core e)
    ∧ (∀ lanes, s.dev.linkState n = 1 → linkWidth lanes ≠ 0 → ∃ t, exec (.linkTrained n lanes) s = .next t
        ∧ t.dev.linkState n = 2 ∧ t.dev.objD (0x2B00 + n) 2 0 = linkWidth lanes ∧ t.dev.objD (0x2B00 + n) 3 0 = 1
        ∧ (linkWidth lanes ≠ 4 → t.dev.objD (0x2B00 + n) 8 0 = cLinkDegraded)
        ∧ (∀ m, m ≠ n → t.dev.link m = s.dev.link m) ∧ ∀ e, t.dev.core e = s.dev.core e)
    ∧ (s.dev.linkState n = 1 → ∃ t, exec (.linkTrainFailed n) s = .next t
        ∧ t.dev.linkState n = 0 ∧ t.dev.objD (0x2B00 + n) 8 0 = cLinkTrainFailed ∧ t.dev.objD (0x2B00 + n) 2 0 = 0
        ∧ ∀ e, t.dev.core e = s.dev.core e)
    ∧ (s.dev.linkState n = 2 → (s.dev.link n).known = false → gives (.identTimeout n) s (s.dev.cleared.linkDown n 0))
    ∧ (2 ≤ s.dev.linkState n → gives (.linkFrameTimeout n) s (s.dev.cleared.linkDown n 0))
    ∧ ((s.dev.linkDown n 0).linkState n = 0 ∧ ((s.dev.linkDown n 0).link n).known = false ∧ ((s.dev.linkDown n 0).link n).held = (s.dev.link n).held)
    ∧ (2 ≤ s.dev.linkState n → ∀ clean, ∃ t, exec (.fecEvaluation n clean) s = .next t
        ∧ t.dev.objD (0x2B00 + n) 3 1 = (if s.dev.objD 0x2A00 1 1 = 0 then 1 else if clean then 0 else s.dev.objD (0x2B00 + n) 3 1)
        ∧ t.dev.links = s.dev.links ∧ ∀ e, t.dev.core e = s.dev.core e)
    ∧ (s.dev.linkState n = 0 ∨ s.dev.linkState n = 2 ∨ s.dev.linkState n = 3 ∨ s.dev.linkState n = 4 →
        gives (.linkRetrain n) s (s.dev.cleared.linkTo n 1 0))
    ∧ (s.dev.linkState n = 3 ∨ s.dev.linkState n = 4 → ∃ t, exec (.linkFence n) s = .next t ∧ t.dev.linkState n = 5
        ∧ t.dev.links = s.dev.links ∧ ∀ e, t.dev.core e = s.dev.core e)
    ∧ (s.dev.linkState n = 5 → s.dev.objD 0x6200 7 0 ≠ 1 → ∃ t, exec (.linkUnfence n) s = .next t ∧ t.dev.linkState n = 2
        ∧ ∀ e, t.dev.core e = s.dev.core e)
    ∧ (∀ lanes, lanes < 16 → linkWidth lanes = if lanes = 15 then 4 else if lanes % 4 = 3 ∨ lanes / 4 = 3 then 2 else if lanes = 0 then 0 else 1)

/-- Which frames of a link's sequence are acted on: the next one, with a healthy check, a version and a type that the device implements, its own membership epoch and a state that carries its channel; then the expected sequence advances by one and no core and no context changes. A gap or a failed check leaves the expected sequence, and a link below IDENT takes nothing. An acknowledgement drops the held frames up to the one it names (R423, R428, R429, R431, R436). The frames of a link, each with what it does. Ack, credit, idle and nak frames with a healthy check and a version that the device implements drop the held frames that they acknowledge, send what waited, and leave the expected sequence; a nak for an epoch ahead makes the link wait, any other resends the held frames from the sequence that it names. The acknowledgement timer sends an ack frame when anything is unacknowledged, the identity timer resends frames that waited for the epoch and sends a record. An identity record of this version is kept as the link's partner, and makes the link ACTIVE when it agrees. Of the frames that are taken: a packet for this device goes into the mesh with this device's epoch bit, an end-to-end acknowledgement marks its payload in the input log, a residency acknowledgement leaves nothing owed to its peer, a marker drops the log entries that it covers, a residency frame notes whether its sender's context is here, a replay request leaves its entries unacknowledged, to be sent again, and a relay frame joins the first of several pieces for this device or passes its piece on; a packet frame's payload acts on what taking the frame has left. A link below IDENT takes no frame outside the sequence and sends nothing on its timers (R422, R428 to R433, R435, R436, R440, R441, R454, R455, R519). -/
def Obligations.LinkFrames : Prop :=
  (∀ (d : Dev) (n : Nat) (f : FrameHdr),
    (d.takesFrame n f → (d.frameIn n f).2 = true ∧ ((d.frameIn n f).1.link n).rxSeq = (f.seq + 1) % 4096
        ∧ (∀ e, (d.frameIn n f).1.core e = d.core e) ∧ ∀ m, (d.frameIn n f).1.ctx m = d.ctx m)
    ∧ (d.linkUp n = true → f.crcOk = true → f.version / 16 = 1 → f.kind = 0 ∨ 5 ≤ f.kind ∧ f.kind < 9 → f.seq ≠ (d.link n).rxSeq →
        (d.frameIn n f).2 = false ∧ ((d.frameIn n f).1.link n).rxSeq = (d.link n).rxSeq ∧ ∀ e, (d.frameIn n f).1.core e = d.core e)
    ∧ (d.linkUp n = true → f.crcOk = false → (d.frameIn n f).2 = false ∧ ((d.frameIn n f).1.link n).rxSeq = (d.link n).rxSeq
        ∧ ((d.frameIn n f).1.link n).held = (d.link n).held)
    ∧ (d.linkUp n = false → d.frameIn n f = (d, false))
    ∧ (∀ held ack, (∃ k ∈ held, k.hdr.seq = ack) → ∃ pre k, held = pre ++ k :: ackHeld held ack ∧ k.hdr.seq = ack))
  ∧ (∀ (s : State) (n : Nat) (f : FrameHdr), clocked s → n < 64 →
    (s.dev.linkUp n = true → f.crcOk = true → f.version / 16 = 1 →
        ∀ i, i = .linkAckFrame n f ∨ i = .linkCreditFrame n f ∨ i = .linkIdleFrame n f ∨ i = .linkNakFrame n { f with aux := 2 } →
          ∃ t, exec i s = .next t
            ∧ (∃ sent, (t.dev.link n).held = ackHeld (s.dev.link n).held f.ack ++ sent
                ∧ (t.dev.link n).waiting.length + sent.length = (s.dev.link n).waiting.length)
            ∧ ((s.dev.link n).waiting = [] → (t.dev.link n).credits = vSet (s.dev.link n).credits (chanIdx f.creditVc f.creditSub)
                (min 32 (vGet (s.dev.link n).credits (chanIdx f.creditVc f.creditSub) 0 + f.credit)))
            ∧ (t.dev.link n).rxSeq = (s.dev.link n).rxSeq
            ∧ ((t.dev.link n).epochWait = true ↔ i = .linkNakFrame n { f with aux := 2 } ∨ (s.dev.link n).epochWait = true)
            ∧ (∀ m, m ≠ n → t.dev.link m = s.dev.link m) ∧ ∀ e, t.dev.core e = s.dev.core e)
    ∧ (s.dev.linkUp n = true → f.crcOk = true → f.version / 16 = 1 → f.aux ≠ 2 → (s.dev.link n).waiting = [] →
        ∀ rest, rest = (ackHeld (s.dev.link n).held f.ack).dropWhile (fun k => k.hdr.seq != f.seq) →
          ∃ t, exec (.linkNakFrame n f) s = .next t ∧ (t.dev.link n).rxSeq = (s.dev.link n).rxSeq
            ∧ (rest = [] → (t.dev.link n).held = ackHeld (s.dev.link n).held f.ack)
            ∧ (rest ≠ [] → (t.dev.link n).held = rest.map (fun k => { k with tries := k.tries + 1 }))
            ∧ ((∀ k ∈ rest, k.tries < 8) → t.dev.linkState n = s.dev.linkState n
                ∧ ∀ k ∈ rest, Out.frame n { k with tries := k.tries + 1 } ∈ t.dev.out)
            ∧ ((∃ k ∈ rest, 8 ≤ k.tries) → t.dev.linkState n = 0)
            ∧ ∀ e, t.dev.core e = s.dev.core e)
    ∧ (s.dev.linkUp n = true → (s.dev.link n).unackedRx ≠ 0 → ∃ t, exec (.linkAckTimer n) s = .next t
        ∧ Out.frame n ⟨{ s.dev.frameHdr 1 2 0 with seq := (s.dev.link n).rxSeq, ack := ((s.dev.link n).rxSeq + 4095) % 4096 }, .empty, 0⟩ ∈ t.dev.out
        ∧ t.dev.link n = { s.dev.link n with unackedRx := 0 } ∧ ∀ e, t.dev.core e = s.dev.core e)
    ∧ (s.dev.linkUp n = true → (s.dev.link n).unackedRx = 0 → gives (.linkAckTimer n) s s.dev.cleared)
    ∧ (s.dev.linkUp n = true → ∃ t, exec (.identTimer n) s = .next t ∧ (t.dev.link n).epochWait = false
        ∧ ((s.dev.link n).epochWait = true →
            ∀ k ∈ (s.dev.link n).held, Out.frame n { k with hdr := { k.hdr with epoch := s.dev.epoch } } ∈ t.dev.out)
        ∧ ((s.dev.link n).waiting = [] → (s.dev.link n).held.length < 512 → vGet (s.dev.link n).credits 4 0 ≠ 0 →
            ∃ k, k.pay = .ident (s.dev.identRec n) ∧ k.hdr.kind = 5 ∧ k.hdr.vc = 2 ∧ k.hdr.seq = (s.dev.link n).txSeq
              ∧ Out.frame n k ∈ t.dev.out ∧ (t.dev.link n).held = (s.dev.link n).held ++ [k])
        ∧ ∀ e, t.dev.core e = s.dev.core e)
    ∧ (∀ r, s.dev.takesFrame n { f with kind := 5, vc := 2 } → r.version / 256 = 1 → ∃ t, exec (.identFrame n f r) s = .next t
        ∧ (t.dev.link n).known = true ∧ (t.dev.link n).partnerSerial = r.serial ∧ (t.dev.link n).partnerEpoch = r.epoch
        ∧ (t.dev.link n).partnerDev = r.device ∧ t.dev.objD (0x2B40 + n) 1 0 = identWord r
        ∧ (r.majors % 2 = 1 → r.archMajor = 1 → r.cfgDigest = s.dev.cfgDigest % 2 ^ 256 → r.device ≠ s.dev.self → r.device ≠ 0xFFFF →
            s.dev.expelled r.device = false → s.dev.isMember r.device = true → s.dev.linkState n ≠ 5 → s.dev.objD 0x6200 7 0 ≠ 1 → t.dev.linkState n = 4)
        ∧ ∀ e, t.dev.core e = s.dev.core e)
    ∧ (s.dev.takesFrame n { f with kind := 0 } →
        (∀ p h, (p.head.dstDev = s.dev.self ∨ p.head.dkind ≠ 2) →
            h = { p.head with epoch := s.dev.mesh.epoch, poison := max p.head.poison f.poison, dkind := 0, dstDev := 0xFFFF } →
            s.dev.malformed h (p.units.length + 1) = none → ∃ t, exec (.linkPacketFrame n f (.packet p)) s = .next t
          ∧ t.dev.mesh.transit = s.dev.mesh.transit ++ [pktOf h p.units] ∧ (t.dev.link n).rxSeq = (f.seq + 1) % 4096
          ∧ ∀ e, t.dev.core e = s.dev.core e)
        ∧ (∃ t, exec (.linkPacketFrame n f .relAck) s = .next t
          ∧ logged t.dev.inlog = logged (s.dev.inlog.map fun e =>
              if e.ctx = f.dstCtx ∧ e.dev = f.srcDev ∧ e.rctx = f.srcCtx ∧ e.step = f.step ∧ e.idx = f.relIdx then { e with acked := true } else e)
          ∧ ∀ e, t.dev.core e = s.dev.core e)
        ∧ (∃ t, exec (.linkPacketFrame n f .residencyAck) s = .next t
          ∧ (t.dev.ctx f.dstCtx).unacked = (s.dev.ctx f.dstCtx).unacked.erase f.srcDev
          ∧ (∀ m, m ≠ f.dstCtx → (t.dev.ctx m).unacked = (s.dev.ctx m).unacked) ∧ ∀ e, t.dev.core e = s.dev.core e)
        ∧ (∀ p, gives (.linkPacketFrame n f p) s ((s.dev.cleared.frameIn n { f with kind := 0 }).1.payIn n f p)))
    ∧ (∀ step idx, s.dev.takesFrame n { f with kind := 6, vc := 2 } → ∃ t, exec (.markerFrame n f step idx) s = .next t
        ∧ logged t.dev.inlog = logged (s.dev.inlog.filter fun e =>
            !(e.ctx = f.dstCtx && e.dev = f.srcDev && e.rctx = f.srcCtx && (decide (e.step < step) || (e.step = step && decide (e.idx ≤ idx)))))
        ∧ ∀ e, t.dev.core e = s.dev.core e)
    ∧ (∀ here, s.dev.takesFrame n { f with kind := 7, vc := 2 } → ∃ t, exec (.residencyFrame n f here) s = .next t
        ∧ (f.srcDev ∈ (t.dev.ctx f.dstCtx).peersIn ↔ here = true ∨ f.srcDev ∈ (s.dev.ctx f.dstCtx).peersIn.erase f.srcDev)
        ∧ (∀ v, v ≠ f.srcDev → (v ∈ (t.dev.ctx f.dstCtx).peersIn ↔ v ∈ (s.dev.ctx f.dstCtx).peersIn))
        ∧ ∀ e, t.dev.core e = s.dev.core e)
    ∧ (∀ after, s.dev.takesFrame n { f with kind := 0, vc := 2 } → ∃ t, exec (.replayRequest n f after) s = .next t
        ∧ logged t.dev.inlog = logged (s.dev.inlog.map fun e =>
            if e.ctx = f.dstCtx ∧ e.dev = f.srcDev ∧ e.rctx = f.srcCtx ∧ (∀ p, after = some p → posLe (e.step, e.idx) p = false)
            then { e with acked := false } else e)
        ∧ ∀ e, t.dev.core e = s.dev.core e)
    ∧ (∀ p, s.dev.takesFrame n { f with kind := 8, vc := 2 } → s.dev.self ≠ 0xFFFF → p.piece ≤ p.piecesM1 → p.piecesM1 ≤ 4 →
        (p.dstDev = s.dev.self → 0 < p.piecesM1 → (∀ r ∈ s.dev.rack.relayIn, ¬(r.origin = p.origin ∧ r.relayId = p.relayId)) →
          ∃ t, exec (.relayFrame n f p) s = .next t
            ∧ t.dev.rack.relayIn = s.dev.rack.relayIn ++ [⟨p.origin, p.relayId, p.piecesM1, [(p.piece, p.bytes)]⟩]
            ∧ ∀ e, t.dev.core e = s.dev.core e)
        ∧ (∀ m, p.dstDev ≠ s.dev.self → p.hops < 8 → s.dev.linkAt [3, 4, 5] s.dev.mesh.epoch p.dstDev 0 = some m → m ≠ n →
            (s.dev.link m).waiting = [] → (s.dev.link m).held.length < 512 → vGet (s.dev.link m).credits 4 0 ≠ 0 →
          ∃ t k, exec (.relayFrame n f p) s = .next t ∧ k.pay = .relay { p with hops := p.hops + 1 } ∧ k.hdr.kind = 8 ∧ k.hdr.vc = 2
            ∧ Out.frame m k ∈ t.dev.out ∧ t.dev.rack.relayIn = s.dev.rack.relayIn ∧ ∀ e, t.dev.core e = s.dev.core e))
    ∧ (s.dev.linkUp n = false → ∀ i, i = .linkAckFrame n f ∨ i = .linkNakFrame n f ∨ i = .linkCreditFrame n f ∨ i = .linkIdleFrame n f
        ∨ i = .linkAckTimer n ∨ i = .identTimer n → gives i s s.dev.cleared))

/-- Released granules: one that comes next, under a lease that allows writing and with an agreeing check, is written to tier 2 exactly and acknowledged, and its position advances; a duplicate writes nothing and is counted (R440, R443, R444). Timers towards peers: residency is sent again, unacknowledged payloads are resent and their peer suspected, and pieces of a fragment that were not joined are discarded (R440, R441, R452, R519). -/
def Obligations.ReleasedGranules : Prop :=
  (∀ (d : Dev) (n : Nat) (f : FrameHdr) (lease addr : Nat) (data : List Byte) (l : Lease),
    (d.ctx f.dstCtx).lost = [] → d.leaseOf lease f.srcDev f.srcCtx = some l → l.w = true → l.covers addr data.length = true →
    (f.relIdx = 0 → (∀ p, (d.ctx f.dstCtx).lastFrom f.srcDev f.srcCtx = some p → posLe (f.step, f.relIdx) p = false) →
        (∀ a, memGet (d.releasedIn n f (.granule lease addr data) (crc64 data)).t2.mem a
          = if l.first * 65536 + addr ≤ a ∧ a < l.first * 65536 + addr + data.length then data.getD (a - (l.first * 65536 + addr)) 0#8
            else memGet d.t2.mem a)
        ∧ ((d.releasedIn n f (.granule lease addr data) (crc64 data)).ctx f.dstCtx).lastFrom f.srcDev f.srcCtx = some (f.step, f.relIdx))
    ∧ (∀ p check, (d.ctx f.dstCtx).lastFrom f.srcDev f.srcCtx = some p → posLe (f.step, f.relIdx) p = true →
        (d.releasedIn n f (.granule lease addr data) check).t2.mem = d.t2.mem
        ∧ (d.releasedIn n f (.granule lease addr data) check).objD 0x6201 4 0 = d.objD 0x6201 4 0 + 1))
  ∧ (∀ (s : State) (n : Nat), clocked s →
    (∀ late, gives (.residencyResend n late) s ((late.filter fun v => (s.dev.ctx n).unacked.contains v && !s.dev.expelled v).foldl Dev.suspectPeer
        ((s.dev.ctx n).unacked.foldl (fun (d : Dev) dev =>
          d.sendMgmt dev 7 n (((s.dev.ctx n).peerCtx dev).getD n) 0 0 (.residency (s.dev.ctx n).state.holds)) s.dev.cleared)))
    ∧ (∀ dev l, (s.dev.inlog.filter fun e => e.ctx = n && e.dev = dev && e.sent && !e.acked) = l → l ≠ [] → s.dev.expelled dev = false →
        gives (.e2eResendTimeout n dev) s ((l.foldl Dev.sendReleased s.dev.cleared).suspectPeer dev))
    ∧ (∀ origin relayId, ∃ t, exec (.relayReassemblyTimeout origin relayId) s = .next t
        ∧ (∀ r, r ∈ t.dev.rack.relayIn ↔ r ∈ s.dev.rack.relayIn ∧ ¬(r.origin = origin ∧ r.relayId = relayId))
        ∧ t.dev.rack.relays = s.dev.rack.relays ∧ ∀ e, t.dev.core e = s.dev.core e))

/-! ### Membership and checkpoints -/

/-- Membership keys and quorum are installed as written, and an order that passes its checks with enough signatures, all counted, is installed, while one that fails a check is refused with its code and installs nothing, as every order of an epoch not newer does, and one that repeats the current order changes nothing; an order from a link is treated as that frame is; installing an order that expels nobody sets the epoch, the member bitmap and the current order (R446 to R449). A lease is granted on the lowest run of free frames, or refused when none is left, and one that is taken back is zero-filled (R318, R444). -/
def Obligations.Membership : Prop :=
  (∀ (s : State), clocked s →
    (∀ bs, s.dev.keysCheck bs = none → bs ≠ [] → ∃ t, exec (.membershipKeysWrite bs) s = .next t
        ∧ t.dev.rack = { s.dev.rack with keys := (chunks 2592 7 bs).zipIdx.map fun p => (p.2, p.1) }
        ∧ t.dev.objs = s.dev.objs ∧ ∀ e, t.dev.core e = s.dev.core e)
    ∧ (∃ t, exec (.membershipKeysWrite []) s = .next t ∧ t.dev.rack.keys = [] ∧ t.dev.objD 0x6200 2 1 = 1)
    ∧ (∀ k, 0 < k → k ≤ s.dev.rack.keys.length → ∃ t, exec (.membershipKWrite k) s = .next t
        ∧ t.dev.objD 0x6200 2 1 = k ∧ t.dev.rack = s.dev.rack ∧ ∀ e, t.dev.core e = s.dev.core e)
    ∧ (∀ bs, s.dev.orderKnown bs = false → s.dev.orderCheck bs = none → (s.dev.orderSigs bs).2 = 0 →
        s.dev.objD 0x6200 2 1 ≤ (s.dev.orderSigs bs).1.length → gives (.membershipOrder none bs) s (s.dev.cleared.install bs))
    ∧ (∀ bs code, s.dev.orderKnown bs = false → s.dev.orderCheck bs = some code → ∃ t, exec (.membershipOrder none bs) s = .next t
        ∧ t.dev.answer = code ∧ t.dev.rack = s.dev.rack ∧ t.dev.objD 0x6200 1 0 = s.dev.objD 0x6200 1 0
        ∧ t.dev.objD 0x6200 6 0 = s.dev.objD 0x6200 6 0)
    ∧ (∀ bs, bits (orderHdr bs) 15 8 = 1 → s.dev.orderKnown bs = true → gives (.membershipOrder none bs) s s.dev.cleared)
    ∧ (∀ n f bs, s.dev.takesFrame n { f with kind := 0, vc := 2 } →
        gives (.membershipOrder (some (n, f)) bs) s ((s.dev.cleared.frameIn n { f with kind := 0, vc := 2 }).1.order bs n))
    ∧ (∀ bs, (∀ v, v < 4096 → bit (s.dev.objD 0x6200 6 0) v = true → bit (orderMembers bs) v = true) → s.dev.objD 0x6200 7 0 ≠ 1 →
        (s.dev.install bs).objD 0x6200 1 0 = bits (orderHdr bs) 63 32 ∧ (s.dev.install bs).objD 0x6200 6 0 = orderMembers bs
          ∧ (s.dev.install bs).rack.order = bs ∧ ∀ e, (s.dev.install bs).core e = s.dev.core e)
    ∧ (∀ bs, bits (orderHdr bs) 63 32 ≤ s.dev.epoch → s.dev.orderCheck bs ≠ none))
  ∧ (∀ (s : State) (sub v : Nat), clocked s → 0 < sub → sub ≤ 64 →
    (nmGet s.dev.rack.leases (sub - 1) = none → bit v 96 = true →
        (∀ f, bits v 95 64 ≤ s.dev.freeFrames → s.dev.freeRun (bits v 95 64) = some f → ∃ t, exec (.leaseWrite sub v) s = .next t
          ∧ nmGet t.dev.rack.leases (sub - 1) = some ⟨bits v 15 0, bits v 29 16, bit v 30, bit v 31, f, bits v 95 64⟩
          ∧ (∀ k, k ≠ sub - 1 → nmGet t.dev.rack.leases k = nmGet s.dev.rack.leases k)
          ∧ (∀ g, g ∈ t.dev.t2.used ↔ g ∈ s.dev.t2.used ∨ f ≤ g ∧ g < f + bits v 95 64)
          ∧ t.dev.t2.mem = s.dev.t2.mem ∧ ∀ e, t.dev.core e = s.dev.core e)
        ∧ (s.dev.freeFrames < bits v 95 64 → gives (.leaseWrite sub v) s (s.dev.cleared.reply cNoMemory)))
    ∧ (∀ l, nmGet s.dev.rack.leases (sub - 1) = some l → bit v 96 = false → ∃ t, exec (.leaseWrite sub v) s = .next t
        ∧ nmGet t.dev.rack.leases (sub - 1) = none
        ∧ (∀ a, memGet t.dev.t2.mem a = if l.first * 65536 ≤ a ∧ a < (l.first + l.frames) * 65536 then 0#8 else memGet s.dev.t2.mem a)
        ∧ ∀ e, t.dev.core e = s.dev.core e))

/-- Checkpoints: one that passes its checks is requested at the commit of a step, by command or by its timer, and one in progress is cancelled; with a buddy that is not expelled its copy is sealed, and the buddy's acknowledgement completes it or another code ends it; a copy for another device of this version is kept while the area holds it, and is refused with its code when it is too large or of another version (R10, R356, R456 to R461). -/
def Obligations.Checkpoints : Prop :=
  ∀ (s : State) (n : Nat), clocked s →
    (∀ step, s.dev.objD 0x5100 1 0 = n → s.dev.ckptCheck n step = none → gives (.ckptGo step) s
        ((s.dev.cleared.updCtx n fun x => { x with ckpt := ⟨2, 0, cPending, step, 0, 0, 0⟩ }).parkIdle n))
    ∧ ((s.dev.ctx n).periodS ≠ 0 → s.dev.ckptCheck n (s.dev.ctx n).nextStep = none → gives (.ckptPeriodTimer n) s
        ((s.dev.cleared.updCtx n fun x => { x with ckpt := ⟨2, 0, cPending, (s.dev.ctx n).nextStep, 0, 0, 0⟩ }).parkIdle n))
    ∧ (s.dev.objD 0x5100 1 0 = n → (s.dev.ctx n).ckpt.busy = true → gives .ckptCancel s (s.dev.cleared.ckptEnds n LongOp.cancelled))
    ∧ (∀ k, (s.dev.ctx n).ckpt.state = 2 → (s.dev.ctx n).ckpt.c = 1 → (s.dev.ctx n).buddy ≠ 0xFFFF → s.dev.expelled (s.dev.ctx n).buddy = false →
        (s.dev.ckpts.find? fun k => k.ctx = n && k.slot = (s.dev.ctx n).ckpt.b && !k.complete) = some k →
        ∃ t, exec (.ckptCopyComplete n) s = .next t ∧ (t.dev.ctx n).ckpt.c = 2 ∧ (t.dev.ctx n).ckpt.state = 2
          ∧ (∃ j ∈ t.dev.ckpts, j.ctx = n ∧ j.slot = k.slot ∧ j.isSealed = true ∧ j.todo = []
              ∧ j.pages = k.pages ++ k.todo.map fun p => (p, s.dev.pageBytes n p))
          ∧ ∀ e, t.dev.core e = s.dev.core e)
    ∧ ((s.dev.ctx n).ckpt.state = 2 → (s.dev.ctx n).ckpt.c = 2 →
        gives (.buddyAck n cOk) s (s.dev.cleared.ckptComplete n)
        ∧ ∀ code, code ≠ cOk → gives (.buddyAck n code) s ((s.dev.cleared.raised code).ckptEnds n fun o => o.ends code))
    ∧ (∀ k : Ckpt, k.version / 256 = 1 → ((s.dev.buddies.filter fun j => !(j.device = k.device && j.ctx = k.ctx && j.slot = k.slot)).map Ckpt.bytes).sum + k.bytes
          ≤ s.dev.objD 0x6202 2 128 * 2 ^ 30 → ∃ t, exec (.buddyCopyReceive k) s = .next t
        ∧ (∀ j, j ∈ t.dev.buddies ↔ (j ∈ s.dev.buddies ∧ ¬(j.device = k.device ∧ j.ctx = k.ctx ∧ j.slot = k.slot))
            ∨ j = { k with isSealed := true, complete := true })
        ∧ t.dev.ckpts = s.dev.ckpts ∧ ∀ e, t.dev.core e = s.dev.core e)
    ∧ (∀ k : Ckpt, k.version / 256 ≠ 1 → ∃ t, exec (.buddyCopyReceive k) s = .next t
        ∧ t.dev.buddies = s.dev.buddies ∧ t.dev.answer = cUnsupportedVersion)
    ∧ (∀ k : Ckpt, k.version / 256 = 1 → s.dev.objD 0x6202 2 128 * 2 ^ 30 < k.bytes → ∃ t, exec (.buddyCopyReceive k) s = .next t
        ∧ t.dev.buddies = s.dev.buddies ∧ t.dev.answer = cNoMemory)

/-! ### The Ethernet port -/

/-- The port's own protocols: its link goes down and up, and up it announces itself; a request for its own address is answered, another's is not; the LLDP identity received is kept; a pause of a priority that the port serves is kept and loses nothing of what waits, whose end sends it, and pauses go out and end at the buffer's two marks; a PTP event is timestamped; TIME is disciplined once and uncertain records are dated from it; a disciplined device pulses PPS_OUT (R463 to R468, R485 to R487). -/
def Obligations.EthernetPort : Prop :=
  ∀ (s : State), clocked s →
    gives .ethPortDown s (s.dev.cleared.setObj 0x2800 2 0)
    ∧ gives .ethPortUp s ((s.dev.cleared.setObj 0x2800 2 2).emit (.eth 3 [s.dev.sec.fuses.serial, 1, 120, s.dev.objD 0x2800 8 0] []))
    ∧ (∀ target asker mac, s.dev.portUp = true → target ≠ 0 →
        (target = s.dev.objD 0x2800 4 0 → gives (.arpRequest target asker mac) s (s.dev.cleared.emit (.eth 4 [target, s.dev.sec.fuses.mac, asker, mac] [])))
        ∧ (target ≠ s.dev.objD 0x2800 4 0 → gives (.arpRequest target asker mac) s s.dev.cleared)
        ∧ (target = s.dev.objD 0x2800 5 0 →
            gives (.neighbourSolicitation target asker mac) s (s.dev.cleared.emit (.eth 5 [target, s.dev.sec.fuses.mac, asker, mac] [])))
        ∧ (target ≠ s.dev.objD 0x2800 5 0 → gives (.neighbourSolicitation target asker mac) s s.dev.cleared))
    ∧ (∀ chassis port, ∃ t, exec (.lldpReceive chassis port) s = .next t
        ∧ t.dev.objD 0x2800 9 0 = chassis % 2 ^ 256 + 2 ^ 256 * (port % 2 ^ 256) ∧ t.dev.eth = s.dev.eth ∧ ∀ e, t.dev.core e = s.dev.core e)
    ∧ (s.dev.portUp = true → gives .lldpTimer s (s.dev.cleared.emit (.eth 3 [s.dev.sec.fuses.serial, 1, 120, s.dev.objD 0x2800 8 0] [])))
    ∧ (∀ prio pause i, s.dev.pfcIndex prio = some i → ∃ t, exec (.pfcPauseReceive prio pause) s = .next t
        ∧ vGet t.dev.eth.pauseRx i false = pause ∧ (∀ j, j ≠ i → vGet t.dev.eth.pauseRx j false = vGet s.dev.eth.pauseRx j false)
        ∧ t.dev.eth.fill = s.dev.eth.fill ∧ (∀ p ∈ s.dev.txHeld, p.2 ∈ t.dev.out ++ t.dev.txHeld.map Prod.snd)
        ∧ (pause = false → ∀ p ∈ s.dev.txHeld, p.1 = i → s.dev.pfcOf p.2 = some i → p.2 ∈ t.dev.out)
        ∧ (pause = true → ∀ p ∈ s.dev.txHeld, p ∈ t.dev.txHeld) ∧ ∀ e, t.dev.core e = s.dev.core e)
    ∧ (∀ i n, i < 2 → (vGet s.dev.eth.pauseTx i false = false → 3 * 2 ^ 20 < n → vGet (s.dev.pfcFill i n).eth.pauseTx i false = true)
        ∧ (vGet s.dev.eth.pauseTx i false = true → n < 2 * 2 ^ 20 → vGet (s.dev.pfcFill i n).eth.pauseTx i false = false)
        ∧ (2 * 2 ^ 20 ≤ n → n ≤ 3 * 2 ^ 20 → vGet (s.dev.pfcFill i n).eth.pauseTx i false = vGet s.dev.eth.pauseTx i false))
    ∧ (∀ m, gives (.ptpEventMessage m) s ((s.dev.cleared.setObj 0x2800 0xE (((s.dev.time : Int) - m) % 2 ^ 64).toNat).emit (.words 1 [s.dev.time])))
    ∧ (∀ time, s.dev.disciplined = false → ∃ t, exec (.timeDisciplined time) s = .next t ∧ t.dev.time = time ∧ t.dev.disciplined = true
        ∧ (∀ r ∈ s.dev.keep.recs, r.uncertain = true → { r with time := time, uncertain := false } ∈ t.nv.keep.recs)
        ∧ (∀ r ∈ s.dev.keep.recs, r.uncertain = false → r ∈ t.nv.keep.recs) ∧ ∀ e, t.dev.core e = s.dev.core e)
    ∧ (s.dev.disciplined = true → gives .ppsOutSecond s ((s.dev.cleared.emit (.pin 1 true)).emit (.pin 1 false)))

/-- Queue pairs: to RTS under another rkey, to RESET with their commands gone, to the error state from RTS by exhausted retries and by refused requests; an atomic request gets its NAK, a read under the status rkey gives bytes of the status block, a response to a load's reads moves its progress, and an acknowledged write of granules for the host marks the oldest of them that are not acknowledged, after which the granules of a step are gone once all of them are; the congestion step moves the rate, and a resident context's status block is updated by its timer (R332, R417, R470 to R474, R478). -/
def Obligations.QueuePairs : Prop :=
  ∀ (s : State) (n : Nat), clocked s →
    (s.dev.objD 0x2801 1 0 = n → (s.dev.qp n).state ≠ 1 → ∃ t, exec .qpToRts s = .next t ∧ (t.dev.qp n).state = 1
        ∧ ((s.dev.qp n).rkey < 2 ^ 32 → (t.dev.qp n).rkey ≠ (s.dev.qp n).rkey) ∧ (t.dev.qp n).queue = (s.dev.qp n).queue
        ∧ (∀ m, m ≠ n → t.dev.qp m = s.dev.qp m) ∧ ∀ e, t.dev.core e = s.dev.core e)
    ∧ (s.dev.objD 0x2801 1 0 = n → ∃ t, exec .qpToReset s = .next t ∧ (t.dev.qp n).state = 0 ∧ (t.dev.qp n).queue = []
        ∧ (t.dev.qp n).ecnRate = 1024 ∧ (t.dev.qp n).errors = (s.dev.qp n).errors ∧ (t.dev.qp n).params = (s.dev.qp n).params
        ∧ (∀ m, m ≠ n → t.dev.qp m = s.dev.qp m) ∧ ∀ e, t.dev.core e = s.dev.core e)
    ∧ (n < 16640 → ∃ t, exec (.reinitQueuePair n) s = .next t ∧ (t.dev.qp n).state = 0 ∧ (t.dev.qp n).queue = []
        ∧ t.dev.reinit.state = 3 ∧ t.dev.reinit.a = n ∧ ∀ e, t.dev.core e = s.dev.core e)
    ∧ (∃ t, exec .reinitEthernet s = .next t ∧ (∀ p ∈ s.dev.eth.qps, (t.dev.qp p.1).state = 0) ∧ t.dev.objD 0x2800 2 0 = 1
        ∧ t.dev.eth.steerCur = s.dev.eth.steerCur ∧ t.dev.reinit.state = 3 ∧ ∀ e, t.dev.core e = s.dev.core e)
    ∧ ((s.dev.qp n).state = 1 →
        (∃ t, exec (.qpRetryExhausted n) s = .next t ∧ (t.dev.qp n).state = 2 ∧ (t.dev.qp n).errors = (s.dev.qp n).errors + 1)
        ∧ (∃ t, exec (.rdmaWriteRequest n) s = .next t ∧ (t.dev.qp n).state = 2 ∧ (t.dev.qp n).errors = (s.dev.qp n).errors + 1
            ∧ t.dev.t2 = s.dev.t2 ∧ ∀ e, t.dev.core e = s.dev.core e)
        ∧ gives (.atomicRequest n) s (s.dev.cleared.emit (.eth 8 [n, 2] []))
        ∧ (∀ offset bytes, n < 16384 → offset + bytes ≤ 64 → gives (.rdmaReadRequest n (s.dev.qp n).rkey offset bytes) s
            (s.dev.cleared.emit (.eth 7 [n] (((natLe (statusBlock (s.dev.ctx n) (s.dev.qp n) s.dev.uncertain) 64).drop offset).take bytes))))
        ∧ (∀ rkey offset bytes, ¬(n < 16384 ∧ rkey = (s.dev.qp n).rkey ∧ offset + bytes ≤ 64) →
            ∃ t, exec (.rdmaReadRequest n rkey offset bytes) s = .next t ∧ (t.dev.qp n).state = 2)
        ∧ (∀ done, (s.dev.ctx n).load.busy = true → gives (.rdmaReadResponse n done) s (s.dev.cleared.updCtx n fun x =>
            { x with load := { x.load with state := 2, progress := min 255 (done * 256 / max 1 x.load.c) } }))
        ∧ (∀ granules l, (s.dev.ctx n).blockCause ≠ 0 → l = acknowledged granules (s.dev.ctx n).dmaHold →
            (∀ h ∈ l, h.dev = none) → ∃ t, exec (.roceAckReceive n granules) s = .next t
              ∧ (t.dev.ctx n).dmaHold = l.filter (fun h => !h.released || l.any fun g =>
                  g.region = h.region && g.step = h.step && g.released && !g.acked)
              ∧ t.dev.t2 = s.dev.t2 ∧ ∀ e, t.dev.core e = s.dev.core e))
    ∧ (∀ k l, (acknowledged k l).map (fun h => { h with acked := false }) = l.map (fun h => { h with acked := false })
        ∧ (acknowledged k l).countP (fun h => h.acked) = l.countP (fun h => h.acked)
          + min k (l.countP fun h => h.released && h.dev.isNone && !h.acked))
    ∧ (∃ t, exec (.cnpReceive n) s = .next t ∧ (t.dev.qp n).ecnRate = s.dev.ecnEntry (s.dev.qp n).ecnStep
        ∧ (t.dev.qp n).ecnStep = min 15 ((s.dev.qp n).ecnStep + 1) ∧ (t.dev.qp n).state = (s.dev.qp n).state ∧ ∀ m, m ≠ n → t.dev.qp m = s.dev.qp m)
    ∧ (∃ t, exec (.ecnRecoverTimer n) s = .next t ∧ (t.dev.qp n).ecnStep = (s.dev.qp n).ecnStep - 1
        ∧ (t.dev.qp n).ecnRate = s.dev.ecnEntry ((s.dev.qp n).ecnStep - 1) ∧ (t.dev.qp n).state = (s.dev.qp n).state ∧ ∀ m, m ≠ n → t.dev.qp m = s.dev.qp m)
    ∧ ((s.dev.ctx n).state.holds = true → gives (.statusBlockTimer n) s (s.dev.cleared.statusUpdate n))

/-- The command transport. A SEND of 64 bytes to a pair in RTS with room joins its queue, from whose front commands that fail the first checks leave at once; one of another length is a BAD_ARGUMENT of the pair, one without room gets an RNR NAK, and one to a pair that is not in RTS changes nothing of it. The first command of a queue, when it has the opcode, completes with its code and tag and has its opcode's effect: nothing; a host window registered or cleared; a load, a gear load or a checkpoint PENDING; a context READY, its stop, pre-emption or park asked for, its issue stopped; a context FREE; a peer entry written; mirroring set or ended; a load, gear load or re-shard in progress CANCELLED. One refused completes with its refusal and has no such effect (R350, R356, R442, R467, R471, R475 to R479, R606). -/
def Obligations.CommandTransport : Prop :=
  ∀ (s : State) (n : Nat) (w : BctWord) (rest : List BctWord), clocked s →
    (∀ buffer v, (s.dev.qp n).state = 1 → n < 16384 → (s.dev.qp n).queue.length < 64 → ∃ t gone, exec (.bctSendReceive n 64 v buffer) s = .next t
        ∧ (s.dev.qp n).queue ++ [v] = gone ++ (t.dev.qp n).queue ∧ (∀ u ∈ gone, bctCheck n u ≠ none)
        ∧ (∀ u ∈ (t.dev.qp n).queue.head?, bctCheck n u = none) ∧ vGet t.dev.eth.fill 0 0 = buffer
        ∧ (t.dev.qp n).state = 1 ∧ (∀ e, t.dev.core e = s.dev.core e) ∧ ∀ m, (t.dev.ctx m).state = (s.dev.ctx m).state)
    ∧ (∀ buffer v, (s.dev.qp n).state = 1 → n < 16384 → 64 ≤ (s.dev.qp n).queue.length → ∃ t, exec (.bctSendReceive n 64 v buffer) s = .next t
        ∧ t.dev.qp n = s.dev.qp n ∧ Out.eth 8 [n, 3] [] ∈ t.dev.out ++ t.dev.txHeld.map Prod.snd)
    ∧ (∀ len buffer v, (s.dev.qp n).state = 1 → n < 16384 → len ≠ 64 → ∃ t, exec (.bctSendReceive n len v buffer) s = .next t
        ∧ (t.dev.qp n).queue = (s.dev.qp n).queue ∧ (t.dev.qp n).lastCode = cBadArgument)
    ∧ (∀ len buffer v, (s.dev.qp n).state ≠ 1 → ∃ t, exec (.bctSendReceive n len v buffer) s = .next t ∧ t.dev.qp n = s.dev.qp n)
    ∧ ((s.dev.qp n).queue = w :: rest →
        (bctOp w = 0x01 → ∃ t, exec (.bctNop n) s = .next t ∧ bctEnded s t n w rest cOk ∧ t.dev.t2 = s.dev.t2 ∧ t.dev.mesh = s.dev.mesh
          ∧ (∀ e, t.dev.core e = s.dev.core e) ∧ ∀ m, (t.dev.ctx m).state = (s.dev.ctx m).state)
        ∧ (bctOp w = 0x02 → ∀ k, k = bits (bctArgs w) 7 0 →
          (bits (bctArgs w) 191 128 ≠ 0 → bits (bctArgs w) 191 128 % 65536 = 0 → (s.dev.ctx n).windowUsed k = false → ∃ t, exec (.windowSet n) s = .next t
            ∧ bctEnded s t n w rest cOk ∧ nmGet (t.dev.ctx n).windows k
              = some ⟨bits (bctArgs w) 127 64, bits (bctArgs w) 191 128, bits (bctArgs w) 63 32, bit (bctArgs w) 8, bit (bctArgs w) 9⟩
            ∧ (∀ j, j ≠ k → nmGet (t.dev.ctx n).windows j = nmGet (s.dev.ctx n).windows j) ∧ ∀ e, t.dev.core e = s.dev.core e)
          ∧ (bits (bctArgs w) 191 128 % 65536 ≠ 0 → ∃ t, exec (.windowSet n) s = .next t ∧ bctEnded s t n w rest cBadArgument
            ∧ (t.dev.ctx n).windows = (s.dev.ctx n).windows))
        ∧ (bctOp w = 0x03 → ∀ k, k = bits (bctArgs w) 7 0 →
          ((s.dev.ctx n).windowUsed k = false → ∃ t, exec (.windowClear n) s = .next t ∧ bctEnded s t n w rest cOk
            ∧ nmGet (t.dev.ctx n).windows k = none ∧ (∀ j, j ≠ k → nmGet (t.dev.ctx n).windows j = nmGet (s.dev.ctx n).windows j)
            ∧ ∀ e, t.dev.core e = s.dev.core e)
          ∧ ((s.dev.ctx n).windowUsed k = true → ∃ t, exec (.windowClear n) s = .next t ∧ bctEnded s t n w rest cBusy
            ∧ (t.dev.ctx n).windows = (s.dev.ctx n).windows))
        ∧ (bctOp w = 0x04 → ∀ k o b, k = bits (bctArgs w) 7 0 → o = bits (bctArgs w) 127 64 → b = bits (bctArgs w) 191 128 →
          (s.dev.loadCheck n k o b = none → ∃ t, exec (.bctLoad n) s = .next t ∧ bctEnded s t n w rest cOk
            ∧ (t.dev.ctx n).load = ⟨1, 0, cPending, k, o, b, 0⟩ ∧ Out.hostRead k o b ∈ t.dev.out ++ t.dev.txHeld.map Prod.snd ∧ ∀ e, t.dev.core e = s.dev.core e)
          ∧ (∀ code, s.dev.loadCheck n k o b = some code → ∃ t, exec (.bctLoad n) s = .next t ∧ bctEnded s t n w rest code
            ∧ (t.dev.ctx n).load = (s.dev.ctx n).load))
        ∧ (bctOp w = 0x05 →
          ((s.dev.ctx n).state = .loaded → (∀ v ∈ (s.dev.ctx n).image.devices, v = 0xFFFF ∨ ∃ p ∈ (s.dev.ctx n).peerList, p.1 = v) →
            gives (.bctStart n) s ((((s.dev.cleared.toState n .ready).join n).schedule).bctEnds n rest)
            ∧ (s.dev.objD 0x5000 3 0 = 1 → (s.dev.ctx n).cls < 8 → ∃ t, exec (.bctStart n) s = .next t ∧ bctEnded s t n w rest cOk
                ∧ (t.dev.ctx n).state = .ready ∧ vGet t.dev.ready (s.dev.ctx n).cls [] = vGet s.dev.ready (s.dev.ctx n).cls [] ++ [n]
                ∧ t.dev.schedWait = s.dev.schedWait + 1 ∧ ∀ e, t.dev.core e = s.dev.core e))
          ∧ ((s.dev.ctx n).state ≠ .loaded → ∃ t, exec (.bctStart n) s = .next t ∧ bctEnded s t n w rest cStateInvalid
            ∧ (t.dev.ctx n).state = (s.dev.ctx n).state))
        ∧ (bctOp w = 0x06 →
          ((s.dev.ctx n).state = .running ∨ (s.dev.ctx n).state = .blocked → (s.dev.ctx n).noCommit = false → ∃ t, exec (.bctStop n) s = .next t ∧ bctEnded s t n w rest cOk
            ∧ (t.dev.ctx n).stopReq = true ∧ (t.dev.ctx n).state = (s.dev.ctx n).state ∧ ∀ e, t.dev.core e = s.dev.core e)
          ∧ ((s.dev.ctx n).state ≠ .running → (s.dev.ctx n).state ≠ .blocked → ∃ t, exec (.bctStop n) s = .next t
            ∧ bctEnded s t n w rest cStateInvalid ∧ (t.dev.ctx n).stopReq = (s.dev.ctx n).stopReq))
        ∧ (bctOp w = 0x07 →
          (∀ mode park, mode = bits (bctArgs w) 1 0 → (mode = 1 ∧ park = false ∨ mode = 3 ∧ park = true) → (s.dev.ctx n).state = .running →
            gives (.bctPreempt n) s ((s.dev.cleared.askGate n park).bctEnds n rest)
            ∧ (s.dev.coresRun n → ∃ t, exec (.bctPreempt n) s = .next t ∧ bctEnded s t n w rest cOk
                ∧ (t.dev.ctx n).gateReq = some park ∧ (t.dev.ctx n).state = .running ∧ ∀ e, t.dev.core e = s.dev.core e))
          ∧ (bits (bctArgs w) 1 0 = 2 → (s.dev.ctx n).state = .running → (s.dev.ctx n).entering = false →
            (∀ r ∈ (s.dev.ctx n).regions, r.replay = none ∧ r.parked = false) → ∃ t, exec (.bctPreempt n) s = .next t ∧ bctEnded s t n w rest cOk
              ∧ (t.dev.ctx n).midStep = true ∧ (t.dev.ctx n).gateReq = some false
              ∧ (∀ r ∈ (s.dev.ctx n).regions, ∀ c ∈ (s.dev.ctx n).coresIn r.num, (s.dev.arch c).live = true → (t.dev.arch c).stat.run = .scanning)
              ∧ ∀ c, (t.dev.arch c).regs = (s.dev.arch c).regs ∧ (t.dev.core c).mem = (s.dev.core c).mem)
          ∧ (bits (bctArgs w) 1 0 = 0 → ∃ t, exec (.bctPreempt n) s = .next t ∧ bctEnded s t n w rest cBadArgument
              ∧ (t.dev.ctx n).gateReq = (s.dev.ctx n).gateReq))
        ∧ (bctOp w = 0x08 →
          ((s.dev.ctx n).state = .loaded ∨ (s.dev.ctx n).state = .failed → ∃ t, exec (.bctUnload n) s = .next t ∧ bctEnded s t n w rest cOk
            ∧ (t.dev.ctx n).state = .free ∧ (t.dev.ctx n).frames = [] ∧ (t.dev.ctx n).windows = (s.dev.ctx n).windows
            ∧ (∀ f ∈ (s.dev.ctx n).frames ++ (s.dev.ctx n).fixed, ∀ a, f * 65536 ≤ a → a < f * 65536 + 65536 → memGet t.dev.t2.mem a = 0#8)
            ∧ ∀ e, t.dev.core e = s.dev.core e)
          ∧ ((s.dev.ctx n).state ≠ .loaded → (s.dev.ctx n).state ≠ .failed → ∃ t, exec (.bctUnload n) s = .next t
            ∧ bctEnded s t n w rest cStateInvalid ∧ (t.dev.ctx n).state = (s.dev.ctx n).state))
        ∧ (bctOp w = 0x09 → ∀ image rect, image = bits (bctArgs w) 3 0 → rect = bits (bctArgs w) 39 8 →
          ((s.dev.ctx n).opBusy = false → s.dev.gearLoadCheck n image rect = none → ∃ t, exec (.bctGearLoad n) s = .next t ∧ bctEnded s t n w rest cOk
            ∧ (t.dev.ctx n).gearLoad = ⟨2, 0, cPending, rect, image, 0, 0⟩ ∧ ∀ e, t.dev.core e = s.dev.core e)
          ∧ ((s.dev.ctx n).opBusy = true → ∃ t, exec (.bctGearLoad n) s = .next t ∧ bctEnded s t n w rest cBusy
            ∧ (t.dev.ctx n).gearLoad = (s.dev.ctx n).gearLoad))
        ∧ (bctOp w = 0x0A → ∀ k v, k = bits (bctArgs w) 5 0 + 1 →
            v = bits (bctArgs w) 31 16 + 2 ^ 16 * bits (bctArgs w) 45 32 + 2 ^ 31 * bits (bctArgs w) 47 47 →
          ((s.dev.ctx n).state = .loaded → ∃ t, exec (.peerSet n) s = .next t ∧ bctEnded s t n w rest cOk
            ∧ nmGet (t.dev.ctx n).peers k = (if v = 0 then none else some v)
            ∧ (∀ j, j ≠ k → nmGet (t.dev.ctx n).peers j = nmGet (s.dev.ctx n).peers j) ∧ ∀ e, t.dev.core e = s.dev.core e)
          ∧ ((s.dev.ctx n).state ≠ .loaded → ∃ t, exec (.peerSet n) s = .next t ∧ bctEnded s t n w rest cStateInvalid
            ∧ (t.dev.ctx n).peers = (s.dev.ctx n).peers))
        ∧ (bctOp w = 0x0B → ∀ step, step = bits (bctArgs w) 31 0 →
          ((s.dev.ctx n).opBusy = false → s.dev.ckptCheck n step = none →
            gives (.bctCheckpoint n) s ((s.dev.cleared.ckptGo n step).bctEnds n rest)
            ∧ (s.dev.coresRun n → (s.dev.ctx n).gateReq = none → ∃ t, exec (.bctCheckpoint n) s = .next t ∧ bctEnded s t n w rest cOk
                ∧ (t.dev.ctx n).ckpt = ⟨2, 0, cPending, step, 0, 0, 0⟩ ∧ ∀ e, t.dev.core e = s.dev.core e))
          ∧ ((s.dev.ctx n).opBusy = true → ∃ t, exec (.bctCheckpoint n) s = .next t ∧ bctEnded s t n w rest cBusy
            ∧ (t.dev.ctx n).ckpt = (s.dev.ctx n).ckpt))
        ∧ (bctOp w = 0x0C →
          (∀ h, bit (bctArgs w) 8 = true → nmGet (s.dev.ctx n).windows (bits (bctArgs w) 7 0) = some h → h.w = true →
            bits (bctArgs w) 127 64 + 64 ≤ h.length → ∃ t, exec (.mirror n) s = .next t ∧ bctEnded s t n w rest cOk
              ∧ (t.dev.qp n).mirror = some (bits (bctArgs w) 7 0, bits (bctArgs w) 127 64) ∧ ∀ e, t.dev.core e = s.dev.core e)
          ∧ (bit (bctArgs w) 8 = false → ∃ t, exec (.mirror n) s = .next t ∧ bctEnded s t n w rest cOk
              ∧ (t.dev.qp n).mirror = none ∧ ∀ e, t.dev.core e = s.dev.core e)
          ∧ (bit (bctArgs w) 8 = true → nmGet (s.dev.ctx n).windows (bits (bctArgs w) 7 0) = none → ∃ t, exec (.mirror n) s = .next t
              ∧ bctEnded s t n w rest cBadArgument ∧ (t.dev.qp n).mirror = (s.dev.qp n).mirror))
        ∧ (bctOp w = 0x0D →
          ((s.dev.ctx n).load.busy = true → ∃ t, exec (.bctCancel n) s = .next t ∧ bctEnded s t n w rest cOk
            ∧ (t.dev.ctx n).load = { (s.dev.ctx n).load with state := 5, code := cOk } ∧ ∀ e, t.dev.core e = s.dev.core e)
          ∧ ((s.dev.ctx n).load.busy = false → (s.dev.ctx n).gearLoad.busy = true → ∃ t, exec (.bctCancel n) s = .next t
            ∧ bctEnded s t n w rest cOk ∧ (t.dev.ctx n).gearLoad = { (s.dev.ctx n).gearLoad with state := 5, code := cOk }
            ∧ ∀ e, (t.dev.core e).arch = (s.dev.core e).arch ∧ (t.dev.core e).mem = (s.dev.core e).mem)
          ∧ ((s.dev.ctx n).load.busy = false → (s.dev.ctx n).gearLoad.busy = false → (s.dev.ctx n).reshard.busy = true →
            ∃ t, exec (.bctCancel n) s = .next t ∧ bctEnded s t n w rest cOk
              ∧ (t.dev.ctx n).reshard = { (s.dev.ctx n).reshard with state := 5, code := cOk } ∧ ∀ e, t.dev.core e = s.dev.core e)
          ∧ ((s.dev.ctx n).opBusy = false → ∃ t, exec (.bctCancel n) s = .next t ∧ bctEnded s t n w rest cStateInvalid
            ∧ (t.dev.ctx n).load = (s.dev.ctx n).load)))

/-- Steered datagrams: the banks of rules change places when no message awaits its commit; a datagram that matches a rule with room becomes an engine message for the rule's core, its payload in the units that follow; a reply that fits leaves as a datagram, one that does not and one held too long with the port down are discarded and counted; credits that come back to the engine go to the rule whose ring they are for (R262, R480 to R484). -/
def Obligations.SteeredTraffic : Prop :=
  ∀ (s : State), clocked s →
    (s.dev.steerCheck 1 = none → gives (.steerFlip 1) s { s.dev.cleared with
        eth := { s.dev.eth with steerCur := s.dev.eth.steerNext, steerNext := s.dev.eth.steerCur, out := [], seq := [] } })
    ∧ (∀ (g : Datagram) i r m, s.dev.portUp = true → g.fragment = false → g.dst ≠ 0 → g.dst = s.dev.objD 0x2800 (if g.ipv6 then 5 else 4) 0 →
        (s.dev.eth.steerCur.find? fun p => ruleMatches p.2 g) = some (i, r) → g.payload.length ≤ 4048 →
        (s.dev.ctx (bits r 61 48)).state = .running → (s.dev.ctx (bits r 61 48)).entering = false →
        (nmGet s.dev.eth.out i).getD 0 + 3 + ceilDiv g.payload.length 16 ≤ bits r 103 92 →
        s.dev.steerBytes + 16 * (3 + ceilDiv g.payload.length 16) ≤ s.dev.objD 0x2803 4 256 * 2 ^ 20 →
        m = steerMsg r i ((nmGet s.dev.eth.seq i).getD 0) ((s.dev.arch ⟨bits r 71 64, bits r 79 72⟩).msg.ring (bits r 83 80)).inc g →
        ∃ t, exec (.steeredDatagram g) s = .next t
          ∧ t.dev.steerBuf = s.dev.steerBuf ++ [⟨bits r 61 48, bits r 71 64, bits r 79 72, i, m, none⟩]
          ∧ nmGet t.dev.eth.out i = some ((nmGet s.dev.eth.out i).getD 0 + (3 + ceilDiv g.payload.length 16))
          ∧ nmGet t.dev.eth.seq i = some (((nmGet s.dev.eth.seq i).getD 0 + 1) % 2 ^ 16)
          ∧ t.dev.objD 0x2803 5 0 = s.dev.objD 0x2803 5 0 + 1 ∧ m.body.length = m.hdr.length - 1 ∧ ∀ e, t.dev.core e = s.dev.core e)
    ∧ (∀ q r, s.dev.oldestReply q = some r →
        (s.dev.portUp = true → replyFits r.msg = true → gives (.sendqTransmit q) s ((s.dev.cleared.replyGone r).emit
          (.eth 9 [(r.msg.body.getD 0 0#128).toNat, bits (r.msg.body.getD 1 0#128).toNat 15 0, bits (r.msg.body.getD 1 0#128).toNat 31 16,
            bits (r.msg.body.getD 1 0#128).toNat 59 48, bits (r.msg.body.getD 1 0#128).toNat 60 60, s.dev.objD 0x2803 0xB 0]
            (((r.msg.body.drop 2).flatMap qBytes).take (bits (r.msg.body.getD 1 0#128).toNat 47 32)))))
        ∧ (s.dev.portUp = true → replyFits r.msg = false → gives (.sendqTransmit q) s ((s.dev.cleared.replyGone r).bump 0x2803 0xC 1))
        ∧ (s.dev.portUp = false → gives (.sendqHoldTimeout q) s ((s.dev.cleared.replyGone r).bump 0x2803 0xC 1)))
    ∧ (∀ (c : CoreId) srcX srcY srcDev queue inc closed units at_ n, c.x = 0xF0 → (s.dev.core ⟨srcX, srcY⟩).ctx = some n →
        gives (.creditReturn c srcX srcY srcDev queue inc closed units at_) s
          ((s.dev.cleared.creditLands c ⟨srcX, srcY, srcDev⟩ queue inc closed units).engineCredit n ⟨srcX, srcY, srcDev⟩ queue units))
    ∧ (∀ (d : Dev) n src queue units i r, (d.eth.steerCur.filter fun p => bit p.2 16 && bits p.2 61 48 = n && bits p.2 71 64 = src.x
        && bits p.2 79 72 = src.y && bits p.2 83 80 = queue) = [(i, r)] → ∀ o, nmGet d.eth.out i = some o →
        nmGet (d.engineCredit n src queue units).eth.out i = some (o - units)
        ∧ ∀ j, j ≠ i → nmGet (d.engineCredit n src queue units).eth.out j = nmGet d.eth.out j)

/-! ### Resets, power and clocks -/

/-- The pins and supplies act whatever the clocks do: the arrival of PWR_GOOD is noted, its loss stops every clock and makes the next start cold, SYS_RESET_N stops the clocks and its release begins a start with everything at its default but what fuses and store keep, a waiting retirement included, and a thermal trip stops the clocks and asserts its pin; a warm reset begins a start that keeps complete checkpoints only with recover.keep_tier2. The test access port follows the controller of IEEE 1149.1, and its IDCODE and BYPASS registers capture their values (R30, R417, R547 to R549, R558, R570, R587 to R589). A physical row's release from reset is noted; a rail fault or a lost PLL lock is counted and restarts the device, and asks for a power cycle when it persists at the start that it caused; so does a lockstep disagreement and one that repeats; a droop or an overcurrent of VCORE throttles to at least level 8 (R418, R550, R553, R567). -/
def Obligations.ResetsAndSupplies : Prop :=
  (∀ (s : State),
    gives .pwrGoodAssert s { s.dev.cleared with pow := { s.dev.pow with pwrGood := true } }
    ∧ (∃ t, exec .pwrGoodDeassert s = .next t ∧ t.dev.pow = { s.dev.pow with pwrGood := false, stopped := true, tripped := false, pcyc := 0, lost := true }
        ∧ t.nv = ⟨s.dev.keep, s.dev.sec.fuses, s.dev.sec.store⟩ ∧ ∀ e, t.dev.core e = s.dev.core e)
    ∧ (s.dev.pow.pwrGood = true → s.dev.pow.tripped = false →
        gives .sysResetAssert s { s.dev.cleared with pow := { s.dev.pow with inReset := true, stopped := true } }
        ∧ (s.dev.pow.stopped = true → ∀ straps, ∃ t, exec (.sysResetRelease straps true) s = .next t
            ∧ t.dev.pow.stopped = false ∧ t.dev.pow.inReset = false ∧ t.dev.pow.mgmt = 0 ∧ t.dev.pow.cold = s.dev.pow.lost
            ∧ t.dev.dop.i3cStatic = 0x50 + straps % 8 ∧ t.dev.dop.sessions = [] ∧ t.dev.ctxs = [] ∧ (∀ e, t.dev.core e = clearCore)
            ∧ t.dev.t2.mem = [] ∧ t.nv = ⟨s.dev.retiring.elim s.dev.keep s.dev.keep.retire, s.dev.sec.fuses, s.dev.sec.store⟩)
        ∧ (s.dev.pow.stopped = true → ∀ straps, ∃ t, exec (.sysResetRelease straps false) s = .next t
            ∧ t.dev.pow.railBad = true ∧ t.dev.pow.mgmt = 3 ∧ t.dev.pow.pcyc ≠ 0))
    ∧ (s.dev.pow.pwrGood = true → gives .thermalTrip s ({ s.dev.cleared with pow := { s.dev.pow with tripped := true, stopped := true } }.pin 2 true))
    ∧ (clocked s → ∃ t, exec .warmReset s = .next t ∧ t.dev.pow.stopped = false ∧ t.dev.pow.mgmt = 0 ∧ t.dev.pow.cold = false
        ∧ t.dev.ctxs = [] ∧ (∀ e, t.dev.core e = clearCore) ∧ t.dev.t2.mem = []
        ∧ (s.dev.objD 0x6105 3 0 ≠ 1 → t.dev.ckpts = [] ∧ t.dev.buddies = [])
        ∧ (s.dev.objD 0x6105 3 0 = 1 → t.dev.ckpts = s.dev.ckpts.filter (fun k => k.complete) ∧ t.dev.buddies = s.dev.buddies)
        ∧ t.nv = ⟨s.dev.retiring.elim s.dev.keep s.dev.keep.retire, s.dev.sec.fuses, s.dev.sec.store⟩)
    ∧ (∀ tms tdi, ∃ t, exec (.testAccessPortCycle tms tdi true) s = .next t ∧ t.dev.pow.tapState = 0 ∧ t.dev.pow.tapInstr = 0
        ∧ ∀ e, t.dev.core e = s.dev.core e)
    ∧ (∀ tms tdi, s.dev.pow.tapState < 16 → ∃ t, exec (.testAccessPortCycle tms tdi false) s = .next t
        ∧ t.dev.pow.tapState = tapNext s.dev.pow.tapState tms
        ∧ (s.dev.pow.tapState = 3 → s.dev.pow.tapInstr = 0 → t.dev.pow.tapDr = tapId)
        ∧ (s.dev.pow.tapState = 3 → s.dev.pow.tapInstr = 1 → t.dev.pow.tapDr = 0)
        ∧ (s.dev.pow.tapState = 4 → t.dev.out = [.pin 4 (decide (s.dev.pow.tapDr % 2 = 1))])
        ∧ (s.dev.pow.tapState = 15 → t.dev.pow.tapInstr = s.dev.tapSelect s.dev.pow.tapIr)
        ∧ ∀ e, t.dev.core e = s.dev.core e))
  ∧ (∀ (s : State), clocked s →
    (∀ py, py < 32 → s.dev.pow.railBad = false → gives (.cellRowResetRelease py) s
        { s.dev.cleared with pow := { s.dev.pow with rowsOut := s.dev.pow.rowsOut.lor (2 ^ py) } })
    ∧ (∀ i sub, i = .railFault ∧ sub = okey 0x2100 0xA ∨ i = .pllUnlock ∧ sub = okey 0x2103 5 →
        (s.dev.pow.railFault = false → ∃ t, exec i s = .next t ∧ t.dev.pow.railFault = true ∧ t.dev.pow.mgmt = 0 ∧ t.dev.pow.stopped = false
          ∧ nmGet t.dev.objs sub = some ((nmGet s.dev.objs sub).getD 0 + 1) ∧ (∀ e, t.dev.core e = clearCore) ∧ t.dev.ctxs = []
          ∧ t.nv = ⟨s.dev.retiring.elim s.dev.keep s.dev.keep.retire, s.dev.sec.fuses, s.dev.sec.store⟩)
        ∧ (s.dev.pow.railFault = true → s.dev.inService = false → s.dev.pow.pcyc = 0 → ∃ t, exec i s = .next t
          ∧ t.dev.pow.pcyc = 3 ∧ t.dev.pow.mgmt = 3 ∧ t.dev.pow.railBad = true ∧ ∀ e, t.dev.core e = s.dev.core e))
    ∧ (s.dev.pow.lockFail = false → ∃ t, exec .lockstepDisagreement s = .next t ∧ t.dev.pow.lockFail = true ∧ t.dev.pow.mgmt = 0
        ∧ (∀ e, t.dev.core e = clearCore) ∧ t.dev.ctxs = [])
    ∧ (s.dev.pow.lockFail = true → s.dev.pow.pcyc = 0 → ∃ t, exec .lockstepDisagreement s = .next t ∧ t.dev.pow.pcyc = 1 ∧ t.dev.pow.mgmt = 3
        ∧ ∀ e, t.dev.core e = s.dev.core e)
    ∧ (∃ t, exec .vcoreDroop s = .next t ∧ t.dev.pow.limit = max s.dev.pow.limit 8 ∧ t.dev.pow.cap = s.dev.pow.cap ∧ ∀ e, t.dev.core e = s.dev.core e)
    ∧ gives .vcoreOvercurrent s { s.dev.cleared with pow := { s.dev.pow with limit := max s.dev.pow.limit 8 } })

/-- The CORE clock: a lower one is in force at once with its target, a higher one waits for VCORE, rises when the target is met and is undone when it is not; a start's clock rises or stays limited likewise. The power manager raises the throttle level by one in a period above the cap and keeps it just below; a thermal sample keeps its readings and levels, and no sensor's level exceeds 15; the cores of a region that begin a step go on from one place of the device-wide count of CORE cycles, each at its column's offset; the event log's second ends (R551, R552, R563, R564, R568, R569, R600). -/
def Obligations.PowerAndClocks : Prop :=
  ∀ (s : State), clocked s →
    (∀ khz, s.dev.clockCheck khz false = none →
        (khz ≤ s.dev.clock → ∃ t, exec (.coreClockWrite khz false) s = .next t ∧ t.dev.clock = khz ∧ t.dev.objD 0x2100 1 0 = khz
          ∧ t.dev.objD 0x2100 2 0 = targetFor khz ∧ t.dev.pow = s.dev.pow ∧ ∀ e, t.dev.core e = s.dev.core e)
        ∧ (s.dev.clock < khz → ∃ t, exec (.coreClockWrite khz false) s = .next t ∧ t.dev.clock = s.dev.clock ∧ t.dev.answer = cPending
          ∧ t.dev.objD 0x2100 2 0 = targetFor khz ∧ t.dev.pow.awaiting = some (khz, s.dev.clock, s.dev.objD 0x2100 2 700)))
    ∧ (∀ khz clock target, s.dev.pow.awaiting = some (khz, clock, target) →
        (∃ t, exec .vcoreTargetMet s = .next t ∧ t.dev.clock = khz ∧ t.dev.objD 0x2100 1 0 = khz ∧ t.dev.pow.awaiting = none ∧ t.dev.pow.vcoreMet = true)
        ∧ (∃ t, exec .vcoreTargetTimeout s = .next t ∧ t.dev.clock = s.dev.clock ∧ t.dev.objD 0x2100 2 0 = target ∧ t.dev.pow.awaiting = none
          ∧ t.dev.answer = cBusy))
    ∧ (s.dev.pow.awaiting = none → s.dev.pow.mgmt = 2 → s.dev.objD 0x2100 0xB 0 ≠ 1 →
        (∃ t, exec .vcoreTargetMet s = .next t ∧ t.dev.clock = s.dev.askedClock ∧ t.dev.pow.vcoreMet = true)
        ∧ (s.dev.clock ≠ s.dev.askedClock → s.dev.pow.vcoreMet = false →
          ∃ t, exec .vcoreTargetTimeout s = .next t ∧ t.dev.objD 0x2100 0xB 0 = 1 ∧ t.dev.clock = s.dev.clock))
    ∧ (∀ khz, 550 ≤ targetFor khz ∧ targetFor khz ≤ 750)
    ∧ (∀ watts vcore, ∃ t, exec (.powerSample watts vcore) s = .next t ∧ t.dev.objD 0x2100 5 0 = watts ∧ t.dev.objD 0x2100 3 0 = vcore
        ∧ (s.dev.objD 0x2100 4 s.dev.gradePower < watts → s.dev.objD 0x2100 6 0 ≠ 1 →
            t.dev.pow.cap = min 15 (max s.dev.pow.cap s.dev.pow.limit + 1) ∧ t.dev.pow.below = 0 ∧ t.dev.pow.limit = s.dev.pow.limit)
        ∧ (98 * s.dev.objD 0x2100 4 s.dev.gradePower ≤ 100 * watts → watts ≤ s.dev.objD 0x2100 4 s.dev.gradePower →
            t.dev.pow.cap = s.dev.pow.cap ∧ t.dev.pow.below = 0)
        ∧ ∀ e, t.dev.core e = s.dev.core e)
    ∧ (∀ logic stack tier2 hotPkgs, ∃ t, exec (.thermalSample logic stack tier2 hotPkgs) s = .next t
        ∧ t.dev.pow.hot = s.dev.heated logic stack ∧ t.dev.pow.hotPkgs = hotPkgs ∧ t.dev.objD 0x2101 1 0 = i16 (hottest logic)
        ∧ t.dev.pow.warmDies = s.dev.warmAfter stack ∧ t.dev.objD 0x3000 5 0 = b2n !(s.dev.warmAfter stack).isEmpty ∧ ∀ e, t.dev.core e = s.dev.core e)
    ∧ (∀ old t hi lo, old.1 ≤ 15 → (heat old t hi lo).1 ≤ 15)
    ∧ (∀ n num r cs, ((s.dev.ctx n).image.regions.find? fun q => q.region = num) = some r → cs ≠ [] → (∀ c ∈ cs, c.x < 64) →
        s.dev.coreNow ≤ (s.dev.staggered n num cs).coreCount
        ∧ ∀ c ∈ cs, ((s.dev.staggered n num cs).arch c).stat.place = (s.dev.staggered n num cs).coreCount + 16 * (c.x / 2 - r.cx0) / r.cw)
    ∧ gives .eventRateSecond s { s.dev.cleared with log := { s.dev.log with second := [] } }

/-- The boot chain: the boot ROM starts an image that verifies and marks its slot in force, a refused one leaves the boot ROM alone; management firmware measures, reads the defect map, sets the row maps, loads core firmware and policies and applies the stored sets, and reaches memory initialisation; then comes the memory test, and service begins when its findings have been handled (R530, R531, R557, R560, R561). Images: one that passes its checks is staged in the slot that is not in force, marked next and not good; a refused management image is counted and changes no slot; a commit of a version raises its fuses, never above their number; a policy module is loaded or removed while no module schedules, one that faults is unloaded; a signed rotation replaces the owner key (R529, R531 to R535). -/
def Obligations.BootAndImages : Prop :=
  (∀ (s : State), clocked s →
    (s.dev.pow.mgmt = 0 → s.dev.pow.railBad = false → s.dev.sec.fuses.lc ≠ 4 →
        ∀ m, s.dev.sec.store.mgmt.at_ s.dev.sec.store.bootSlot = some m →
          ({ s.dev.sec with store := { s.dev.sec.store with tried := some s.dev.sec.store.bootSlot } }.imageCheck 1 m = none →
            ∃ t, exec .mgmtResetRelease s = .next t ∧ t.dev.pow.mgmt = 1 ∧ t.nv.store.mgmt.inForce = s.dev.sec.store.bootSlot
              ∧ t.nv.store.tried = some s.dev.sec.store.bootSlot ∧ t.nv.fuses = s.dev.sec.fuses ∧ ∀ e, t.dev.core e = s.dev.core e)
          ∧ (∀ code, { s.dev.sec with store := { s.dev.sec.store with tried := some s.dev.sec.store.bootSlot } }.imageCheck 1 m = some code →
            ∃ t, exec .mgmtResetRelease s = .next t ∧ t.dev.pow.mgmt = 3 ∧ t.dev.answer = code ∧ t.nv.store.mgmt = s.dev.sec.store.mgmt))
    ∧ (s.dev.pow.mgmt = 1 → s.dev.sec.fuses.lc < 3 → ∀ mapOk d,
        d = ({ s.dev.cleared with pow := { s.dev.pow with mgmt := 2 } }.measured.mapRead mapOk) → gives (.mgmtFwRun mapOk) s
          ((((({ d with rowMap := d.keep.rowMaps, fencesAt := d.keep.fences }.coreFirmware.loadPolicies).applySets.fullTest).clockTarget.setObj
            0x2800 2 1).setObj 0x2104 2 2).answers cOk))
    ∧ (s.dev.pow.mgmt = 1 → s.dev.sec.fuses.lc < 3 → s.dev.sec.store.saved = [] → s.dev.sec.store.resets = [] →
        ∃ t, exec (.mgmtFwRun true) s = .next t ∧ t.dev.pow.mgmt = 2 ∧ t.dev.rowMap = s.dev.keep.rowMaps ∧ t.dev.fencesAt = s.dev.keep.fences
          ∧ t.dev.objD 0x2104 2 1 = 2 ∧ t.dev.objD 0x2800 2 0 = 1 ∧ t.dev.answer = cOk ∧ t.nv.keep = s.dev.keep
          ∧ ∀ e, t.dev.core e = s.dev.core e)
    ∧ (s.dev.objD 0x2104 2 1 = 2 → gives .memoryInitComplete s (s.dev.cleared.setObj 0x2104 2 3))
    ∧ (s.dev.objD 0x2104 2 1 = 3 → ∃ t, exec (.memoryTestComplete ⟨[], [], [], []⟩) s = .next t ∧ t.dev.inService = true ∧ t.dev.pow.failed = 0
        ∧ t.nv.store.tried = none ∧ t.nv.keep = s.dev.keep ∧ ∀ e, t.dev.core e = s.dev.core e)
    ∧ (∀ f, s.dev.objD 0x2104 2 1 = 3 → ∃ t, exec (.memoryTestComplete f) s = .next t ∧ t.dev.inService = true))
  ∧ (∀ (s : State), clocked s →
    (∀ bs, s.dev.sec.imageCheck 1 (imageOf bs) = none → ∃ t, exec (.fwStage bs) s = .next t
        ∧ t.nv.store = { s.dev.sec.store with mgmt := s.dev.sec.store.mgmt.stage (imageOf bs) } ∧ t.nv.fuses = s.dev.sec.fuses
        ∧ ∀ e, t.dev.core e = s.dev.core e)
    ∧ (∀ bs, s.dev.sec.imageCheck 2 (imageOf bs) = none → ∃ t, exec (.coreFwStage bs) s = .next t
        ∧ t.nv.store = { s.dev.sec.store with core := s.dev.sec.store.core.stage (imageOf bs) } ∧ ∀ e, t.dev.core e = s.dev.core e)
    ∧ (∀ bs code, s.dev.sec.imageCheck 1 (imageOf bs) = some code → ∃ t, exec (.fwStage bs) s = .next t
        ∧ t.dev.answer = code ∧ t.nv.store = s.dev.sec.store ∧ t.dev.objD 0x7000 0xA 0 = s.dev.objD 0x7000 0xA 0 + 1)
    ∧ (∀ (f : FwSlots) m, (f.stage m).at_ (!f.inForce) = some m ∧ (f.stage m).at_ f.inForce = f.at_ f.inForce ∧ (f.stage m).next = !f.inForce
        ∧ (f.stage m).good (!f.inForce) = false ∧ (f.stage m).good f.inForce = f.good f.inForce ∧ (f.stage m).inForce = f.inForce)
    ∧ (∀ kind, 1 ≤ kind → kind ≤ 3 → ∃ t, exec (.svnCommit kind) s = .next t
        ∧ t.nv.fuses.svn kind = max (s.dev.sec.fuses.svn kind) (min (if kind = 3 then 32 else 64) (s.dev.sec.store.commitSvn kind))
        ∧ t.nv.fuses.lc = s.dev.sec.fuses.lc ∧ t.nv.store = s.dev.sec.store ∧ ∀ e, t.dev.core e = s.dev.core e)
    ∧ (∀ slot bs, slot < 8 → bs ≠ [] → s.dev.sec.imageCheck 3 (imageOf bs) = none → s.dev.objD 0x5000 3 0 = 0 → s.dev.schedWait = 0 →
        ∃ t, exec (.policyWrite slot bs) s = .next t ∧ nmGet t.nv.store.policy slot = some (imageOf bs) ∧ slot ∈ t.dev.sec.loaded
          ∧ (∀ k, k ≠ slot → nmGet t.nv.store.policy k = nmGet s.dev.sec.store.policy k) ∧ ∀ e, t.dev.core e = s.dev.core e)
    ∧ (∀ slot, slot < 8 → s.dev.sec.fuses.lc = 2 → s.dev.objD 0x5000 3 0 = 0 → s.dev.schedWait = 0 →
        ∃ t, exec (.policyWrite slot []) s = .next t ∧ nmGet t.nv.store.policy slot = none ∧ slot ∉ t.dev.sec.loaded)
    ∧ (∀ slot, s.dev.sec.loaded.contains slot = true → gives (.policyModuleFault slot) s
        (((s.dev.cleared.updSec fun s => { s with loaded := s.loaded.filter (· != slot) }).eventDev cStateInvalid 15 0 0 0).policyGone true))
    ∧ (∀ bs, bs.length = 7219 → s.dev.sec.fuses.lc = 2 → Config.sigOk s.dev.sec.store.ownerRoot (Config.sha3 (bs.take 2592)) (bs.drop 2592) = true →
        ∃ t, exec (.ownerRotate bs) s = .next t ∧ t.nv.store.ownerRoot = bs.take 2592 ∧ t.nv.fuses = s.dev.sec.fuses
          ∧ t.nv.store.saved = s.dev.sec.store.saved ∧ ∀ e, t.dev.core e = s.dev.core e))

/-! ### Security and the life cycle -/

/-- The life cycle: each transition is made from the state that names it, by a session of its role, with its token; owner secrets are gone when the part leaves OWNED; the test port opens in RETURNED alone, and a nonce belongs to its session (R492, R536 to R543). -/
def Obligations.LifeCycle : Prop :=
  ∀ (s : State) (id : Nat) (w : Session), clocked s → s.dev.pow.mgmt = 2 → s.dev.session? id = some w →
    (∀ e, 3 ≤ w.role → s.dev.sec.fuses.lc = 0 → nmGet s.dev.dop.keys 0 = some e → ∃ t, exec (.lcShip id []) s = .next t
        ∧ t.nv.fuses = { s.dev.sec.fuses with lc := 1 } ∧ t.dev.dop.keys = [(0, e)]
        ∧ (∀ x ∈ t.dev.dop.sessions, x.role ≠ 3 ∧ x.key = 0) ∧ ∀ c, t.dev.core c = s.dev.core c)
    ∧ (∀ key, 2 ≤ w.role → s.dev.sec.fuses.lc = 1 → key.length = 2592 → ∃ t, exec (.lcClaim id key) s = .next t
        ∧ t.nv.fuses = { s.dev.sec.fuses with lc := 2 } ∧ t.nv.store = { s.dev.sec.store with ownerRoot := key } ∧ ∀ c, t.dev.core c = s.dev.core c)
    ∧ (∀ bs, 2 ≤ w.role → s.dev.sec.fuses.lc = 2 → s.dev.sec.tokenCheck 1 3 bs = none → ∃ t, exec (.lcReturn id bs) s = .next t
        ∧ t.nv.fuses.lc = 3 ∧ t.nv.fuses.returns = min 4 (s.dev.sec.fuses.returns + 1) ∧ t.nv.store.ownerRoot = [] ∧ t.nv.store.policy = []
        ∧ t.nv.store.saved = [] ∧ t.nv.store.erased = true ∧ t.dev.t2.mem = [] ∧ t.dev.ckpts = [] ∧ ∀ c, t.dev.core c = clearCore)
    ∧ (∀ bs, 2 ≤ w.role → s.dev.sec.fuses.lc = 2 → s.dev.sec.tokenCheck 2 2 bs = none → ∃ t, exec (.lcScrap id bs) s = .next t
        ∧ t.nv.fuses.lc = 4 ∧ t.nv.fuses.rootSecret = 2 ^ 256 - 1 ∧ t.nv.store.ownerRoot = [] ∧ t.nv.store.erased = true ∧ t.dev.t2.mem = [])
    ∧ (∀ bs, 3 ≤ w.role → s.dev.sec.fuses.lc = 3 → s.dev.sec.tokenCheck 2 1 bs = none → ∃ t, exec (.lcScrap id bs) s = .next t
        ∧ t.nv.fuses.lc = 4 ∧ t.nv.fuses.rootSecret = 2 ^ 256 - 1 ∧ t.dev.dop.sessions = [] ∧ t.dev.pow.mgmt = 3)
    ∧ (3 ≤ w.role → s.dev.sec.fuses.lc = 3 → ∃ t, exec (.tapUnlock id 1) s = .next t ∧ t.dev.pow.tapOpen = true ∧ t.dev.tapServes = true
        ∧ t.nv = ⟨s.dev.keep, s.dev.sec.fuses, s.dev.sec.store⟩)
    ∧ (∀ nonce, nonce.length = 64 → gives (.attestNonce id nonce) s (s.dev.cleared.updSession id fun x => { x with nonce := some nonce }))
    ∧ (∀ i key, w.role < 2 → (i = .lcClaim id key ∨ i = .lcReturn id key ∨ i = .lcScrap id key ∨ i = .lcShip id key) →
        gives i s (s.dev.cleared.reply cRoleInsufficient))

/-! ### The object dictionary -/

/-- The object dictionary: a write to a listed object is in force at once, one of Reset class waits for the next start and joins the saved set, one outside its object's range, of an unknown object or of a counter with another value than 0 is refused; dict.save stores the values that differ from their defaults; the rack configuration's banks change places; a client key is entered or removed, and a changed key closes its sessions (R491, R495, R499, R507, R509, R512, R521). -/
def Obligations.Dictionary : Prop :=
  ∀ (s : State), clocked s →
    (∀ i k v o, s.dev.takes o i k v → o.apply = 1 → listedIndex o.index → gives (.registerWrite i k v) s
        { s.dev.cleared with objs := nmSet s.dev.objs (okey i k) v })
    ∧ (∀ i k v o, s.dev.takes o i k v → o.apply = 5 → o.index ≠ 0x2B00 → s.dev.sec.fuses.lc ≠ 4 → ∃ t, exec (.registerWrite i k v) s = .next t
        ∧ t.dev.answer = cPending ∧ nmGet t.nv.store.resets (okey i k) = some v ∧ nmGet t.nv.store.saved (okey i k) = some v
        ∧ t.dev.objs = s.dev.objs ∧ t.nv.fuses = s.dev.sec.fuses ∧ ∀ e, t.dev.core e = s.dev.core e)
    ∧ (∀ i k v o, findObj i k = some o → o.access = 2 → o.isDomain = false → v < 256 ^ o.len → (o.type = 1 → v ≤ 1) →
        s.dev.valueOk o k v = false → gives (.registerWrite i k v) s
          (s.dev.cleared.reply (if o.index = 0x3103 ∧ k = 2 then cReservedNonzero else cBadArgument)))
    ∧ (∀ i k v, findObj i k = none → gives (.registerWrite i k v) s
        (s.dev.cleared.reply (if 0x8000 ≤ i ∧ i < 0xF000 then cReservedNonzero else cBadArgument)))
    ∧ (∀ (o : ObjDef) k v, o.counter = true → (s.dev.valueOk o k v = true ↔ v = 0))
    ∧ (s.dev.sec.fuses.lc ≠ 4 → ∃ t, exec .dictSave s = .next t
        ∧ t.nv.store.savedTime = s.dev.time ∧ t.nv.store.savedKey = s.dev.sec.configSeed
        ∧ (∀ p ∈ savedObjs, nmGet t.nv.store.saved (okey p.1 p.2)
            = if s.dev.cleared.saveValue p.1 p.2 = (clearDev s.dev.keep s.dev.sec.fuses s.dev.sec.store).saveValue p.1 p.2 then none
              else some (s.dev.cleared.saveValue p.1 p.2))
        ∧ t.nv.store.resets = s.dev.sec.store.resets ∧ t.dev.objs = s.dev.objs ∧ ∀ e, t.dev.core e = s.dev.core e)
    ∧ (∃ t, exec .cfgRackFlip s = .next t ∧ t.dev.objD 0x1001 1 0 = s.dev.objD 0x1001 2 0 ∧ t.dev.objD 0x1001 2 0 = s.dev.objD 0x1001 1 0
        ∧ ∀ e, t.dev.core e = s.dev.core e)
    ∧ (∀ sub (bs : List Byte), 0 < sub → sub ≤ 16 → bs.length = 2600 → (bs.headD 0#8).toNat < 3 → leNat ((bs.take 8).drop 1) = 0 →
        ∃ t, exec (.dopKeysWrite sub bs) s = .next t ∧ nmGet t.dev.dop.keys (sub - 1) = some bs
          ∧ (∀ k, k ≠ sub - 1 → nmGet t.dev.dop.keys k = nmGet s.dev.dop.keys k)
          ∧ t.dev.dop.sessions = (if nmGet s.dev.dop.keys (sub - 1) = some bs then s.dev.dop.sessions
              else s.dev.dop.sessions.filter fun x => x.key != sub - 1)
          ∧ t.dev.objs = s.dev.objs)
    ∧ (∀ sub, 0 < sub → sub ≤ 16 → ∃ t, exec (.dopKeysWrite sub []) s = .next t ∧ nmGet t.dev.dop.keys (sub - 1) = none
        ∧ (nmGet s.dev.dop.keys (sub - 1) ≠ none → ∀ x, x ∈ t.dev.dop.sessions ↔ x ∈ s.dev.dop.sessions ∧ x.key ≠ sub - 1))

/-! ### The Dariz Object Protocol -/

/-- READ, DESCRIBE, WRITE, COMMIT and ABORT of a session: READ answers the value as the object's bytes, DESCRIBE its type, access, role and apply codes and its length, WRITE sets an object at once or stages it, COMMIT applies every staged write, ABORT empties the stage; a request identifier among the kept ones is answered again and not executed (R491, R494, R501, R505 to R508); an anonymous READ serves Observer objects while it is enabled (R513). -/
def Obligations.Operations : Prop :=
  ∀ (s : State) (id : Nat) (w : Session) (r : OpRec), clocked s →
    (∀ o, s.dev.asks id w r → findObj r.index r.sub = some o → o.role ≤ w.role →
        (o.isDomain = false → o.access = 0 ∨ o.access = 2 ∨ o.access = 3 → r.stage = false → ∃ t w', exec (.read (some id) r) s = .next t
          ∧ answered s t id r.reqId cOk 0 (natLe ((s.dev.asSeenBy w).objRead o r.index r.sub) o.len) w' ∧ sameObjs s t)
        ∧ ∃ t w', exec (.describe (some id) r) s = .next t ∧ answered s t id r.reqId cOk 0
            ([BitVec.ofNat 8 o.type, BitVec.ofNat 8 o.access, BitVec.ofNat 8 o.role, BitVec.ofNat 8 o.apply] ++ natLe o.len 4) w' ∧ sameObjs s t)
    ∧ (∀ o (data : List Byte), s.dev.asks id w r → s.dev.takes o r.index r.sub (leNat data) → data.length = o.len → o.role ≤ w.role → o.apply = 1 →
        listedIndex o.index → r.quiesce = false →
        (r.stage = false → ∃ t w', exec (.write (some id) r data) s = .next t ∧ answered s t id r.reqId cOk 0 [] w'
          ∧ nmGet t.dev.objs (okey r.index r.sub) = some (leNat data)
          ∧ ∀ k, k ≠ okey r.index r.sub → nmGet t.dev.objs k = nmGet s.dev.objs k)
        ∧ (r.stage = true → w.stage.length < 64 → ∃ t w', exec (.write (some id) r data) s = .next t ∧ answered s t id r.reqId cOk 0 [] w'
          ∧ (⟨r.index, r.sub, leNat data, [], false, false, r.reqId, false⟩ : Staged) ∈ w'.stage ∧ sameObjs s t))
    ∧ (s.dev.asks id w r → w.stage ≠ [] → (∀ v ∈ w.stage, s.dev.stagedWell w v) → ∃ t w', exec (.commit (some id) r) s = .next t
        ∧ answered s t id r.reqId cOk 0 [] w' ∧ w'.stage = []
        ∧ ∀ k, nmGet t.dev.objs k = match w.stage.reverse.find? fun v => okey v.index v.sub = k with
          | some v => some v.value
          | none => nmGet s.dev.objs k)
    ∧ (s.dev.asks id w r → w.stage = [] → ∃ t w', exec (.commit (some id) r) s = .next t ∧ answered s t id r.reqId cBadArgument 0 [] w')
    ∧ (s.dev.asks id w r → ∃ t w', exec (.abort (some id) r) s = .next t ∧ answered s t id r.reqId cOk 0 [] w' ∧ w'.stage = [] ∧ sameObjs s t)
    ∧ (∀ k data, s.dev.pow.mgmt = 2 → s.dev.session? id = some w → (w.kept.find? fun k => k.reqId = r.reqId) = some k →
        ∃ t, exec (.write (some id) r data) s = .next t ∧ Out.dop id r.reqId k.code k.arg k.data ∈ t.dev.out ++ t.dev.txHeld.map Prod.snd
          ∧ t.dev.answer = k.code ∧ t.dev.objs = s.dev.objs ∧ ∀ e, t.dev.core e = s.dev.core e)
    ∧ (∀ o, s.dev.pow.mgmt = 2 → opReserved r = false → findObj r.index r.sub = some o → o.role = 0 → o.isDomain = false →
        o.access = 0 → r.stage = false → ¬(0x1100 ≤ r.index ∧ r.index < 0x1200) → ¬(0x7000 ≤ r.index ∧ r.index < 0x7100) →
        (s.dev.objD 0x1100 3 0 ≠ 0 → ∃ t, exec (.read none r) s = .next t ∧ Out.dop 0 r.reqId cOk 0
            (natLe ({ s.dev.cleared with objs := withSelects s.dev.objs s.dev.dop.anonSelects }.objRead o r.index r.sub) o.len) ∈ t.dev.out)
        ∧ (s.dev.objD 0x1100 3 0 = 0 → ∃ t, exec (.read none r) s = .next t ∧ Out.dop 0 r.reqId cAuthFailed 0 [] ∈ t.dev.out))

/-- Transfers of DOMAIN values and notifications: SEG_READ gives the requested bytes of a snapshot, SEG_WRITE collects a value and applies it with its last part, DOMAIN_RDMA moves it through a queue pair and its end is answered with the CRC-64 of the bytes moved, an abandoned transfer is discarded; SUBSCRIBE and ACK change a session's ranges and unacknowledged records, which are sent again up to five times in all (R514 to R517). -/
def Obligations.DomainTransfers : Prop :=
  ∀ (s : State) (id : Nat) (w : Session) (r : OpRec), clocked s → s.dev.session? id = some w →
    (∀ o, s.dev.asks id w r → findObj r.index r.sub = some o → o.role ≤ w.role → o.isDomain = true → o.access = 0 ∨ o.access = 2 →
        r.index ≠ 0x7000 → r.index ≠ 0x5103 → r.index ≠ 0x7004 →
        (r.arg = 0 → r.length ≤ 1024 → ∃ t w', exec (.segRead (some id) r) s = .next t
          ∧ answered s t id r.reqId cOk 0 (((s.dev.asSeenBy w).domainRead r.index r.sub).take r.length) w' ∧ sameObjs s t
          ∧ (r.length < ((s.dev.asSeenBy w).domainRead r.index r.sub).length →
              (⟨r.index, r.sub, (s.dev.asSeenBy w).domainRead r.index r.sub⟩ : Snap) ∈ w'.snaps))
        ∧ (∀ n, r.arg ≠ 0 → r.length ≤ 1024 → (w.snaps.find? fun n => n.index = r.index && n.sub = r.sub) = some n →
            ∃ t w', exec (.segRead (some id) r) s = .next t ∧ answered s t id r.reqId cOk 0 ((n.data.drop r.arg).take r.length) w' ∧ sameObjs s t)
        ∧ (∀ data, data.length = 24 → bits (leNat data) 127 96 = 0 → bit r.arg 8 = false → w.rdma = none →
            (s.dev.qp (16384 + bits r.arg 7 0)).state = 1 →
            ((s.dev.asSeenBy w).domainRead r.index r.sub).length ≤ bits (leNat data) 191 128 →
            ∃ t w', exec (.domainRdma (some id) r data) s = .next t ∧ t.dev.session? id = some w'
              ∧ w'.rdma = some (16384 + bits r.arg 7 0, false, r.index, r.sub, r.reqId) ∧ sameObjs s t
              ∧ Out.eth 13 [16384 + bits r.arg 7 0, bits (leNat data) 63 0, bits (leNat data) 95 64]
                  ((s.dev.asSeenBy w).domainRead r.index r.sub) ∈ t.dev.out ++ t.dev.txHeld.map Prod.snd))
    ∧ (∀ o data got, s.dev.asks id w r → findObj r.index r.sub = some o → o.role ≤ w.role → o.takesDomain = true →
        data.length = r.length → r.length ≤ 1024 → r.arg + r.length ≤ o.len → r.arg = got.length →
        (w.seg = none ∧ got = []) ∨ w.seg = some ⟨r.index, r.sub, got⟩ →
        (r.last = false → ∃ t w', exec (.segWrite (some id) r data) s = .next t ∧ answered s t id r.reqId cOk 0 [] w'
          ∧ w'.seg = some ⟨r.index, r.sub, got ++ data⟩ ∧ sameObjs s t)
        ∧ (r.last = true → r.stage = false → r.index = 0x2A01 → (got ++ data).length = 8192 →
            ∃ t w', exec (.segWrite (some id) r data) s = .next t ∧ answered s t id r.reqId cOk 0 [] w' ∧ w'.seg = none
              ∧ t.dev.mesh = { s.dev.mesh with routeNext := tableOf (got ++ data) 4096 2 7 } ∧ sameObjs s t))
    ∧ (∀ n sub req, s.dev.pow.mgmt = 2 →
        (∀ i bs data, w.rdma = some (n, false, i, sub, req) → (w.snaps.find? fun x => x.index = i && x.sub = sub) = some ⟨i, sub, bs⟩ →
          ∃ t w', exec (.domainRdmaComplete id data) s = .next t ∧ answered s t id req cOk 0 (natLe (crc64 bs) 8) w' ∧ w'.rdma = none ∧ sameObjs s t)
        ∧ (∀ data, w.rdma = some (n, true, 0x2A01, sub, req) → data.length = 8192 →
          ∃ t w', exec (.domainRdmaComplete id data) s = .next t ∧ answered s t id req cOk 0 (natLe (crc64 data) 8) w' ∧ w'.rdma = none
            ∧ t.dev.mesh = { s.dev.mesh with routeNext := tableOf data 4096 2 7 } ∧ sameObjs s t))
    ∧ (∃ t w', exec (.segTransferTimeout id none) s = .next t ∧ t.dev.session? id = some w' ∧ w'.seg = none ∧ w'.snaps = w.snaps)
    ∧ (∀ p, ∃ t w', exec (.segTransferTimeout id (some p)) s = .next t ∧ t.dev.session? id = some w' ∧ w'.seg = w.seg
        ∧ ∀ n, n ∈ w'.snaps ↔ n ∈ w.snaps ∧ ¬(n.index = p.1 ∧ n.sub = p.2))
    ∧ (s.dev.asks id w r → r.cancel = false → r.index ≤ r.arg % 65536 → w.subs.length < 16 →
        ∃ t w', exec (.subscribe (some id) r) s = .next t ∧ answered s t id r.reqId cOk 0 [] w' ∧ sameObjs s t
          ∧ ∀ q, q ∈ w'.subs ↔ q ∈ w.subs ∨ q = (r.index, r.arg % 65536))
    ∧ (s.dev.asks id w r → r.cancel = true →
        ∃ t w', exec (.subscribe (some id) r) s = .next t ∧ answered s t id r.reqId cOk 0 [] w' ∧ sameObjs s t
          ∧ ∀ q, q ∈ w'.subs ↔ q ∈ w.subs ∧ q ≠ (r.index, r.arg % 65536))
    ∧ (s.dev.asks id w r → ∃ t w', exec (.ack (some id) r) s = .next t ∧ answered s t id r.reqId cOk 0 [] w' ∧ sameObjs s t
        ∧ w'.notes = w.notes.filter (fun n => n.seq % 2 ^ 32 != r.arg))
    ∧ (∀ n, (w.notes.find? fun m => m.seq = n.seq) = some n →
        (n.sent < 5 → ∃ t w', exec (.notifyResendTimer id n.seq) s = .next t ∧ Out.notify id { n with sent := n.sent + 1 } ∈ t.dev.out ++ t.dev.txHeld.map Prod.snd
          ∧ t.dev.session? id = some w' ∧ w'.notes = w.notes.map (fun m => if m.seq = n.seq then { m with sent := m.sent + 1 } else m))
        ∧ (5 ≤ n.sent → ∃ t w', exec (.notifyResendTimer id n.seq) s = .next t ∧ t.dev.session? id = some w'
          ∧ w'.notes = w.notes.filter (fun m => m.seq != n.seq) ∧ t.dev.objD 0x1100 9 0 = s.dev.objD 0x1100 9 0 + 1))

/-- Sessions and messages: HELLO under a known key begins a session that FINISH opens, a failed one ends it, and sessions close by command and by their timers; a fragment that passes the checks of R507 joins its message, a whole message of a session is accepted and moves the session's window, and fragments that do not come in time are discarded (R503, R504, R509 to R513). -/
def Obligations.Sessions : Prop :=
  ∀ (s : State), clocked s →
    (∀ path body, s.dev.pow.mgmt = 2 → s.dev.helloCheck body = none →
        ∃ t x accept, exec (.hello path body) s = .next t ∧ t.dev.dop.sessions = s.dev.dop.sessions ++ [x]
          ∧ x.id = s.dev.dop.nextId ∧ x.isOpen = false ∧ x.path = path ∧ x.role = (body.getD 33 0#8).toNat ∧ x.key = (body.getD 32 0#8).toNat
          ∧ x.highest = 0 ∧ x.stage = [] ∧ x.subs = [] ∧ Out.eth 12 [path.kind, path.addr] accept ∈ t.dev.out ++ t.dev.txHeld.map Prod.snd)
    ∧ (∀ path body code, s.dev.pow.mgmt = 2 → s.dev.helloCheck body = some code → ∃ t, exec (.hello path body) s = .next t
        ∧ t.dev.dop.sessions = s.dev.dop.sessions ∧ Out.dop 0 0 code 0 [] ∈ t.dev.out ∧ t.dev.answer = code)
    ∧ (∀ id x mac, (s.dev.dop.sessions.find? fun y => y.id = id && !y.isOpen) = some x →
        (mac = natLe (Config.kmac x.keyC2d x.transcript 256 (asciiNat "DOP finish")) 32 →
          ∃ t y, exec (.finish id mac) s = .next t ∧ t.dev.session? id = some y)
        ∧ (mac ≠ natLe (Config.kmac x.keyC2d x.transcript 256 (asciiNat "DOP finish")) 32 →
          ∃ t, exec (.finish id mac) s = .next t ∧ ∀ y, y ∈ t.dev.dop.sessions ↔ y ∈ s.dev.dop.sessions ∧ y.id ≠ id))
    ∧ (∀ id, (∃ t, exec (.finishTimeout id) s = .next t ∧ ∀ y, y ∈ t.dev.dop.sessions ↔ y ∈ s.dev.dop.sessions ∧ ¬(y.id = id ∧ y.isOpen = false))
        ∧ (∃ t, exec (.close id) s = .next t ∧ ∀ y, y ∈ t.dev.dop.sessions ↔ y ∈ s.dev.dop.sessions ∧ y.id ≠ id)
        ∧ ∃ t, exec (.sessionIdleTimeout id) s = .next t ∧ ∀ y, y ∈ t.dev.dop.sessions ↔ y ∈ s.dev.dop.sessions ∧ ¬(y.id = id ∧ y.isOpen = true))
    ∧ (∀ path session seq, ∃ t, exec (.dopReassemblyTimeout path session seq) s = .next t
        ∧ ∀ m, m ∈ t.dev.dop.reasm ↔ m ∈ s.dev.dop.reasm ∧ ¬(m.path = path ∧ m.session = session ∧ m.seq = seq))
    ∧ (∀ (path : DopPath) vlan bs buffer h, s.dev.pow.mgmt = 2 → path.kind = 2 → h = leNat (bs.take 32) →
        (bs.length < 32 → gives (.dopFragment path vlan bs buffer) s (s.dev.cleared.bump 0x1100 8 1))
        ∧ (32 ≤ bs.length → bits h 175 160 = 0xFFFF ∨ bits h 175 160 = s.dev.self → bits h 15 8 = 1 → bits h 31 26 = 0 → bits h 255 208 = 0 →
            bits h 23 16 ∈ [0x03, 0x04, 0x10, 0x11, 0x12] → bit h 24 = false → fragShape h bs.length true = true →
            (s.dev.sessionFails h bs = some false → gives (.dopFragment path vlan bs buffer) s (s.dev.cleared.bump 0x1100 6 1))
            ∧ (s.dev.sessionFails h bs = some true → gives (.dopFragment path vlan bs buffer) s (s.dev.cleared.bump 0x1100 7 1))
            ∧ (s.dev.sessionFails h bs = none →
                (s.dev.dop.reasm.find? fun m => m.path = path && m.session = bits h 63 32 && m.seq = bits h 127 64 && m.kind = bits h 23 16) = none →
                (bits h 143 136 = 0 → ∃ t, exec (.dopFragment path vlan bs buffer) s = .next t
                  ∧ Out.eth 10 [bits h 23 16, bits h 63 32, bits h 127 64] ((bs.drop 32).take (bits h 207 192)) ∈ t.dev.out
                  ∧ t.dev.dop.sessions = s.dev.dop.sessions.map (fun x =>
                      if x.id = bits h 63 32 then x.accept path (bits h 127 64) s.dev.time else x)
                  ∧ t.dev.dop.reasm = s.dev.dop.reasm)
                ∧ (0 < bits h 143 136 → ∃ t, exec (.dopFragment path vlan bs buffer) s = .next t
                  ∧ t.dev.dop.sessions = s.dev.dop.sessions ∧ t.dev.dop.reasm = s.dev.dop.reasm ++ [⟨path, bits h 63 32, bits h 127 64, bits h 143 136,
                      bits h 159 144, bits h 23 16, false, [(bits h 135 128, (bs.drop 32).take (bits h 207 192))]⟩]))))
    ∧ (∀ (x : Session) path seq time, (x.accept path seq time).highest = max x.highest seq
        ∧ (x.highest ≤ seq + 64 → seq ∈ (x.accept path seq time).seen))

/-- The sideband: a read keeps an object's value for the private read that follows, only alert.cause can be written, and an address is assigned (R414, R522, R523). -/
def Obligations.Sideband : Prop :=
  ∀ (s : State), clocked s → s.dev.objD 0x1103 1 1 ≠ 0 → s.dev.pow.mgmt ≠ 0 →
    (∀ i k o, s.dev.pow.mgmt = 2 → s.dev.pow.pcyc = 0 → i3cReads i k = true → findObj i k = some o → gives (.i3cRead i k) s
        { s.dev.cleared with dop := { s.dev.dop with i3cLast := some (cOk, natLe (s.dev.cleared.objRead o i k) o.len) } })
    ∧ (∀ i k, s.dev.pow.mgmt = 2 → s.dev.pow.pcyc = 0 → i3cReads i k = false → ∃ t, exec (.i3cRead i k) s = .next t
        ∧ t.dev.dop.i3cLast = some (cRoleInsufficient, []) ∧ t.dev.answer = cRoleInsufficient)
    ∧ (∀ b, s.dev.pow.mgmt = 2 → s.dev.pow.pcyc = 0 → ∃ t, exec (.i3cWrite 0x6104 1 [b]) s = .next t
        ∧ t.dev.objD 0x6104 1 0 = s.dev.objD 0x6104 1 0 - (s.dev.objD 0x6104 1 0).land (b.toNat % 8) ∧ t.dev.dop.i3cLast = some (cOk, []))
    ∧ (∀ i k data, s.dev.pow.mgmt = 2 → s.dev.pow.pcyc = 0 → ¬(i = 0x6104 ∧ k = 1) → ∃ t, exec (.i3cWrite i k data) s = .next t
        ∧ t.dev.dop.i3cLast = some (cRoleInsufficient, []) ∧ t.dev.keep = s.dev.keep ∧ t.dev.mesh = s.dev.mesh)
    ∧ (∀ code data, s.dev.dop.i3cLast = some (code, data) → gives .i3cPrivateRead s
        ({ s.dev.cleared with dop := { s.dev.dop with i3cLast := none } }.emit (.bytes 3 (natLe code 2 ++ natLe data.length 1 ++ data))))
    ∧ (∀ address, gives (.i3cDynamicAddress address) s { s.dev.cleared with dop := { s.dev.dop with i3cAddr := some (address % 128) } })

/-! ### Reset, what power keeps, and instruction words -/

/-- Right after reset no command waits, TIME is 0, every core is idle with clear registers and memory, no context exists, no dictionary value differs from its default, every link is down, no session is open, and the non-volatile store is that of a part fresh from manufacture (log entries 31 and 35 say which of these values are the model's choice). -/
def Obligations.ResetState : Prop :=
  State.reset.pending = [] ∧ State.reset.dev.time = 0 ∧ clocked State.reset
    ∧ (∀ c, State.reset.dev.core c = clearCore) ∧ (∀ n, (State.reset.dev.ctx n).state = .free)
    ∧ (∀ i k v, State.reset.dev.objD i k v = v) ∧ (∀ n, (State.reset.dev.qp n).state = 0) ∧ State.reset.dev.dop.sessions = []
    ∧ (∀ a, memGet State.reset.dev.t2.mem a = 0#8) ∧ State.reset.dev.mesh.epoch = 0 ∧ State.reset.dev.log.recs = []
    ∧ clearCore.arch.regs.sGet 0 = 0#32 ∧ (∀ i, clearCore.arch.regs.sGet i = 0#32) ∧ clearCore.arch.stat.clean = true
    ∧ Memory.wf clearCore.mem.home = true ∧ Memory.wf clearCore.mem.near = true ∧ Memory.wf State.reset.dev.t2.mem = true

/-- Every step keeps the non-volatile store and the fuses equal to their working copies and takes exactly one command from the queue, and they are equal at reset: nothing that a command writes there is lost with the power (R402, R408, R499, R526). -/
def Obligations.StoreFollows : Prop :=
  State.reset.storeFollows ∧ ∀ s t : State, step s = .next t → t.storeFollows ∧ t.pending = s.pending.tail

/-- Every command that is an instruction word of a core, with each field within its width, is encoded in 64 bits, and its word decodes to it again with every operand, for some core and some lateness of a load (R88 to R130). -/
def Obligations.EncodeDecode : Prop :=
  ∀ (i : Instr) (w : Nat), i.wf → encodeWord i = some w → w < 2 ^ 64 ∧ ∃ c late, decodeWord c late w = some i

/-- Words written out from the encodings of R102, R106, R109 and R129 decode to the instructions they stand for, and words of a reserved major opcode or a reserved AOP function to RESERVED_OPCODE (R91, R107). -/
def Obligations.DecodedWords : Prop :=
  ∀ c : CoreId,
    decodeWord c 0 (0b000010#6 ++ 0b0#1 ++ 0b00000#5 ++ 0b000#3 ++ 0b00101#5 ++ 0b00001#5 ++ 0b01000#5 ++ 0b00010#5 ++ 0#29 : BitVec 64).toNat
        = some (.alu c ⟨false, 0, 0⟩ 5 1 8 2)
    ∧ decodeWord c 7 (0b010000#6 ++ 0b1#1 ++ 0b00011#5 ++ 0b000#3 ++ 0b00110#5 ++ 0b0010#4 ++ 0b01#2 ++ 0b1#1 ++ 0b1#1 ++ 0b0000#4 ++ 0x00000010#32 :
        BitVec 64).toNat = some (.ld c ⟨true, 3, 0⟩ 6 2 1 true true 0x10#32 7)
    ∧ decodeWord c 0 (0b101000#6 ++ 0b0#1 ++ 0b00000#5 ++ 0b000#3 ++ 0b1#1 ++ 0#48 : BitVec 64).toNat = some (.gate c ⟨false, 0, 0⟩ true)
    ∧ decodeWord c 0 (0b111100#6 ++ 0b0#1 ++ 0b00000#5 ++ 0b010#3 ++ 0b0011#4 ++ 0b101#3 ++ 0#42 : BitVec 64).toNat
        = some (.dmaGet c ⟨false, 0, 2⟩ 3 5)
    ∧ decodeWord c 0 (0b111111#6 ++ 0#58 : BitVec 64).toNat = some (.reservedOpcode ⟨c, none⟩)
    ∧ decodeWord c 0 (0b010010#6 ++ 0b0#1 ++ 0b00000#5 ++ 0b000#3 ++ 0b110#3 ++ 0#46 : BitVec 64).toNat
        = some (.reservedOpcode ⟨c, some ⟨false, 0, 0⟩⟩)
end

