-- ==== Sys2Proof/Laws/Maps.lean ====
section
/-! SUPPORT. Laws of maps, vectors and byte stores: read after write, and the canonical form of a store. -/

namespace Sys2Proof.Machine

/-! ### Maps -/

@[simp] theorem nmGet_nmSet_same {α : Type} (m : NMap α) (i : Nat) (a : α) : nmGet (nmSet m i a) i = some a := by
  induction m with
  | nil => simp [nmSet, nmGet]
  | cons p m ih =>
    obtain ⟨k, v⟩ := p
    simp only [nmSet]
    split
    · simp [nmGet]
    · split
      · simp [nmGet]
      · have : k ≠ i := fun h => by simp_all
        simp [nmGet, this, ih]

theorem nmGet_nmSet_other {α : Type} (m : NMap α) (i j : Nat) (a : α) (h : j ≠ i) : nmGet (nmSet m i a) j = nmGet m j := by
  induction m with
  | nil => simp [nmSet, nmGet, Ne.symm h]
  | cons p m ih =>
    obtain ⟨k, v⟩ := p
    simp only [nmSet]
    split
    · simp [nmGet, Ne.symm h]
    · split
      · subst_vars; simp [nmGet, Ne.symm h]
      · simp [nmGet, ih]

theorem nmGet_nmSet {α : Type} (m : NMap α) (i j : Nat) (a : α) : nmGet (nmSet m i a) j = if j = i then some a else nmGet m j := by
  split
  · subst_vars; simp
  · exact nmGet_nmSet_other m i j a ‹_›

theorem nmGet_nmErase {α : Type} (m : NMap α) (i j : Nat) : nmGet (nmErase m i) j = if j = i then none else nmGet m j := by
  induction m with
  | nil => simp [nmErase, nmGet]
  | cons p m ih =>
    obtain ⟨k, v⟩ := p
    simp only [nmErase, List.filter_cons] at *
    by_cases hk : k = i
    · subst hk; simp only [bne_self_eq_false, Bool.false_eq_true, if_false, ih, nmGet]
      by_cases hj : j = k
      · simp [hj]
      · simp [hj, Ne.symm hj]
    · simp only [hk, bne_iff_ne, ne_eq, not_false_eq_true, if_true, nmGet, ih]
      by_cases hj : j = i
      · subst hj; simp [hk]
      · simp [hj]

/-- Keys that rise strictly, as every map is kept. -/
def NMap.rising {α : Type} (m : NMap α) : Prop := (m.map Prod.fst).Pairwise (· < ·)

theorem nmSet_keys {α : Type} (m : NMap α) (i : Nat) (a : α) (k : Nat) :
    k ∈ (nmSet m i a).map Prod.fst ↔ k = i ∨ k ∈ m.map Prod.fst := by
  induction m with
  | nil => simp [nmSet]
  | cons p m ih =>
    obtain ⟨j, v⟩ := p
    simp only [nmSet]
    split
    · simp
    · split
      · subst_vars; simp
      · simp only [List.map_cons, List.mem_cons, ih]; tauto

theorem nmSet_rising {α : Type} (m : NMap α) (i : Nat) (a : α) (h : NMap.rising m) : NMap.rising (nmSet m i a) := by
  induction m with
  | nil => simp [nmSet, NMap.rising]
  | cons p m ih =>
    obtain ⟨j, v⟩ := p
    simp only [NMap.rising, List.map_cons, List.pairwise_cons] at h
    simp only [nmSet]
    split
    · simp only [NMap.rising, List.map_cons, List.pairwise_cons, List.mem_cons]
      refine ⟨?_, h.1, h.2⟩
      rintro k (rfl | hk)
      · assumption
      · exact lt_trans ‹_› (h.1 k hk)
    · split
      · subst_vars; simpa only [NMap.rising, List.map_cons, List.pairwise_cons] using h
      · simp only [NMap.rising, List.map_cons, List.pairwise_cons]
        refine ⟨fun k hk => ?_, ih h.2⟩
        rcases (nmSet_keys m i a k).1 hk with rfl | hk
        · omega
        · exact h.1 k hk

theorem nmErase_rising {α : Type} (m : NMap α) (i : Nat) (h : NMap.rising m) : NMap.rising (nmErase m i) := by
  unfold NMap.rising nmErase at *
  exact h.sublist (List.filter_sublist.map _)

/-! ### Vectors -/

@[simp] theorem vGet_vSet_same {α : Type} {n : Nat} (v : Vector α n) (i : Nat) (a d : α) (h : i < n) : vGet (vSet v i a) i d = a := by
  simp [vGet, vSet, h]

theorem vGet_vSet_other {α : Type} {n : Nat} (v : Vector α n) (i j : Nat) (a d : α) (h : j ≠ i) : vGet (vSet v i a) j d = vGet v j d := by
  simp [vGet, vSet, Ne.symm h]

theorem vGet_vSet {α : Type} {n : Nat} (v : Vector α n) (i j : Nat) (a d : α) :
    vGet (vSet v i a) j d = if j = i ∧ i < n then a else vGet v j d := by
  by_cases hj : j = i
  · subst hj
    by_cases hn : j < n
    · simp [hn]
    · simp [hn, vGet, vSet]
  · simp [hj, vGet_vSet_other]

/-! ### Byte stores -/

theorem memGet_memSet (m : Mem) (a b : Nat) (v : Byte) : memGet (memSet m a v) b = if b = a then v else memGet m b := by
  unfold memGet memSet
  split
  · rw [nmGet_nmErase]; split <;> simp_all
  · rw [nmGet_nmSet]; split <;> simp_all

theorem memGet_memWrite (bs : List Byte) : ∀ (m : Mem) (a b : Nat),
    memGet (memWrite m a bs) b = if a ≤ b ∧ b < a + bs.length then bs.getD (b - a) 0#8 else memGet m b := by
  induction bs with
  | nil =>
    intro m a b
    simp [memWrite]
  | cons v bs ih =>
    intro m a b
    simp only [memWrite, ih, memGet_memSet, List.length_cons]
    by_cases h1 : b = a
    · subst h1; simp
    · by_cases h2 : a + 1 ≤ b ∧ b < a + 1 + bs.length
      · have : b - a = (b - (a + 1)) + 1 := by omega
        have h3 : a ≤ b ∧ b < a + (bs.length + 1) := by omega
        simp [h2, h3, this]
      · have h3 : ¬(a ≤ b ∧ b < a + (bs.length + 1)) := by omega
        rw [if_neg h2, if_neg h3]; simp [h1]

theorem Memory.wf_iff (m : Mem) : Memory.wf m = true ↔ NMap.rising m ∧ ∀ p ∈ m, p.2 ≠ 0#8 := by
  simp [Memory.wf, NMap.rising]

theorem memSet_wf (m : Mem) (a : Nat) (v : Byte) (h : Memory.wf m = true) : Memory.wf (memSet m a v) = true := by
  rw [Memory.wf_iff] at *
  unfold memSet
  split
  · exact ⟨nmErase_rising m a h.1, fun p hp => h.2 p (List.mem_of_mem_filter hp)⟩
  · refine ⟨nmSet_rising m a v h.1, fun p hp => ?_⟩
    have key : ∀ (l : Mem), (∀ q ∈ l, q.2 ≠ 0#8) → p ∈ nmSet l a v → p.2 ≠ 0#8 := by
      intro l
      induction l with
      | nil => intro _ hp; simp [nmSet] at hp; subst hp; assumption
      | cons q l ih =>
        intro hl hp
        obtain ⟨k, w⟩ := q
        simp only [nmSet] at hp
        split at hp
        · rcases List.mem_cons.1 hp with rfl | hp
          · assumption
          · exact hl p hp
        · split at hp
          · rcases List.mem_cons.1 hp with rfl | hp
            · assumption
            · exact hl p (List.mem_cons_of_mem _ hp)
          · rcases List.mem_cons.1 hp with rfl | hp
            · exact hl _ (List.mem_cons_self ..)
            · exact ih (fun q hq => hl q (List.mem_cons_of_mem _ hq)) hp
    exact key m h.2 hp

theorem memWrite_wf (bs : List Byte) : ∀ (m : Mem) (a : Nat), Memory.wf m = true → Memory.wf (memWrite m a bs) = true := by
  induction bs with
  | nil => intro m a h; exact h
  | cons v bs ih => intro m a h; exact ih _ _ (memSet_wf m a v h)

theorem memClear_wf (m : Mem) (a n : Nat) (h : Memory.wf m = true) : Memory.wf (memClear m a n) = true := by
  rw [Memory.wf_iff] at *
  exact ⟨h.1.sublist (List.filter_sublist.map _), fun p hp => h.2 p (List.mem_of_mem_filter hp)⟩

end Sys2Proof.Machine
end

