-- ==== Sys2Proof/Laws/State.lean ====
section
/-! SUPPORT. Laws of the device record: what each shared update writes and what it leaves. -/

namespace Sys2Proof.Machine

/-! ### Cores -/

@[simp] theorem Dev.core_setCore (d : Dev) (c e : CoreId) (k : Core) :
    (d.setCore c k).core e = if ckey e = ckey c then k else d.core e := by
  unfold Dev.core Dev.setCore
  by_cases hk : k = clearCore
  · simp only [hk, if_true, nmGet_nmErase]; split <;> simp
  · simp only [hk, if_false, nmGet_nmSet]; split <;> simp

@[simp] theorem Dev.core_updCore (d : Dev) (c e : CoreId) (f : Core → Core) :
    (d.updCore c f).core e = if ckey e = ckey c then f (d.core c) else d.core e := by simp [Dev.updCore]

@[simp] theorem Dev.core_updArch (d : Dev) (c e : CoreId) (f : Arch → Arch) :
    (d.updArch c f).core e = if ckey e = ckey c then { d.core c with arch := f (d.core c).arch } else d.core e := by
  simp [Dev.updArch]

@[simp] theorem Dev.arch_updArch (d : Dev) (c : CoreId) (f : Arch → Arch) : (d.updArch c f).arch c = f (d.arch c) := by
  simp [Dev.arch]

@[simp] theorem Dev.arch_updCore (d : Dev) (c : CoreId) (f : Core → Core) : (d.updCore c f).arch c = (f (d.core c)).arch := by
  simp [Dev.arch]

@[simp] theorem Dev.arch_updStat (d : Dev) (c : CoreId) (f : CoreStat → CoreStat) :
    (d.updStat c f).arch c = { d.arch c with stat := f (d.arch c).stat } := by simp [Dev.updStat]

@[simp] theorem Dev.core_updStat (d : Dev) (c e : CoreId) (f : CoreStat → CoreStat) :
    (d.updStat c f).core e = if ckey e = ckey c then
      { d.core c with arch := { (d.core c).arch with stat := f (d.core c).arch.stat } } else d.core e := by
  simp [Dev.updStat]

@[simp] theorem Dev.core_bump (d : Dev) (i s n : Nat) (c : CoreId) : (d.bump i s n).core c = d.core c := by
  unfold Dev.bump; split <;> rfl

@[simp] theorem Dev.arch_bump (d : Dev) (i s n : Nat) (c : CoreId) : (d.bump i s n).arch c = d.arch c := by simp [Dev.arch]

@[simp] theorem Dev.core_cleared (d : Dev) (c : CoreId) : d.cleared.core c = d.core c := rfl

@[simp] theorem Dev.arch_cleared (d : Dev) (c : CoreId) : d.cleared.arch c = d.arch c := rfl

/-- Updating a core changes no other field of the device. -/
theorem Dev.updCore_frame (d : Dev) (c : CoreId) (f : Core → Core) : d.updCore c f = { d with cores := (d.updCore c f).cores } := rfl

/-! ### Counters and objects -/

theorem Dev.bump_frame (d : Dev) (i s n : Nat) : d.bump i s n = { d with objs := (d.bump i s n).objs } := by
  unfold Dev.bump; split <;> rfl

theorem Dev.bump_objs (d : Dev) (i s n k : Nat) (h : k ≠ okey i s) : nmGet (d.bump i s n).objs k = nmGet d.objs k := by
  unfold Dev.bump; split
  · rfl
  · exact nmGet_nmSet_other _ _ _ _ h

@[simp] theorem Dev.objD_setObj (d : Dev) (i s v i' s' x : Nat) :
    (d.setObj i s v).objD i' s' x = if okey i' s' = okey i s then v else d.objD i' s' x := by
  unfold Dev.objD Dev.setObj; simp only [nmGet_nmSet]; split <;> simp

/-! ### Contexts -/

@[simp] theorem Dev.ctx_setCtx (d : Dev) (n m : Nat) (x : Ctx) : (d.setCtx n x).ctx m = if m = n then x else d.ctx m := by
  unfold Dev.ctx Dev.setCtx
  by_cases hx : x = clearCtx
  · simp only [hx, if_true, nmGet_nmErase]; split <;> simp
  · simp only [hx, if_false, nmGet_nmSet]; split <;> simp

@[simp] theorem Dev.ctx_updCtx (d : Dev) (n m : Nat) (f : Ctx → Ctx) :
    (d.updCtx n f).ctx m = if m = n then f (d.ctx n) else d.ctx m := by simp [Dev.updCtx]

/-! ### Issue -/

theorem Dev.throttled_frame (d : Dev) (c : CoreId) (k : Nat) :
    (d.throttled c k) = { d with objs := (d.throttled c k).objs }
      ∧ ∀ j, j ≠ okey 0x2100 9 → nmGet (d.throttled c k).objs j = nmGet d.objs j := by
  unfold Dev.throttled; split
  · exact ⟨Dev.bump_frame .., fun j h => Dev.bump_objs _ _ _ _ _ h⟩
  · exact ⟨rfl, fun _ _ => rfl⟩

@[simp] theorem Dev.core_throttled (d : Dev) (c e : CoreId) (k : Nat) : (d.throttled c k).core e = d.core e := by
  unfold Dev.throttled; split <;> simp

@[simp] theorem Dev.arch_throttled (d : Dev) (c e : CoreId) (k : Nat) : (d.throttled c k).arch e = d.arch e := by simp [Dev.arch]

/-- An instruction that a core is to execute, whose own wait ends in w' and whose checks pass there, issues and has its effect. -/
theorem Dev.present_effect (d : Dev) (c : CoreId) (g : Common) (n : Need) (b : Body) (w0 w w' : At)
    (hrun : (d.arch c).stat.run = .running) (hrt : (d.arch c).routerBehind = false) (hin : (d.core c).inCode (d.arch c).stat.gear (d.arch c).stat.pc = true)
    (hres : guardReserved g = false) (hun : n.unguarded = true → g.guardIdx = 0 ∧ g.guardNeg = false)
    (hw0 : (d.arch c).guardWait g = some w0) (hg : (d.arch c).guardTrue g w0.cyc = true)
    (hw : w = w0.waitRegs (d.arch c).regs n.regs) (hwait : b.wait d w = .ok w') (hcheck : b.check d w' = none) :
    d.present c g n b = b.effect ((d.spend c w' 1).updArch c fun a =>
      ({ a with stat := { a.stat with pc := a.stat.pc + 1, lastPc := a.stat.pc } }).prune) w' := by
  subst hw
  have hu : (n.unguarded && !(g.guardIdx = 0 && !g.guardNeg)) = false := by
    cases h : n.unguarded
    · rfl
    · obtain ⟨h1, h2⟩ := hun h; simp [h1, h2]
  unfold Dev.present
  simp only [Dev.arch] at *
  simp only [hrun, hrt, ne_eq, not_true_eq_false, if_false, hin, Bool.not_true, Bool.false_eq_true, hres, hu, hw0, hg, hwait, hcheck]

end Sys2Proof.Machine
end

