-- ==== Sys2Proof/Laws/Issue.lean ====
section
/-! SUPPORT. Laws of issue and of closing a command, in the terms of the statements. -/

namespace Sys2Proof.Machine

/-- A core that issues has its instruction's effect on the issued device. -/
theorem Dev.present_issues {d : Dev} {c : CoreId} {g : Common} {n : Need} {b : Body} {w w' : At}
    (h : d.issues c g n.unguarded n.regs w) (hwait : b.wait d w = .ok w') (hcheck : b.check d w' = none) :
    d.present c g n b = b.effect (d.issued c w') w' := by
  obtain ⟨hrun, hrt, hin, hres, hun, w0, hw0, hg, hw⟩ := h
  exact Dev.present_effect d c g n b w0 w w' hrun hrt hin hres hun hw0 hg hw hwait hcheck

@[simp] theorem Dev.arch_spend (d : Dev) (c : CoreId) (w : At) (n : Nat) :
    (d.spend c w n).arch c = { d.arch c with
      stat := ((d.arch c).stat.spent w n).withhold (d.hold c (w.cyc + n)) } := by
  simp [Dev.spend]

@[simp] theorem Dev.core_spend (d : Dev) (c e : CoreId) (w : At) (n : Nat) :
    (d.spend c w n).core e = if ckey e = ckey c then { d.core c with arch := (d.spend c w n).arch c } else d.core e := by
  by_cases he : ckey e = ckey c
  · simp only [he, if_true, Dev.arch_spend]
    simp only [Dev.spend, Dev.core_throttled, Dev.core_updStat, he, if_true]
    rfl
  · simp only [he, if_false]
    simp only [Dev.spend, Dev.core_throttled, Dev.core_updStat, he, if_false]

/-- What issue leaves of the core: registers, queues' waiting commands, handles, tensor, checker, router and message state. -/
@[simp] theorem Dev.arch_issued (d : Dev) (c : CoreId) (w : At) : (d.issued c w).arch c =
    ({ d.arch c with stat := { ((d.arch c).stat.spent w 1).withhold (d.hold c (w.cyc + 1)) with
        pc := (d.arch c).stat.pc + 1, lastPc := (d.arch c).stat.pc } } : Arch).prune := by
  simp [Dev.issued, CoreStat.spent, CoreStat.withhold]

@[simp] theorem Dev.core_issued (d : Dev) (c e : CoreId) (w : At) :
    (d.issued c w).core e = if ckey e = ckey c then { d.core c with arch := (d.issued c w).arch c } else d.core e := by
  by_cases he : ckey e = ckey c
  · simp only [Dev.issued, Dev.core_updArch, he, if_true, Dev.core_spend, Dev.arch_updArch, Dev.arch_spend]
  · simp only [Dev.issued, Dev.core_updArch, he, if_false, Dev.core_spend]

/-- A command of a clocked device gives what its function makes of the device. -/
theorem onDev_gives {s : State} {f : Dev → Dev} (h : clocked s) : s.onDev f = .next (s.closing (f s.dev.cleared)) := by
  unfold clocked at h
  simp [State.onDev, State.act, Dev.cleared, h]

end Sys2Proof.Machine
end

