-- ==== Sys2Proof/Laws/Closing.lean ====
section
/-! SUPPORT. Laws of closing a command: what statuses, notifications and the store leave of the device. -/

namespace Sys2Proof.Machine

theorem Dev.statusUpdate_frame (d : Dev) (n : Nat) :
    d.statusUpdate n = { d with eth := { d.eth with qps := (d.statusUpdate n).eth.qps }, out := (d.statusUpdate n).out } := by
  unfold Dev.statusUpdate
  dsimp only
  split
  · split <;> rfl
  · rfl

theorem statusUpdates_frame (l : List Nat) (d : Dev) : l.foldl Dev.statusUpdate d =
    { d with eth := { d.eth with qps := (l.foldl Dev.statusUpdate d).eth.qps }, out := (l.foldl Dev.statusUpdate d).out } := by
  induction l generalizing d with
  | nil => rfl
  | cons n l ih => rw [List.foldl_cons, ih (d.statusUpdate n), Dev.statusUpdate_frame d n]

/-- Closing a command leaves the device but for contexts' most recent operations, queue pairs' status counters, sessions' notifications and the outputs. -/
theorem State.closing_dev (s : State) (d : Dev) : ∃ ctxs qps sessions out held, (s.closing d).dev =
    { d with ctxs := ctxs, eth := { d.eth with qps := qps }, dop := { d.dop with sessions := sessions }, out := out, txHeld := held } := by
  unfold State.closing Dev.txPaused Dev.noted Dev.statusNoted
  dsimp only
  rw [statusUpdates_frame]
  exact ⟨_, _, _, _, _, rfl⟩

@[simp] theorem State.closing_nv (s : State) (d : Dev) : (s.closing d).nv = ⟨d.keep, d.sec.fuses, d.sec.store⟩ := by
  unfold State.closing Dev.txPaused Dev.noted Dev.statusNoted
  dsimp only
  rw [statusUpdates_frame]

@[simp] theorem State.closing_pending (s : State) (d : Dev) : (s.closing d).pending = s.pending := rfl

@[simp] theorem State.closing_core (s : State) (d : Dev) (c : CoreId) : (s.closing d).dev.core c = d.core c := by
  obtain ⟨_, _, _, _, _, h⟩ := s.closing_dev d; rw [h]; rfl

@[simp] theorem State.closing_arch (s : State) (d : Dev) (c : CoreId) : (s.closing d).dev.arch c = d.arch c := by simp [Dev.arch]

@[simp] theorem State.closing_objs (s : State) (d : Dev) : (s.closing d).dev.objs = d.objs := by
  obtain ⟨_, _, _, _, _, h⟩ := s.closing_dev d; rw [h]

@[simp] theorem State.closing_objD (s : State) (d : Dev) (i u x : Nat) : (s.closing d).dev.objD i u x = d.objD i u x := by
  simp [Dev.objD]

@[simp] theorem State.closing_mesh (s : State) (d : Dev) : (s.closing d).dev.mesh = d.mesh := by
  obtain ⟨_, _, _, _, _, h⟩ := s.closing_dev d; rw [h]

@[simp] theorem State.closing_t2 (s : State) (d : Dev) : (s.closing d).dev.t2 = d.t2 := by
  obtain ⟨_, _, _, _, _, h⟩ := s.closing_dev d; rw [h]

@[simp] theorem State.closing_pow (s : State) (d : Dev) : (s.closing d).dev.pow = d.pow := by
  obtain ⟨_, _, _, _, _, h⟩ := s.closing_dev d; rw [h]

@[simp] theorem State.closing_keep (s : State) (d : Dev) : (s.closing d).dev.keep = d.keep := by
  obtain ⟨_, _, _, _, _, h⟩ := s.closing_dev d; rw [h]

@[simp] theorem State.closing_sec (s : State) (d : Dev) : (s.closing d).dev.sec = d.sec := by
  obtain ⟨_, _, _, _, _, h⟩ := s.closing_dev d; rw [h]

@[simp] theorem State.closing_answer (s : State) (d : Dev) : (s.closing d).dev.answer = d.answer := by
  obtain ⟨_, _, _, _, _, h⟩ := s.closing_dev d; rw [h]

@[simp] theorem State.closing_log (s : State) (d : Dev) : (s.closing d).dev.log = d.log := by
  obtain ⟨_, _, _, _, _, h⟩ := s.closing_dev d; rw [h]

/-- A lookup in a map whose values are changed key by key. -/
theorem nmGet_mapVals {α : Type} (m : NMap α) (f : Nat × α → Nat × α) (hk : ∀ p, (f p).1 = p.1) (n : Nat) :
    nmGet (m.map f) n = (m.find? fun p => decide (p.1 = n)).map fun p => (f p).2 := by
  induction m with
  | nil => rfl
  | cons p m ih =>
    obtain ⟨k, v⟩ := p
    have h := hk (k, v)
    simp only [List.map_cons, nmGet, List.find?_cons]
    split
    · rename_i heq; rw [h] at heq; simp_all
    · rename_i hne; rw [h] at hne; simp only [hne, decide_false]; exact ih

/-- Closing a command changes of a context only which operation was the most recent (R478). -/
theorem State.closing_ctx (s : State) (d : Dev) (n : Nat) : ∃ k, (s.closing d).dev.ctx n = { d.ctx n with lastOp := k } := by
  have key : (s.closing d).dev.ctxs = (d.statusNoted s.dev).ctxs := rfl
  unfold Dev.ctx
  rw [key]
  unfold Dev.statusNoted
  dsimp only
  rw [statusUpdates_frame]
  dsimp only
  rw [nmGet_mapVals _ _ (by intro p; split <;> rfl)]
  have hf : nmGet d.ctxs n = (d.ctxs.find? fun p => decide (p.1 = n)).map Prod.snd := by
    generalize d.ctxs = m
    induction m with
    | nil => rfl
    | cons p m ih =>
      obtain ⟨k, v⟩ := p
      simp only [nmGet, List.find?_cons]
      split
      · simp_all
      · simp_all
  rw [hf]
  cases d.ctxs.find? fun p => decide (p.1 = n) with
  | none => exact ⟨_, rfl⟩
  | some p =>
    simp only [Option.map_some, Option.getD_some]
    split
    · exact ⟨_, rfl⟩
    · exact ⟨_, rfl⟩

end Sys2Proof.Machine
end

