-- ==== Sys2Proof/Laws/Events.lean ====
section
/-! SUPPORT. Laws of counters, events, answers and stops: what they leave of cores, contexts and memory. -/

namespace Sys2Proof.Machine

/-! ### Counters, outputs, events -/

theorem Dev.record_frame (d : Dev) (code : Code) (unit kind ctx logical physical : Nat) (cell : Bool) (d0 d1 : Nat) :
    ∃ objs log out, d.record code unit kind ctx logical physical cell d0 d1 = { d with objs := objs, log := log, out := out } := by
  unfold Dev.record Dev.bump Dev.emit
  dsimp only
  split
  · exact ⟨_, d.log, d.out, rfl⟩
  · split <;> exact ⟨_, _, _, rfl⟩

theorem Dev.raised_frame (d : Dev) (code : Code) : ∃ objs, d.raised code = { d with objs := objs } :=
  ⟨_, Dev.bump_frame d _ _ _⟩

/-- An event changes only counters, the log and the outputs (R596 to R600). -/
theorem Dev.eventCore_frame (d : Dev) (c : CoreId) (code : Code) (unit kind d0 d1 : Nat) :
    ∃ objs log out, d.eventCore c code unit kind d0 d1 = { d with objs := objs, log := log, out := out } := by
  unfold Dev.eventCore
  obtain ⟨o, h⟩ := d.raised_frame code
  dsimp only
  obtain ⟨o', l, u, h'⟩ := Dev.record_frame (d.raised code) code unit kind ((d.core c).ctx.getD 0xFFFF) (c.x + 256 * c.y)
    ((d.physCore c).1 + 256 * (d.physCore c).2) false d0 d1
  exact ⟨o', l, u, by rw [h', h]⟩

theorem Dev.eventDev_frame (d : Dev) (code : Code) (unit kind d0 d1 : Nat) :
    ∃ objs log out, d.eventDev code unit kind d0 d1 = { d with objs := objs, log := log, out := out } := by
  unfold Dev.eventDev
  obtain ⟨o, h⟩ := d.raised_frame code
  obtain ⟨o', l, u, h'⟩ := Dev.record_frame (d.raised code) code unit kind 0xFFFF 0xFFFF 0xFFFF false d0 d1
  exact ⟨o', l, u, by rw [h', h]⟩

theorem Dev.eventCtx_frame (d : Dev) (n : Nat) (code : Code) (unit kind d0 d1 : Nat) :
    ∃ objs log out, d.eventCtx n code unit kind d0 d1 = { d with objs := objs, log := log, out := out } := by
  unfold Dev.eventCtx
  obtain ⟨o, h⟩ := d.raised_frame code
  obtain ⟨o', l, u, h'⟩ := Dev.record_frame (d.raised code) code unit kind n 0xFFFF 0xFFFF false d0 d1
  exact ⟨o', l, u, by rw [h', h]⟩

/-- An answer changes only a class counter and the answer (R598). -/
theorem Dev.reply_frame (d : Dev) (code : Code) : ∃ objs, d.reply code = { d with objs := objs, answer := code } := by
  unfold Dev.reply
  split
  · exact ⟨_, rfl⟩
  · obtain ⟨o, h⟩ := d.raised_frame code
    exact ⟨o, by rw [h]⟩

@[simp] theorem Dev.core_eventCore (d : Dev) (c e : CoreId) (code : Code) (unit kind d0 d1 : Nat) :
    (d.eventCore c code unit kind d0 d1).core e = d.core e := by
  obtain ⟨_, _, _, h⟩ := d.eventCore_frame c code unit kind d0 d1; rw [h]; rfl

@[simp] theorem Dev.core_eventDev (d : Dev) (e : CoreId) (code : Code) (unit kind d0 d1 : Nat) :
    (d.eventDev code unit kind d0 d1).core e = d.core e := by
  obtain ⟨_, _, _, h⟩ := d.eventDev_frame code unit kind d0 d1; rw [h]; rfl

@[simp] theorem Dev.core_eventCtx (d : Dev) (n : Nat) (e : CoreId) (code : Code) (unit kind d0 d1 : Nat) :
    (d.eventCtx n code unit kind d0 d1).core e = d.core e := by
  obtain ⟨_, _, _, h⟩ := d.eventCtx_frame n code unit kind d0 d1; rw [h]; rfl

@[simp] theorem Dev.core_reply (d : Dev) (e : CoreId) (code : Code) : (d.reply code).core e = d.core e := by
  obtain ⟨_, h⟩ := d.reply_frame code; rw [h]; rfl

@[simp] theorem Dev.core_emit (d : Dev) (o : Out) (e : CoreId) : (d.emit o).core e = d.core e := rfl

@[simp] theorem Dev.ctx_bump (d : Dev) (i s n m : Nat) : (d.bump i s n).ctx m = d.ctx m := by
  unfold Dev.bump; split <;> rfl

@[simp] theorem Dev.ctx_eventCtx (d : Dev) (n m : Nat) (code : Code) (unit kind d0 d1 : Nat) :
    (d.eventCtx n code unit kind d0 d1).ctx m = d.ctx m := by
  obtain ⟨_, _, _, h⟩ := d.eventCtx_frame n code unit kind d0 d1; rw [h]; rfl

@[simp] theorem Dev.ctx_emit (d : Dev) (o : Out) (m : Nat) : (d.emit o).ctx m = d.ctx m := rfl

@[simp] theorem Dev.ctx_cleared (d : Dev) (m : Nat) : d.cleared.ctx m = d.ctx m := rfl

@[simp] theorem Dev.objD_cleared (d : Dev) (i s x : Nat) : d.cleared.objD i s x = d.objD i s x := rfl

/-- The counter a command adds to. -/
theorem Dev.objD_bump (d : Dev) (i s n : Nat) : (d.bump i s n).objD i s 0 = d.objD i s 0 + n := by
  unfold Dev.bump Dev.objD
  split
  · simp_all
  · simp

/-- A counter that a command does not add to. -/
theorem Dev.objD_bump_other (d : Dev) (i s n i' s' x : Nat) (h : okey i' s' ≠ okey i s) :
    (d.bump i s n).objD i' s' x = d.objD i' s' x := by
  unfold Dev.objD; rw [Dev.bump_objs _ _ _ _ _ h]

/-! ### Stops (R74 to R81) -/

/-- What a stop makes of its core before the event. -/
theorem Dev.stop_core (d : Dev) (c e : CoreId) (code : Code) (unit sb pc gear d0 d1 : Nat) (h : (d.arch c).stat.run ≠ .stopped) :
    (d.stop c code unit sb pc gear d0 d1).core e = if ckey e = ckey c then
      ({ d.core c with arch := ({ d.arch c with
        stat := { (d.arch c).stat with
          run := .stopped, clean := false, programError := decide (stopKind code = 1), hardFault := false,
          exc := ⟨code, unit, sb, 0⟩, excWhere := pc + 4096 * gear, excDetail0 := d0, excDetail1 := d1,
          stall := none,
          suspects := if decide (stopKind code = 1) then (d.arch c).stat.suspects
            else ⟨code, 0, pc + 4096 * gear + 2 ^ 16 * unit, d0⟩ :: (d.arch c).stat.suspects }
        units := (d.arch c).units.map CmdUnit.cut } : Arch).recount } : Core).reportStop
    else d.core e := by
  unfold Dev.stop
  dsimp only
  rw [if_neg (by simpa [Dev.arch] using h)]
  by_cases he : ckey e = ckey c <;> simp [he, Dev.arch]

end Sys2Proof.Machine
end

