-- ==== Sys2Proof/Laws/Network.lean ====
section
/-! SUPPORT. Laws of the packet network: it moves packets, and changes no core and no context. -/

namespace Sys2Proof.Machine

@[simp] theorem Dev.cores_bump (d : Dev) (i s n : Nat) : (d.bump i s n).cores = d.cores := by unfold Dev.bump; split <;> rfl

@[simp] theorem Dev.ctxs_bump (d : Dev) (i s n : Nat) : (d.bump i s n).ctxs = d.ctxs := by unfold Dev.bump; split <;> rfl

/-- Sending a frame changes no core and no context. -/
theorem Dev.linkSend_rest (d : Dev) (n : Nat) (f : LinkFrame) :
    (d.linkSend n f).cores = d.cores ∧ (d.linkSend n f).ctxs = d.ctxs := by
  unfold Dev.linkSend; dsimp only; split
  · unfold Dev.sendNow; exact ⟨rfl, rfl⟩
  · exact ⟨rfl, rfl⟩

/-- A station that takes a packet changes no core and no context. -/
theorem Dev.stationTakes_rest (d : Dev) (h : PktHead) : (d.stationTakes h).cores = d.cores ∧ (d.stationTakes h).ctxs = d.ctxs := by
  unfold Dev.stationTakes
  split
  · exact ⟨rfl, rfl⟩
  · dsimp only
    split
    · split
      · exact Dev.linkSend_rest _ _ _
      · simp [Dev.emit]
    · split <;> simp [Dev.emit]

/-- The grants of a router change no core and no context. -/
theorem Dev.routerGrants_rest (c : CoreId) (fuel : Nat) (d : Dev) :
    (Dev.routerGrants c fuel d).cores = d.cores ∧ (Dev.routerGrants c fuel d).ctxs = d.ctxs := by
  induction fuel generalizing d with
  | zero => exact ⟨rfl, rfl⟩
  | succ fuel ih =>
    unfold Dev.routerGrants
    split
    · exact ⟨rfl, rfl⟩
    · rename_i x _
      dsimp only
      split
      · obtain ⟨h1, h2⟩ := ih ((((d.updPktRouter c fun r => r.grant x).emit (.forward c (d.routerAt x.head.epoch c) x.outs x.head)).stationTakes x.head).routersTidy)
        obtain ⟨g1, g2⟩ := ((d.updPktRouter c fun r => r.grant x).emit (.forward c (d.routerAt x.head.epoch c) x.outs x.head)).stationTakes_rest x.head
        exact ⟨h1.trans g1, h2.trans g2⟩
      · exact ih _

/-- The routers change no core and no context. -/
theorem Dev.routersGo_rest (d : Dev) : d.routersGo.cores = d.cores ∧ d.routersGo.ctxs = d.ctxs := by
  unfold Dev.routersGo
  dsimp only
  have step : ∀ (l : List Nat) (e : Dev), (l.foldl (fun d k => Dev.routerGrants (coreOfKey k) 27 d) e).cores = e.cores
      ∧ (l.foldl (fun d k => Dev.routerGrants (coreOfKey k) 27 d) e).ctxs = e.ctxs := by
    intro l
    induction l with
    | nil => exact fun e => ⟨rfl, rfl⟩
    | cons k l ih =>
      intro e
      obtain ⟨h1, h2⟩ := ih (Dev.routerGrants (coreOfKey k) 27 e)
      obtain ⟨g1, g2⟩ := Dev.routerGrants_rest (coreOfKey k) 27 e
      exact ⟨h1.trans g1, h2.trans g2⟩
  exact step _ _

/-- A packet that reaches a router changes no core and no context. -/
theorem Dev.enterRouter_rest (d : Dev) (c : CoreId) (port : Nat) (h : PktHead) (outs : List Nat) :
    (d.enterRouter c port h outs).cores = d.cores ∧ (d.enterRouter c port h outs).ctxs = d.ctxs := by
  unfold Dev.enterRouter
  dsimp only
  split
  · exact Dev.routersGo_rest _
  · exact Dev.routersGo_rest _

/-- Packets put on the network are in flight after those that are, each has gone out, and nothing else changes. -/
theorem Dev.putPackets_spec (d : Dev) (c : CoreId) (ps : List Packet) :
    d.putPackets c ps = { d with mesh := { d.mesh with transit := d.mesh.transit ++ ps }, out := d.out ++ ps.map fun p => Out.packet c p } := by
  have step : ∀ (l : List Packet) (e : Dev), l.foldl (fun d p => d.emit (.packet c p)) e = { e with out := e.out ++ l.map fun p => Out.packet c p } := by
    intro l
    induction l with
    | nil => intro e; simp
    | cons p l ih => intro e; rw [List.foldl_cons, ih]; simp [Dev.emit]
  unfold Dev.putPackets
  rw [step]

/-- A delivery changes no core and no context. -/
theorem Dev.landed_rest (d : Dev) (c : CoreId) (h : PktHead) : (d.landed c h).cores = d.cores ∧ (d.landed c h).ctxs = d.ctxs := by
  unfold Dev.landed
  split
  · exact ⟨rfl, rfl⟩
  · dsimp only
    obtain ⟨g1, g2⟩ := Dev.routersGo_rest _
    refine ⟨g1.trans ?_, g2.trans ?_⟩ <;> repeat' split
    all_goals rfl

@[simp] theorem Dev.core_enterRouter (d : Dev) (c e : CoreId) (port : Nat) (h : PktHead) (outs : List Nat) :
    (d.enterRouter c port h outs).core e = d.core e := by unfold Dev.core; rw [(Dev.enterRouter_rest d c port h outs).1]

@[simp] theorem Dev.core_landed (d : Dev) (c e : CoreId) (h : PktHead) : (d.landed c h).core e = d.core e := by
  unfold Dev.core; rw [(Dev.landed_rest d c h).1]

@[simp] theorem Dev.core_putPackets (d : Dev) (c e : CoreId) (ps : List Packet) : (d.putPackets c ps).core e = d.core e := by
  rw [Dev.putPackets_spec]; rfl

/-- The epoch bit changes: banks change places, and no core, context or packet changes. -/
@[simp] theorem Dev.core_flip (d : Dev) (e : CoreId) : d.flip.core e = d.core e := rfl

end Sys2Proof.Machine
end

