-- ==== Sys2Proof/Laws/Transport.lean ====
section
/-! SUPPORT. Laws of the queue pairs and the command transport. -/

namespace Sys2Proof.Machine

/-- A queue pair without its status block's update count and time, which closing a command moves. -/
def Qp.settled (q : Qp) : Qp := { q with update := 0, updatedAt := 0 }

/-- Two devices differ only in dictionary objects, the event log, the outputs and the queue pairs. -/
def sameButQps (d e : Dev) : Prop := ∃ objs log out qps, e = { d with objs := objs, log := log, out := out, eth := { d.eth with qps := qps } }

/-- A status-block update changes of a queue pair only its update count and time. -/
theorem Dev.statusUpdate_qp (d : Dev) (m n : Nat) : Qp.settled ((d.statusUpdate m).qp n) = Qp.settled (d.qp n) := by
  have h : (d.statusUpdate m).eth.qps = nmSet d.eth.qps m { (d.qp m) with update := ((d.qp m).update + 1) % 2^32, updatedAt := d.time } := by
    unfold Dev.statusUpdate; dsimp only
    split
    · split <;> rfl
    · rfl
  unfold Dev.qp at *
  rw [h, nmGet_nmSet]
  split
  · subst_vars; rfl
  · rfl

theorem statusUpdates_qp (l : List Nat) (d : Dev) (n : Nat) : Qp.settled ((l.foldl Dev.statusUpdate d).qp n) = Qp.settled (d.qp n) := by
  induction l generalizing d with
  | nil => rfl
  | cons m l ih => rw [List.foldl_cons, ih, Dev.statusUpdate_qp]

theorem State.closing_qp (s : State) (d : Dev) (n : Nat) : Qp.settled ((s.closing d).dev.qp n) = Qp.settled (d.qp n) := by
  unfold State.closing Dev.noted Dev.statusNoted
  dsimp only
  show Qp.settled ((List.foldl Dev.statusUpdate _ _).qp n) = _
  rw [statusUpdates_qp]; rfl

theorem sameButQps_refl (d : Dev) : sameButQps d d := ⟨_, _, _, _, rfl⟩
theorem sameButQps_trans {a b c : Dev} (h : sameButQps a b) (g : sameButQps b c) : sameButQps a c := by
  obtain ⟨_, _, _, _, rfl⟩ := h; obtain ⟨_, _, _, _, rfl⟩ := g; exact ⟨_, _, _, _, rfl⟩

theorem Dev.raised_sameButQps (d : Dev) (c : Code) : sameButQps d (d.raised c) := by
  obtain ⟨o, h⟩ := d.raised_frame c; rw [h]; exact ⟨_, _, _, _, rfl⟩
theorem Dev.statusUpdate_sameButQps (d : Dev) (n : Nat) : sameButQps d (d.statusUpdate n) := by
  rw [d.statusUpdate_frame n]; exact ⟨_, _, _, _, rfl⟩
theorem Dev.bctDone_sameButQps (d : Dev) (n c : Nat) : sameButQps d (d.bctDone n c) := by
  unfold Dev.bctDone; dsimp only
  refine sameButQps_trans ?_ (Dev.statusUpdate_sameButQps _ _)
  unfold Dev.updQp; exact ⟨_, _, _, _, rfl⟩

@[simp] theorem Dev.qp_raised (d : Dev) (c : Code) (n : Nat) : (d.raised c).qp n = d.qp n := by
  obtain ⟨o, h⟩ := d.raised_frame c; rw [h]; rfl
theorem Dev.qp_updQp (d : Dev) (n m : Nat) (f : Qp → Qp) : (d.updQp n f).qp m = if m = n then f (d.qp n) else d.qp m := by
  unfold Dev.qp Dev.updQp; simp only [nmGet_nmSet]; split <;> simp_all [Dev.qp]

/-- A completed transport command leaves its queue, is counted, and is the last one with its tag and code. -/
theorem Dev.bctDone_qp (d : Dev) (n c : Nat) : Qp.settled ((d.bctDone n c).qp n) = Qp.settled { d.qp n with
    queue := (d.qp n).queue.drop 1, cmdCount := ((d.qp n).cmdCount + 1) % 2 ^ 32, lastTag := bits ((d.qp n).queue.headD 0) 63 32, lastCode := c } := by
  unfold Dev.bctDone; dsimp only; rw [Dev.statusUpdate_qp, Dev.qp_updQp]; simp

theorem Qp.settled_fields {a b : Qp} (h : a.settled = b.settled) : a.queue = b.queue ∧ a.cmdCount = b.cmdCount ∧ a.lastTag = b.lastTag ∧ a.lastCode = b.lastCode ∧ a.state = b.state ∧ a.mirror = b.mirror := by
  unfold Qp.settled at h; simp only [Qp.mk.injEq] at h; tauto

/-- Everything the pump of a queue pair can do: the commands at the front that fail the first checks complete, the rest wait. -/
theorem Dev.bctPump_spec (n : Nat) : ∀ (l : List BctWord) (d : Dev), (d.qp n).queue = l → (d.qp n).cmdCount < 2^32 →
    sameButQps d (d.bctPump n l) ∧ ∃ gone, l = gone ++ ((d.bctPump n l).qp n).queue ∧ (∀ v ∈ gone, bctCheck n v ≠ none)
      ∧ (∀ v ∈ ((d.bctPump n l).qp n).queue.head?, bctCheck n v = none)
      ∧ ((d.bctPump n l).qp n).cmdCount = ((d.qp n).cmdCount + gone.length) % 2^32 ∧ ((d.bctPump n l).qp n).state = (d.qp n).state
      ∧ ((d.bctPump n l).qp n).mirror = (d.qp n).mirror
      ∧ (gone = [] → d.bctPump n l = d) := by
  intro l
  induction l with
  | nil => intro d hq hc; exact ⟨sameButQps_refl d, [], by simp [Dev.bctPump, hq], by simp, by simp [Dev.bctPump, hq], (by show _ = ((d.qp n).cmdCount + 0) % 2^32; rw [Nat.add_zero, Nat.mod_eq_of_lt hc]; rfl), rfl, rfl, fun _ => rfl⟩
  | cons w rest ih =>
    intro d hq hc
    unfold Dev.bctPump
    cases hk : bctCheck n w with
    | none => dsimp only; exact ⟨sameButQps_refl d, [], by simp [hq], by simp, by simp [hq, hk], (by show _ = ((d.qp n).cmdCount + 0) % 2^32; rw [Nat.add_zero, Nat.mod_eq_of_lt hc]), rfl, rfl, fun _ => rfl⟩
    | some c =>
      dsimp only
      have e := Qp.settled_fields (Dev.bctDone_qp (d.raised c) n c)
      simp only [Dev.qp_raised, hq, List.drop_one, List.tail_cons] at e
      obtain ⟨e1, e2, e3, e4, e5, e6⟩ := e
      obtain ⟨hs, gone, h1, h2, h3, h4, h5, h6, h7⟩ := ih ((d.raised c).bctDone n c) e1 (by rw [e2]; exact Nat.mod_lt _ (by decide))
      refine ⟨sameButQps_trans (sameButQps_trans (Dev.raised_sameButQps d c) (Dev.bctDone_sameButQps _ n c)) hs, w :: gone, by rw [List.cons_append, ← h1], ?_, h3, ?_, by rw [h5, e5], by rw [h6, e6], by simp⟩
      · intro v hv; rcases List.mem_cons.1 hv with rfl | hv
        · simp [hk]
        · exact h2 v hv
      · rw [h4, e2]; simp only [List.length_cons]; omega

/-- Everything the end of the first command of a queue pair can do. -/
theorem Dev.bctEnds_spec (d : Dev) (n : Nat) (w : BctWord) (rest : List BctWord) (hq : (d.qp n).queue = w :: rest) :
    sameButQps d (d.bctEnds n rest) ∧ ∃ gone, rest = gone ++ ((d.bctEnds n rest).qp n).queue ∧ (∀ v ∈ gone, bctCheck n v ≠ none)
      ∧ (∀ v ∈ ((d.bctEnds n rest).qp n).queue.head?, bctCheck n v = none)
      ∧ ((d.bctEnds n rest).qp n).cmdCount = ((d.qp n).cmdCount + 1 + gone.length) % 2^32 ∧ ((d.bctEnds n rest).qp n).state = (d.qp n).state
      ∧ ((d.bctEnds n rest).qp n).mirror = (d.qp n).mirror
      ∧ (gone = [] → ((d.bctEnds n rest).qp n).lastTag = bits w 63 32 ∧ ((d.bctEnds n rest).qp n).lastCode = d.answer) := by
  unfold Dev.bctEnds
  have e := Qp.settled_fields (Dev.bctDone_qp d n d.answer)
  simp only [hq, List.drop_one, List.tail_cons, List.headD_cons] at e
  obtain ⟨e1, e2, e3, e4, e5, e6⟩ := e
  obtain ⟨hs, gone, h1, h2, h3, h4, h5, h6, h7⟩ := Dev.bctPump_spec n rest (d.bctDone n d.answer) e1 (by rw [e2]; exact Nat.mod_lt _ (by decide))
  refine ⟨sameButQps_trans (Dev.bctDone_sameButQps d n _) hs, gone, h1, h2, h3, ?_, by rw [h5, e5], by rw [h6, e6], ?_⟩
  · rw [h4, e2]; omega
  · intro hg; rw [h7 hg]; exact ⟨e3, e4⟩

/-- A command of the transport at the front of its queue gives its effect and then its end. -/
theorem bct_gives {s : State} {n op : Nat} {w : BctWord} {rest : List BctWord} {f : Nat → Dev → Dev} {i : Instr}
    (h : clocked s) (hi : exec i s = s.onDev fun d => d.bct n op f) (hq : (s.dev.qp n).queue = w :: rest) (ho : bctOp w = op) :
    exec i s = .next (s.closing ((f (bctArgs w) s.dev.cleared).bctEnds n rest)) := by
  rw [hi, onDev_gives h]
  unfold Dev.bct
  have : (s.dev.cleared.qp n).queue = w :: rest := hq
  rw [this]; dsimp only
  rw [if_neg (by simpa using ho)]
  rfl

/-- An end of the first command whose effect left the queue pair is one in the sense of the statements. -/
theorem bctEnds_ended {s : State} {d : Dev} {n : Nat} {w : BctWord} {rest : List BctWord}
    (hq : d.qp n = s.dev.qp n) (hw : (s.dev.qp n).queue = w :: rest) :
    bctEnded s (s.closing (d.bctEnds n rest)) n w rest d.answer := by
  obtain ⟨_, gone, h1, h2, h3, h4, h5, h6, h7⟩ := Dev.bctEnds_spec d n w rest (by rw [hq]; exact hw)
  have c := Qp.settled_fields (State.closing_qp s (d.bctEnds n rest) n)
  obtain ⟨c1, c2, c3, c4, c5, c6⟩ := c
  refine ⟨gone, by rw [c1]; exact h1, h2, by rw [c1]; exact h3, by rw [c2, h4, hq], by rw [c5, h5, hq], fun g => by rw [c3, c4]; exact h7 g⟩

/-- The end of a transport command touches no core. -/
theorem bctEnds_core (s : State) (d : Dev) (n : Nat) (w : BctWord) (rest) (hq : (d.qp n).queue = w :: rest) (e : CoreId) :
    (s.closing (d.bctEnds n rest)).dev.core e = d.core e := by
  rw [State.closing_core]
  obtain ⟨⟨_, _, _, _, h⟩, _⟩ := Dev.bctEnds_spec d n w rest hq
  rw [h]; rfl

/-- Updating the status of listed cores changes no other field of the device. -/
theorem Dev.foldl_updStat_frame (f : CoreId → CoreStat → CoreStat) (cs : List CoreId) (d : Dev) :
    cs.foldl (fun d c => d.updStat c (f c)) d = { d with cores := (cs.foldl (fun d c => d.updStat c (f c)) d).cores } := by
  induction cs generalizing d with
  | nil => rfl
  | cons c cs ih => rw [List.foldl_cons, ih]; rfl

/-- Beginning a step staggered places cores in the device-wide count, takes one free value and changes nothing else (R563, R565). -/
theorem Dev.staggered_frame (d : Dev) (n num : Nat) (cs : List CoreId) :
    ∃ cores count free, d.staggered n num cs = { d with cores := cores, coreCount := count, free := free } := by
  unfold Dev.staggered
  split
  · exact ⟨d.cores, d.coreCount, d.free, rfl⟩
  · split
    · exact ⟨d.cores, d.coreCount, d.free, rfl⟩
    · exact ⟨_, _, _, Dev.foldl_updStat_frame _ cs _⟩

end Sys2Proof.Machine
end

