-- ==== Sys2Proof/Tests/Slice0.lean ====
section
/-! SUPPORT. The author's tests: ill-formed terms that WellFormed refuses, instruction words, witnesses that the hypotheses of each statement are met together, and single steps checked against the specification. -/

open Sys2Proof Sys2Proof.Machine

namespace Sys2Proof.Tests

/- One theorem at a time: a thread of its own for each would need more memory than a check has. -/
set_option Elab.async false

/-! ### Small states -/

/-- The core at the origin. -/
def c0 : CoreId := ⟨0, 0⟩

/-- An unguarded instruction that names no scoreboard bit. -/
def g0 : Common := ⟨false, 0, 0⟩

/-- Cycle 0, with no late cycles. -/
def w0 : At := ⟨0, 0, 0, 0, []⟩

/-- A resident gear whose code has 15 instructions from index 0. -/
def gear15 : Slot := { clearSlot with state := 2, header := true, parts := vSet clearSlot.parts 0 [(4, 0xF0#8)] }

/-- A valid handle over n bytes of the home bank, readable and writable. -/
def homeHandle (n : Nat) : Handle := ⟨0, n, 0, true, true, false, true, 0, 0, 0, 0, 0, false⟩

/-- A running core: a1 names handle 1, over 16 bytes of the home bank, a2 the control space, a3 handle 1 at offset 15. -/
def run0 : Core :=
  { clearCore with
    slots := vSet (vSet clearCore.slots 0 gear15) 1 gear15
    arch := { clearArch with
      stat := { clearStat with run := .running }
      regs := { clearRegs with
        a := vSet (vSet (vSet clearRegs.a 1 0x8000000100000000#64) 2 0x8000003F00000000#64) 3 0x800000010000000F#64 }
      handles := [(1, homeHandle 16)] } }

/-- The state at reset but for the core at the origin. -/
def atCore (k : Core) : State := { State.reset with dev := { State.reset.dev with cores := [(0, k)] } }

/-- The state at reset but for what f changes of the device. -/
def onDev' (f : Dev → Dev) : State := { State.reset with dev := f State.reset.dev }

/-- The running core under another architectural state. -/
def atArch (f : Arch → Arch) : State := atCore { run0 with arch := f run0.arch }

/-- A unit's queue with the given entries. -/
def withQueue (unit : Nat) (q : List QEntry) : State :=
  atArch fun a => { a with units := vSet a.units unit { clearUnit with queue := q } }

/-- A command that waits at the head of its queue, and one that has started. -/
def waits (cmd : UnitCmd) : QEntry := ⟨cmd, 0, 0, 0, 0, false, 0, 0, 0, false, 0, 0, 0, none⟩
def runs (cmd : UnitCmd) : QEntry := { waits cmd with started := true }

/-- Registers that are all usable make no instruction wait. -/
theorem waitRegs_nil {r : Regs} {w : At} {regs : List Nat} (h : r.ready = []) : w = w.waitRegs r regs := by
  unfold At.waitRegs
  induction regs with
  | nil => rfl
  | cons i l ih =>
    have : w.waitReg r i = w := by simp [At.waitReg, h, nmGet]
    simp only [List.foldl_cons, this]; exact ih

/-- A core in the running core's state issues whatever registers its instruction names. -/
theorem issues_of {s : State} (u : Bool) (regs : List Nat) (h1 : (s.dev.arch c0).stat.run = .running := by rfl)
    (hr : (s.dev.arch c0).routerBehind = false := by rfl)
    (h2 : (s.dev.core c0).inCode (s.dev.arch c0).stat.gear (s.dev.arch c0).stat.pc = true := by rfl)
    (h3 : (s.dev.arch c0).guardWait g0 = some w0 := by rfl) (h4 : (s.dev.arch c0).guardTrue g0 w0.cyc = true := by rfl)
    (h5 : (s.dev.arch c0).regs.ready = [] := by rfl) : s.dev.issues c0 g0 u regs w0 :=
  ⟨h1, hr, h2, rfl, fun _ => ⟨rfl, rfl⟩, w0, h3, h4, waitRegs_nil h5⟩

/-! ### Witnesses: issue and the scalar unit -/

theorem witness_IdleStepTicks : State.reset.pending = [] ∧ State.reset.dev.fenceWaits = [] ∧ State.reset.dev.retiring = none ∧ clocked State.reset
    ∧ (onDev' fun d => { d with pow := { d.pow with stopped := true } }).dev.pow.stopped = true := ⟨rfl, rfl, rfl, rfl, rfl⟩

theorem witness_EveryCommandAnswers : (onDev' fun d => { d with pow := { d.pow with stopped := true } }).dev.pow.stopped = true
    ∧ unclocked (.nop c0 g0) = false := ⟨rfl, rfl⟩

theorem witness_GuardRules :
    ((atCore run0).dev.arch c0).stat.run = .running ∧ ((atCore run0).dev.arch c0).routerBehind = false
    ∧ ((atCore run0).dev.core c0).inCode ((atCore run0).dev.arch c0).stat.gear ((atCore run0).dev.arch c0).stat.pc = true
    ∧ guardReserved ⟨true, 0, 0⟩ = false ∧ (⟨0, false, []⟩ : Need).unguarded = false
    ∧ ((atCore run0).dev.arch c0).guardWait ⟨true, 0, 0⟩ = some w0 ∧ ((atCore run0).dev.arch c0).guardTrue ⟨true, 0, 0⟩ w0.cyc = false
    ∧ guardReserved ⟨false, 28, 0⟩ = true ∧ guardReserved ⟨true, 8, 0⟩ = true ∧ guardReserved ⟨true, 23, 0⟩ = true
    ∧ guardReserved ⟨false, 1, 0⟩ = false ∧ (⟨0, true, []⟩ : Need).unguarded = true ∧ ¬((⟨false, 1, 0⟩ : Common).guardIdx = 0 ∧ (⟨false, 1, 0⟩ : Common).guardNeg = false)
    ∧ clocked (atCore run0) ∧ (atCore run0).dev.issues c0 g0 false [] w0 := by
  refine ⟨rfl, rfl, rfl, rfl, rfl, rfl, rfl, rfl, rfl, rfl, rfl, rfl, by decide, rfl, issues_of _ _⟩

theorem witness_CoreStops : ((atCore run0).dev.arch c0).stat.run = .running ∧ stopKind cBadArgument = 1 ∧ clocked (atCore run0) := ⟨rfl, rfl, rfl⟩

theorem witness_NopAndPlog : clocked (atCore run0) ∧ (atCore run0).dev.issues c0 g0 false [] w0
    ∧ (0 < 7 ∧ 27 < 28 ∧ 0 < 28 ∧ 4 < 5) ∧ (atCore run0).dev.issues c0 g0 false (pId 7 :: ([27, 0].filter fun i => decide (i < 8)).map pId) w0 :=
  ⟨rfl, issues_of _ _, by decide, issues_of _ _⟩

theorem witness_AluRule : clocked (atCore run0) ∧ (atCore run0).dev.issues c0 g0 false [sId 1, sId 31, sId 0] w0 ∧ 14 < 15 ∧ 15 ≤ 15
    ∧ (atCore run0).dev.issues c0 g0 false [sId 0, sId 31] w0 := ⟨rfl, issues_of _ _, by decide, by decide, issues_of _ _⟩

theorem witness_Comparisons : clocked (atCore run0) ∧ (atCore run0).dev.issues c0 g0 false [sId 1, sId 2, pId 7] w0 ∧ 0 < 7 ∧ 5 < 6
    ∧ (atCore run0).dev.issues c0 g0 false [sId 1, pId 0] w0 ∧ 6 ≤ 6 := ⟨rfl, issues_of _ _, by decide, by decide, issues_of _ _, by decide⟩

theorem witness_Branches : clocked (atCore run0) ∧ (atCore run0).dev.issues c0 g0 false [sId 31] w0
    ∧ ((atCore run0).dev.core c0).inCode ((atCore run0).dev.arch c0).stat.gear 14 = true
    ∧ ((atCore run0).dev.core c0).inCode ((atCore run0).dev.arch c0).stat.gear 15 = false
    ∧ (atCore run0).dev.issues c0 g0 false [sId 1, sId 31] w0 ∧ (((atCore run0).dev.arch c0).regs.sGet 1).toNat = 0
    ∧ ((atCore run0).dev.core c0).inCode ((atCore run0).dev.arch c0).stat.gear 0 = true
    ∧ (((atArch fun a => { a with regs := { a.regs with s := vSet a.regs.s 1 4096#32 } }).dev.arch c0).regs.sGet 1).toNat = 4096 := by
  refine ⟨rfl, issues_of _ _, rfl, rfl, issues_of _ _, rfl, rfl, rfl⟩

theorem witness_AddressRegisters : clocked (atCore run0) ∧ (atCore run0).dev.issues c0 g0 false [sId 1, aId 15] w0
    ∧ (atCore run0).dev.issues c0 g0 false [aId 1, sId 1] w0 ∧ aValid (((atCore run0).dev.arch c0).regs.aGet 1) = true :=
  ⟨rfl, issues_of _ _, issues_of _ _, rfl⟩

theorem witness_Loads : clocked (atCore run0) ∧ 2 < 3 ∧ (atCore run0).dev.issues c0 g0 false [aId 1, sId 5] w0
    ∧ isControl (((atCore run0).dev.arch c0).regs.aGet 1) = false
    ∧ ((atCore run0).dev.arch c0).resolve (((atCore run0).dev.arch c0).regs.aGet 1) false [0, 1, 2, 3] (2 ^ 2) 12 (2 ^ 2)
        = .ok ⟨1, 0, false, 12, 4⟩
    ∧ (atCore run0).dev.localRead c0 12 (2 ^ 2) = some [0#8, 0#8, 0#8, 0#8]
    ∧ isControl (((atCore run0).dev.arch c0).regs.aGet 2) = true ∧ ctlCheck (((atCore run0).dev.arch c0).regs.aGet 2) false 0x9FC (2 ^ 2) = none := by
  refine ⟨rfl, by decide, issues_of _ _, rfl, rfl, rfl, rfl, by decide⟩

theorem witness_Stores : clocked (atCore run0) ∧ 0 < 3 ∧ (atCore run0).dev.issues c0 g0 false [aId 3, sId 5] w0
    ∧ isControl (((atCore run0).dev.arch c0).regs.aGet 3) = false
    ∧ ((atCore run0).dev.arch c0).resolve (((atCore run0).dev.arch c0).regs.aGet 3) true [0, 1, 2, 3] (2 ^ 0) 0 (2 ^ 0)
        = .ok ⟨1, 0, false, 15, 1⟩
    ∧ (∃ d, ((atCore run0).dev.cleared.issued c0 w0).localWrite c0 15 (natLe (((atCore run0).dev.arch c0).regs.sGet 5).toNat (2 ^ 0)) = some d)
    ∧ isControl (((atCore run0).dev.arch c0).regs.aGet 2) = true ∧ ctlCheck (((atCore run0).dev.arch c0).regs.aGet 2) true 0x3CC (2 ^ 2) = none
    ∧ (atCore run0).dev.hasRoom c0 2 w0 w0 ∧ locate c0 15 = .home c0 15 := by
  refine ⟨rfl, by decide, issues_of _ _, rfl, rfl, ⟨_, rfl⟩, rfl, by decide, rfl, rfl⟩

/-- A running core whose ring 3 is enabled and holds one complete message. -/
def ringed : State := atArch fun a => { a with
  msg := { a.msg with rings := vSet a.msg.rings 3 { clearRing with state := 1, recs := [⟨0, 1, false, true, ⟨1, 0, 0⟩, 0, false⟩] } } }

theorem witness_ScalarQueues : clocked (atCore run0) ∧ (atCore run0).dev.issues c0 g0 false [sId 31] w0
    ∧ 4 < 5 ∧ pairFill (vGet ((atCore run0).dev.arch c0).router.pairing 4 []) < 4
    ∧ 3 < 4 ∧ ((atCore run0).dev.arch c0).checker.pendingV = [] ∧ (∀ v ∈ ((atCore run0).dev.arch c0).checker.judged, v.due ≤ w0.cyc)
    ∧ ringed.dev.issues c0 g0 false [sId 31] w0 ∧ (ringed.dev.arch c0).msg.choose 1 0xFFFF = some 3
    ∧ ((atCore run0).dev.arch c0).msg.choose 1 0xFFFF = none
    ∧ (vGet ((atCore run0).dev.arch c0).units 3 clearUnit).queue = []
    ∧ (∀ q, q < 8 → (vGet ((atCore run0).dev.arch c0).dma.queues q clearDmaQ).lastEnd ≤ w0.cyc) := by
  refine ⟨rfl, issues_of _ _, by decide, by decide, by decide, rfl, by decide, issues_of _ _, rfl, rfl, rfl, by decide⟩

theorem witness_GateAndShift : clocked (atCore run0) ∧ (atCore run0).dev.issues c0 g0 true [] w0 ∧ gateWait c0 (atCore run0).dev w0 = .ok w0
    ∧ arithWait (atCore run0).dev c0 w0 = .ok w0 ∧ sendWait (atCore run0).dev c0 w0 = .ok w0 ∧ 1 ≠ ((atCore run0).dev.arch c0).stat.gear ∧ (((atCore run0).dev.core c0).slot 1).state = 2
    ∧ ((atCore run0).dev.arch c0).msg.broom = [] ∧ ((atCore run0).dev.core c0).inCode 1 14 = true
    ∧ nmGet run0.arch.handles 1 = some (homeHandle 16) := by
  refine ⟨rfl, issues_of _ _, rfl, rfl, rfl, by decide, rfl, rfl, rfl, rfl⟩

/-! ### Witnesses: the units of a core -/

/-- The running core with handle 4 over 64 KiB of the home bank in a4, group 0 of the tensor unit open and group 1 closed but used. -/
def tensed : State := atArch fun a => { a with
  regs := { a.regs with a := vSet a.regs.a 4 0x8000000400000000#64 }
  handles := [(1, homeHandle 16), (4, homeHandle 65536)]
  tensor := { a.tensor with
    gview := vSet (vSet a.tensor.gview 0 ⟨true, true, 0, 15, []⟩) 1 ⟨true, false, 16, 15, []⟩
    groups := vSet (vSet a.tensor.groups 0 ⟨true, true, 0, 15, []⟩) 1 ⟨true, false, 16, 15, []⟩ } }

theorem witness_TensorAccepts : clocked tensed ∧ (⟨false, 0, 4⟩ : Common).sb < 5 ∧ tensed.dev.hasRoom c0 0 w0 w0
    ∧ accOpenCheck (tensed.dev.arch c0) 7 255 0 0 0 = none ∧ accOpenCheck (tensed.dev.arch c0) 7 32 0 1 4 = none
    ∧ tensed.dev.issues c0 g0 false [aId 4] w0 ∧ (grpOf (tensed.dev.arch c0).tensor.gview 0).opened = true
    ∧ tmulCheck (tensed.dev.arch c0) ⟨4, 4, 4, 4, 0, false, 1, 0, 15, 0, 0⟩ = none
    ∧ tensed.dev.issues c0 g0 false [aId 4, sId 0, aId 4] w0
    ∧ tmulsCheck (tensed.dev.arch c0) ⟨4, 4, 4, 0, false, false, 0, 0, 255, 0⟩ = none ∧ tensed.dev.issues c0 g0 false [aId 4, aId 4, sId 0] w0
    ∧ drainCheck (tensed.dev.arch c0) ⟨4, 4, 0, 0, 0, false, 0, 0, false, 1, 15, 0⟩ = none := by
  refine ⟨rfl, by decide, rfl, by decide, by decide, issues_of _ _, rfl, by decide, issues_of _ _, by decide, issues_of _ _, by decide⟩

theorem witness_OtherUnitsAccept : clocked tensed ∧ g0.sb < 5 ∧ tensed.dev.hasRoom c0 1 w0 w0 ∧ vopReserved 0x16 = false
    ∧ (0x0B = 0x0B → 6 < 7) ∧ tensed.dev.issues c0 g0 false [sId 31] w0
    ∧ (tensed.dev.arch c0).resolve ((tensed.dev.arch c0).regs.aGet 4) false [0, 1, 2, 3] 64 65280 256 = .ok ⟨4, 0, false, 65280, 256⟩
    ∧ (tensed.dev.arch c0).resolve ((tensed.dev.arch c0).regs.aGet 4) true [0, 1, 2, 3] 64 0 256 = .ok ⟨4, 0, false, 0, 65536⟩
    ∧ tensed.dev.hasRoom c0 2 w0 w0 ∧ sendCheck (tensed.dev.arch c0) ⟨4, 1, 0, 63, false, 256, 2⟩ = none
    ∧ tensed.dev.issues c0 g0 false [sId 1, sId 2, aId 4] w0 ∧ tensed.dev.hasRoom c0 3 w0 w0
    ∧ (tensed.dev.arch c0).resolve ((tensed.dev.arch c0).regs.aGet 4) false [0, 1] 32 0 32 = .ok ⟨4, 0, false, 0, 65536⟩
    ∧ tensed.dev.localRead c0 0 32 = some (List.replicate 32 0#8) := by
  refine ⟨rfl, by decide, rfl, rfl, by decide, issues_of _ _, by decide, by decide, rfl, by decide, issues_of _ _, rfl, by decide, rfl⟩

theorem witness_TensorUnit : clocked (withQueue 0 [waits (.accClose 0)])
    ∧ (vGet ((withQueue 0 [waits (.accClose 0)]).dev.arch c0).units 0 clearUnit).queue = [waits (.accClose 0)]
    ∧ (waits (.accClose 0)).started = false ∧ ((withQueue 0 [waits (.accClose 0)]).dev.arch c0).live = true
    ∧ ((withQueue 0 [waits (.accClose 0)]).dev.arch c0).routerPast (waits (.accClose 0)) = true
    ∧ (withQueue 0 [waits (.accClose 0)]).dev.verifyRoom c0 ((withQueue 0 [waits (.accClose 0)]).dev.cmdBlocks c0 (.accClose 0)) = true
    ∧ (∃ r, ((withQueue 0 [waits (.accClose 0)]).dev.cleared.listBlocks c0 1 0 0 0
        ((withQueue 0 [waits (.accClose 0)]).dev.cmdBlocks c0 (.accClose 0))).tensorRun c0 (waits (.accClose 0)) 0 = some r)
    ∧ (vGet ((withQueue 0 [runs (.accClose 0)]).dev.arch c0).units 0 clearUnit).queue = [runs (.accClose 0)] ∧ (runs (.accClose 0)).started = true := by
  refine ⟨rfl, rfl, rfl, rfl, rfl, rfl, ⟨_, rfl⟩, rfl, rfl⟩

/-- A VOP, a vector load of the first 256 bytes of the home bank and a vector store to the accumulators. -/
def vopCmd : UnitCmd := .vop ⟨1, 2, 3, 4, 5, false, 0⟩ 0#32
def vldCmd : UnitCmd := .vopLd 31 ⟨4, 0, false, 0, 65536⟩
def vstCmd : UnitCmd := .vopSt 0 ⟨4, 2, false, 0x200000, 65536⟩

theorem witness_VectorUnit : clocked (withQueue 1 [waits vopCmd]) ∧ firstWaiting [runs vopCmd, waits vopCmd] = some (1, waits vopCmd)
    ∧ ((withQueue 1 [waits vopCmd]).dev.arch c0).live = true
    ∧ ((withQueue 1 [waits vopCmd]).dev.arch c0).routerPast (waits vopCmd) = true ∧ (∀ p ∈ [waits vopCmd], p.started = true → (waits vopCmd).cmd.needs p.cmd = false)
    ∧ (withQueue 1 [waits vopCmd]).dev.verifyRoom c0 ((withQueue 1 [waits vopCmd]).dev.cmdBlocks c0 vopCmd) = true
    ∧ firstWaiting [waits vldCmd] = some (0, waits vldCmd) ∧ (withQueue 1 [waits vldCmd]).dev.localRead c0 0 256 = some ((List.range 256).map fun i => memGet [] (0 + i))
    ∧ ((withQueue 1 [waits vldCmd]).dev.arch c0).routerPast (waits vldCmd) = true ∧ (∀ p ∈ [waits vldCmd], p.started = true → (waits vldCmd).cmd.needs p.cmd = false)
    ∧ (withQueue 1 [waits vldCmd]).dev.verifyRoom c0 ((withQueue 1 [waits vldCmd]).dev.cmdBlocks c0 vldCmd) = true
    ∧ ((withQueue 1 [waits vstCmd]).dev.arch c0).routerPast (waits vstCmd) = true ∧ (∀ p ∈ [waits vstCmd], p.started = true → (waits vstCmd).cmd.needs p.cmd = false)
    ∧ (withQueue 1 [waits vstCmd]).dev.verifyRoom c0 ((withQueue 1 [waits vstCmd]).dev.cmdBlocks c0 vstCmd) = true
    ∧ (∃ d, ((withQueue 1 [waits vstCmd]).dev.cleared.listBlocks c0 2 0 0 0 ((withQueue 1 [waits vstCmd]).dev.cmdBlocks c0 vstCmd)).localWrite c0 0x200000
        ((((withQueue 1 [waits vstCmd]).dev.arch c0).regs.vRead 0).toList.flatMap fun w => natLe w.toNat 4) = some d)
    ∧ (runs vopCmd).started = true ∧ (runs vldCmd).started = true
    ∧ nmGet ((atArch fun a => { a with regs := { a.regs with vready := [(31, 5)] } }).dev.arch c0).regs.vready 31
        = some ({ runs vldCmd with start := 2, dur := 3 }.start + { runs vldCmd with start := 2, dur := 3 }.dur) := by
  refine ⟨rfl, rfl, rfl, rfl, by decide, rfl, rfl, rfl, rfl, by decide, rfl, rfl, by decide, rfl, ⟨_, rfl⟩, rfl, rfl, rfl⟩

/-- A verdict with an exact check of row 3 and a residue check of lane 9, which pass. -/
def verdict2 : Verdict := ⟨0, true, false, 0, 0, 0, false, 0, [⟨1, false, 3, 0, 61, 5, 5, 0, 0⟩, ⟨3, false, 9, 127, 32, 7, 7, 0, 0⟩]⟩

/-- A core with that verdict outstanding, and block 1 of its home bank to be verified. -/
def judging : State := atArch fun a => { a with checker := { a.checker with pendingV := [verdict2] }, verify := [⟨0, 1, 2, 1, 6, 0⟩] }

theorem witness_CheckerAndStatus :
    clocked judging ∧ (judging.dev.arch c0).checker.pendingV = [verdict2]
    ∧ (∀ k ∈ verdict2.checks.map (fun k => k.upset [] [] [] [] 0), k.passes = true)
    ∧ verdict2.checks.map (fun k => k.upset [(3, 1)] [] [] [] 0) = [⟨1, false, 3, 0, 61, 6, 5, 0, 0⟩] ++ ⟨3, false, 9, 127, 32, 7, 7, 0, 0⟩ :: []
    ∧ (⟨1, false, 3, 0, 61, 6, 5, 0, 0⟩ : Check).passes = false ∧ (judging.dev.arch c0).checker.suspect = none
    ∧ (judging.dev.arch c0).verify = [⟨0, 1, 2, 1, 6, 0⟩]
    ∧ (∀ q ∈ (judging.dev.core (coreOfKey (0 / 2))).mem.badHome, q / 256 ≠ 1)
    ∧ (judging.dev.core (coreOfKey (0 / 2))).mem.agrees false 1 = true
    ∧ (atCore { run0 with mem := { clearCore.mem with chkHome := [(1, 9)] } }).dev.arch c0 = run0.arch
    ∧ ((atCore { run0 with mem := { clearCore.mem with chkHome := [(1, 9)] } }).dev.core c0).mem.agrees false 1 = false
    ∧ run0.arch.stat.run ≠ .stopped ∧ 3 < 4 := by
  refine ⟨rfl, rfl, by decide, by decide, by decide, rfl, rfl, by decide, rfl, rfl, rfl, by decide, by decide⟩

theorem witness_NearStore : clocked (atCore run0)
    ∧ ((onDev' fun d => d.updSlice (d.physKey c0) fun x => { x with due := [24576] }).dev.slice (State.reset.dev.physKey c0)).due = [24576]
    ∧ (atCore run0).dev.keep.spareLeft ((atCore run0).dev.physCore c0).1 ((atCore run0).dev.physCore c0).2 (24576 / 8192) ≠ 0 :=
  ⟨rfl, rfl, by decide⟩

/-- A channel to ring 3 of core (1, 0) with four credits. -/
def chan1 : Chan := { planChan 0 with dstX := 1, queue := 3, allot := 4, sizeCode := 1, credits := 4 }

/-- A gear whose handler 1 is a message handler for every ring. -/
def handled : Slot := { gear15 with parts := vSet gear15.parts 4 [(4, 1#8), (6, 0xFF#8), (7, 0xFF#8)] }

/-- A running core with a channel, a ring and a command at the head of its message unit. -/
def messaging (e : QEntry) : State :=
  atCore { run0 with
    slots := vSet run0.slots 0 handled
    arch := { run0.arch with
      units := vSet run0.arch.units 2 { clearUnit with queue := [e] }
      msg := { run0.arch.msg with
        chans := [chan1]
        rings := vSet run0.arch.msg.rings 3 { clearRing with state := 1, sizeCode := 1, recs := [⟨0, 1, false, true, ⟨1, 0, 0⟩, 0, false⟩], wp := 1 }
        partials := [⟨⟨1, 0, 0⟩, 5, hdrOf 0#128, false, [], some (3, 0), 1⟩] } } }

/-- A SEND of one unit to ring 3 of core (1, 0) with handler 1. -/
def send1 : SendF := ⟨0, 1, 3, 1, false, 1, 2⟩

theorem witness_MessageUnit : clocked (messaging (waits (.send send1 1#32 0#32 0 none)))
    ∧ (messaging (waits (.send send1 1#32 0#32 0 none))).dev.verifyRoom c0
        ((messaging (waits (.send send1 1#32 0#32 0 none))).dev.cmdBlocks c0 (.send send1 1#32 0#32 0 none)) = true
    ∧ sendStartCheck (messaging (waits (.send send1 1#32 0#32 0 none))).dev c0 send1 1#32 0#32 0 = .sends chan1
    ∧ (messaging (waits (.send send1 1#32 0#32 0 none))).dev.cleared.sendBody c0 (waits (.send send1 1#32 0#32 0 none)) send1 none
        = some ((messaging (waits (.send send1 1#32 0#32 0 none))).dev.cleared, [])
    ∧ ((messaging (waits (.recvAck 3 0))).dev.arch c0).live = true
    ∧ (∃ l, (((messaging (waits (.recvAck 3 0))).dev.arch c0).msg.ring 3).passes (.recvAck 3 0) = some l)
    ∧ (∃ l, (((messaging (waits (.rpStore 3 1))).dev.arch c0).msg.ring 3).passes (.rpStore 3 1) = some l)
    ∧ (runs (.recvAck 3 0)).started = true ∧ (runs (.recvAck 3 0)).creditWait = false := by
  refine ⟨rfl, rfl, rfl, rfl, rfl, ⟨_, rfl⟩, ⟨_, rfl⟩, rfl, rfl⟩

/-- R157 computed by hand for key 0x0123_4567_89AB_CDEF, context 5, step 0, core (1, 1), drain 1, row 1, column 0. -/
theorem test_rounding_draw : roundingDraw 0x0123456789ABCDEF 5 0 1 1 1 1 0 = 0x671E381A := by decide

/-- A TMUL of FP16 that fed row 7, of whose results one is a NaN: its row and its column are not checked, the other 15 columns are (R361). -/
def specialRow : Fed := ⟨4, 4, false, fun _ _ => 0, fun _ _ => 0, fun _ _ => 0,
  [⟨7, [], List.replicate 16 (XA.mk0 0 0 1), ⟨0, 0, 1, false, true, false, true⟩ :: List.replicate 15 (XA.mk0 0 0 1)⟩]⟩

/-- Residues modulo 2 to the 61 minus 1, by hand (R360). -/
theorem test_rho : rho (1, 61) = 1 ∧ rho (-1, 0) = 2 ^ 61 - 2 ∧ rho (3, -1) = 3 * 2 ^ 60 % (2 ^ 61 - 1) := by decide

theorem test_special_skips : specialRow.taken.2.1 = 2 ∧ specialRow.taken.2.2.length = 15 := by decide

/-! ### Witnesses: arrivals, DMA and paging -/

/-- A header of a whole single-packet message of one unit for ring 3, handler 1, from core (1, 0). -/
def msg1 : QWord := 0x00000000000000000000000100300801#128

/-- A packet from core (1, 0) with tag 5. -/
def pkt1 : PktHead := ⟨1, 0, 0, 0, 0, false, false, 1, 0, 0, 0, 0, 0, 1, 0, 0, 5, 0, true⟩

theorem witness_Arrivals : clocked (messaging (runs (.recvAck 3 0))) ∧ pkt1.poison = 0 ∧ pkt1.last = true ∧ (hdrOf msg1).queue = 3
    ∧ (hdrOf msg1).gear = ((messaging (runs (.recvAck 3 0))).dev.arch c0).stat.gear
    ∧ deliveryCheck ((messaging (runs (.recvAck 3 0))).dev.core c0) ((messaging (runs (.recvAck 3 0))).dev.arch c0).stat.gear (hdrOf msg1) = .place
    ∧ (messaging (runs (.recvAck 3 0))).dev.mayLand c0 (pktOf pkt1 [msg1]) = true
    ∧ (∃ x, ((messaging (runs (.recvAck 3 0))).dev.arch c0).msg.partials.find? (fun y =>
        y.src = ⟨pkt1.srcX, pkt1.srcY, pkt1.srcDev⟩ && y.tag = pkt1.msgTag) = some x ∧ x.sink = 1 ∧ x.place = some (3, 0))
    ∧ (∃ p, (onDev' fun d => { d with mesh := { d.mesh with transit := [completionOf { pkt1 with srcX := 0, mcast := true }] } }).dev.completionFor c0 5 = some p)
    ∧ c0.x ≠ 0xF0 ∧ (vGet ((atCore run0).dev.arch c0).units 2 clearUnit).queue = []
    ∧ ((atArch fun a => { a with msg := { a.msg with rootWait := [(200, List.replicate 16 0#128)] } }).dev.arch c0).msg.rootWait.find?
        (fun w => !openMeets ((atCore run0).dev.arch c0).tensor.groups 99 w.1 (w.2.length / 16 - 1)) = some (200, List.replicate 16 0#128) := by
  refine ⟨rfl, rfl, rfl, rfl, rfl, rfl, by decide, ⟨_, rfl, rfl, rfl⟩, ⟨_, rfl⟩, by decide, rfl, rfl⟩

/-- A local segment of two pages at 0, and a far segment of one page at 0x100000 of device 7. -/
def seg0 : Segment := ⟨0, true, true, false, false, true, false, 0, 0x20000, 0, 0, 0, 0⟩
def seg1 : Segment := ⟨1, true, true, false, false, true, true, 0x100000, 0x10000, 7, 0, 0, 0⟩

/-- A RUNNING context with the two segments; page 0 is present in frame 1, page 1 is not present. -/
def paged : Ctx :=
  { clearCtx with
    state := .running, image := { clearImage with segments := [seg0, seg1] }
    pt := [(0, { seg0.leaf 0 with valid := true, target := 16 }), (1, seg0.leaf 1)] }

/-- A descriptor that moves 64 bytes from virtual address 0 to handle 4, and one of length 0. -/
def desc64 : List Byte := [0, 1, 1, 0, 64, 0, 0, 0, 0, 1] ++ List.replicate 22 0#8
def desc0 : List Byte := [0, 1, 1, 0, 0, 0, 0, 0, 0, 1] ++ List.replicate 22 0#8

/-- The local end of both. -/
def end4 : DmaEnd := ⟨true, 0, 65536, 0, false, false⟩

/-- A core of context 0 with a DMA command at the head of its engine, the page of the source in its translation cache. -/
def moving (e : QEntry) : State :=
  let k : Core := { run0 with ctx := some 0, arch := { run0.arch with units := vSet run0.arch.units 3 { clearUnit with queue := [e] } } }
  { State.reset with dev := { State.reset.dev with cores := [(0, k)], ctxs := [(0, paged)], t2 := { State.reset.dev.t2 with tlb := [(0, 0, 0)], used := [1] } } }

/-- A DMA.GET of a descriptor on queue 2. -/
def getCmd (bs : List Byte) : UnitCmd := .dma false 2 bs ⟨false, 0, 0, 0, false, false⟩ end4 0

set_option maxRecDepth 4096 in
theorem witness_DmaEngine : clocked (moving (waits (getCmd desc64)))
    ∧ (vGet ((moving (waits (getCmd desc64))).dev.arch c0).units 3 clearUnit).queue = [waits (getCmd desc64)]
    ∧ ((moving (waits (getCmd desc64))).dev.arch c0).live = true ∧ (waits (getCmd desc64)).started = false
    ∧ dmaStartCheck ((moving (waits (getCmd desc64))).dev.ctxOf c0) false (dmaDesc desc64) ⟨false, 0, 0, 0, false, false⟩ end4 = .ok true
    ∧ dmaStartCheck ((moving (waits (getCmd desc0))).dev.ctxOf c0) false (dmaDesc desc0) ⟨false, 0, 0, 0, false, false⟩ end4 = .ok false
    ∧ ((moving (runs (getCmd desc64))).dev.core c0).ctx = some 0 ∧ ((moving (runs (getCmd desc64))).dev.arch c0).dmaRuns = true
    ∧ (runs (getCmd desc64)).started = true
    ∧ granulePages (dmaDesc desc64).srcSpace ((dmaDesc desc64).srcAddr + 0) (min 4096 ((dmaDesc desc64).length - 0)) false
        ++ granulePages (dmaDesc desc64).dstSpace ((dmaDesc desc64).dstAddr + 0) (min 4096 ((dmaDesc desc64).length - 0)) true = [(0, false)]
    ∧ (moving (runs (getCmd desc64))).dev.tlbHit c0 0 (((moving (runs (getCmd desc64))).dev.ctx 0).cachePage 0) false = true
    ∧ (∃ l, ((moving (runs (getCmd desc64))).dev.ctx 0).leaf 0 = some l ∧ l.valid = true ∧ l.busy = false)
    ∧ (∃ used : Dev, used = ((moving (runs (getCmd desc64))).dev.cleared.tlbUse c0 0 (((moving (runs (getCmd desc64))).dev.ctx 0).cachePage 0)).readCounts [] 0
      ∧ used.sourceBad ((moving (runs (getCmd desc64))).dev.ctx 0) (dmaDesc desc64) 0 64 = none
      ∧ (dmaDesc desc64).srcSpace = 1
      ∧ ∃ data, used.granuleRead c0 ((moving (runs (getCmd desc64))).dev.ctx 0) (dmaDesc desc64) ⟨false, 0, 0, 0, false, false⟩ 0 64 [] = some data
        ∧ ∃ d, used.granuleWrite c0 0 ((moving (runs (getCmd desc64))).dev.ctx 0) (dmaDesc desc64) end4 0 data = some d)
    ∧ 0 + 32 < (dmaDesc desc64).length := by
  refine ⟨rfl, rfl, rfl, rfl, rfl, rfl, rfl, rfl, rfl, rfl, rfl, ⟨_, rfl, rfl, rfl⟩, ⟨_, rfl, rfl, rfl, _, rfl, Option.isSome_iff_exists.mp (by decide)⟩, by decide⟩

/-- Context 0 with a fill of its far page under way, and a migration of page 0 to frame 5 asked for. -/
def faulting : State :=
  let s := moving (runs (getCmd desc64))
  { s with dev := { s.dev with
    t2 := { s.dev.t2 with fills := [(0, 16, 1)] }
    objs := [(okey 0x3103 3, 80 * 2 ^ 12)]
    ctxs := [(0, { paged with migrate := clearOp })] } }

/-- The same with the migration under way. -/
def migrating : State := { faulting with dev := { faulting.dev with ctxs := [(0, { paged with migrate := ⟨2, 0, cPending, 0, 80 * 2 ^ 12, 0, 0⟩ })] } }

/-- Context 0 with its far page in frame 2, and a migration of it to its backing asked for. -/
def farHome : State := { faulting with dev := { faulting.dev with
  ctxs := [(0, { paged with pt := paged.pt ++ [(16, { seg1.leaf 16 with valid := true, home := 0, target := 32 })] })]
  objs := [(okey 0x3103 2, 0x100000), (okey 0x3103 3, 7 * 2 ^ 42 + 2 * 2 ^ 3)] } }

theorem witness_Pager : clocked faulting ∧ (faulting.dev.core c0).ctx = some 0
    ∧ (∃ l, (faulting.dev.ctx 0).leaf (65535 / 65536) = some l ∧ l.busy = false ∧ l.valid = true)
    ∧ (∃ l, (faulting.dev.ctx 0).leaf (65536 / 65536) = some l ∧ l.busy = false ∧ l.valid = false)
    ∧ faulting.dev.t2.fills.find? (fun f => f.1 = 0 && f.2.1 = 16) = some (0, 16, 1)
    ∧ (∃ l, (faulting.dev.ctx 0).leaf 16 = some l ∧ l.large = false ∧ l.home = 2) ∧ faulting.dev.framesFree 0 1 = true
    ∧ (∀ pa ∈ (faulting.dev.ctx 0).walkPas 0 ++ (faulting.dev.ctx 0).walkPas 1, pa / 4096 ∉ faulting.dev.t2.badBlocks)
    ∧ 1 < faulting.dev.objD 0x3101 5 2 ∧ farHome.dev.objD 0x3103 1 0 = 0 ∧ bits (farHome.dev.objD 0x3103 3 0) 4 3 ≠ 0
    ∧ farHome.dev.migrateCheck 0 (farHome.dev.objD 0x3103 2 0) (farHome.dev.objD 0x3103 3 0) = none
    ∧ (migrating.dev.ctx 0).migrate.state = 2 ∧ (∃ l, (migrating.dev.ctx 0).leaf (migrating.dev.ctx 0).migrate.a = some l)
    ∧ migrating.dev.targetStands 0 (migrating.dev.ctx 0).migrate.b = true ∧ bits (migrating.dev.ctx 0).migrate.b 4 3 < 2 := by
  refine ⟨rfl, rfl, ⟨_, rfl, rfl, rfl⟩, ⟨_, rfl, rfl, rfl⟩, by decide, ⟨_, rfl, rfl, rfl⟩, by decide, by decide, by decide, by decide, by decide, by decide, rfl, ⟨_, rfl⟩, by decide, by decide⟩


/-! ### Witnesses: networks and gears -/

/-- A gear with four switch-program entries: a ROUTE of the north input to the south output, repeated once more, a LOOP to it, and END. -/
def gearSw : Slot :=
  { gear15 with
    parts := vSet (vSet gear15.parts 0 (memWrite [] 0 (natLe (4 * 2 ^ 59 + 15 * 2 ^ 36) 16))) 2
      (memWrite [] 0 (natLe (1 * 2 ^ 6 + 1 * 2 ^ 32) 8 ++ natLe (2 ^ 60 + 5 * 2 ^ 10) 8 ++ natLe (2 ^ 61) 8 ++ natLe (2 ^ 62) 8)) }

/-- A beat of the present step for the core's north input port. -/
def beat1 : Beat := ⟨7#256, 0, 0, true, false, 0, false⟩

/-- A running core with a switch program, whose router has passed what r says. -/
def routed (f : Router → Router) : State :=
  atCore { run0 with slots := vSet run0.slots 0 gearSw, arch := { run0.arch with router := f { clearRouter with left := some 1, atEnd := false } } }

/-- A core's device once the reads of its inject streams have been asked for and served. -/
def reading (s : State) : Dev := (s.dev.cleared.updCore c0 (Core.askReads 4)).serveReads c0

theorem witness_SwitchEntries : clocked (routed id) ∧ ((routed id).dev.arch c0).stat.run = .running
    ∧ ((routed id).dev.arch c0).router.cycle ≤ ((routed id).dev.arch c0).stat.issue ∧ ((routed id).dev.arch c0).router.atEnd = false
    ∧ ((reading (routed id)).arch c0).stat.run ≠ .stopped
    ∧ (((reading (routed id)).core c0).slot ((routed id).dev.arch c0).stat.gear).sw ((routed id).dev.arch c0).router.sw = .route [0, 0, 1, 0, 0] 0 0 0 0 1
    ∧ (reading (routed id)).coreHold c0 [0, 0, 1, 0, 0] 0 = true
    ∧ (reading (routed fun r => { r with inq := vSet r.inq 0 [beat1] })).coreHold c0 [0, 0, 1, 0, 0] 0 = false
    ∧ (∀ x ∈ ((reading (routed fun r => { r with inq := vSet r.inq 0 [beat1] })).arch c0).router.due, x.data.isSome = true)
    ∧ ((reading (routed fun r => { r with inq := vSet r.inq 0 [beat1] })).arch c0).router.conflict c0
        (((reading (routed fun r => { r with inq := vSet r.inq 0 [beat1] })).runRoute c0 [0, 0, 1, 0, 0] 0 0 0).arch c0).router = false
    ∧ ((routed fun r => { r with atEnd := true }).dev.arch c0).router.atEnd = true
    ∧ ((routed id).dev.arch c0).router.left = some (0 + 1)
    ∧ ((routed id).dev.core c0).slot 0 = gearSw ∧ gearSw.sw (0 + 1) = .loop 0 5 0 ∧ gearSw.sw (1 + 1) = .stop ∧ gearSw.sw 4 = .stop
    ∧ vGet ((routed id).dev.arch c0).router.ctrs 0 0 = 0 ∧ ((routed fun r => { r with left := some 0 }).dev.arch c0).router.left = some 0
    ∧ ({ gearSw with parts := vSet gearSw.parts 2 (memWrite [] 8 (natLe (2 ^ 38) 8)) } : Slot).sw (0 + 1) = .route [0, 0, 0, 0, 0] 0 0 0 0 64 := by
  refine ⟨rfl, rfl, by decide, rfl, by decide, by decide, by decide, by decide, by decide, by decide, rfl, rfl, rfl, by decide, by decide, by decide, rfl, rfl, by decide⟩

theorem witness_BeatsAndSkew : clocked (routed id) ∧ 3 < 4 ∧ takeFlying 3 [(2, beat1), (3, beat1)] = some (beat1, [(2, beat1)])
    ∧ ((routed fun r => { r with flying := [(2, beat1), (3, beat1)] }).dev.arch c0).router.flying = [(2, beat1), (3, beat1)]
    ∧ (vGet ((routed id).dev.arch c0).router.inq 3 []).length < 8 ∧ ((routed id).dev.arch c0).live = true
    ∧ ((routed fun r => { r with pairing := vSet r.pairing 2 [⟨.token 1#32, 65⟩] }).dev.arch c0).router.overdue = true := by
  refine ⟨rfl, by decide, rfl, rfl, by decide, rfl, by decide⟩

/-- A packet of one unit for core (2, 0), and a multicast of it to the columns 0 to 2 of row 0. -/
def pktTo : PktHead := ⟨16, 1, 0, 0, 0, false, false, 1, 2, 0, 0, 0, 0, 0, 0, 0, 5, 0, true⟩
def pktCast : PktHead := { pktTo with mcast := true, dstX := 0, x1 := 2 }

/-- The packet in flight. -/
def inFlight1 : State := onDev' fun d => { d with mesh := { d.mesh with transit := [pktOf pktTo [0#128]] } }

theorem witness_PacketRouting : clocked (atCore run0) ∧ (atCore run0).dev.malformed pktTo 2 = none ∧ pktTo.dkind = 0 ∧ pktTo.mcast = false
    ∧ (atCore run0).dev.packetPorts c0 pktTo = [1] ∧ (∀ q ∈ (atCore run0).dev.mesh.transit, q.head ≠ pktTo ∧ q.head ≠ { pktTo with poison := 2 })
    ∧ inFlight1.dev.malformed pktTo 2 = none ∧ inFlight1.dev.packetPorts c0 pktTo = [1] ∧ (inFlight1.dev.inFlight pktTo).isSome = true
    ∧ inFlight1.dev.mesh.routers = [] ∧ c0.x < 60 ∧ c0.y < 64 ∧ pktTo.dstX < 60 ∧ pktTo.dstY < 64
    ∧ (atCore run0).dev.malformed pktCast 2 = none ∧ pktCast.mcast = true ∧ mcastPorts c0 pktCast ≠ []
    ∧ (atCore run0).dev.malformed pktTo 3 = some cBadArgument ∧ (atCore run0).dev.epochDrain = 0
    ∧ (onDev' fun d => { d with mesh := { d.mesh with transit := [pktOf { pktTo with epoch := 1 } []] } }).dev.epochDrain ≠ 0 ∧ 0 ≠ 1 := by
  refine ⟨rfl, by decide, rfl, rfl, by decide, by decide, by decide, by decide, by decide, rfl, by decide, by decide, by decide, by decide, by decide, rfl,
    by decide, by decide, rfl, by decide, by decide⟩

/-- A packet in flight that reaches the router of the origin by its local port is sent on east, to the router of physical core (1, 0). -/
theorem test_forward_east : (inFlight1.dev.enterRouter c0 4 pktTo [1]).out = [.forward c0 (1 - 1, 0) [1] pktTo] := by decide

/-- The head of a load packet to the origin, and a slot that is being loaded under load identifier 9 with one packet in flight. -/
def loadHead : PktHead :=
  { pktTo with dstX := 0, vc := 2, srcX := State.reset.dev.engineCore.x, srcY := State.reset.dev.engineCore.y, srcDev := 0xFFFF }
def loadingAt (units : List QWord) : State := onDev' fun d => { d with
  cores := [(0, { run0 with slots := vSet run0.slots 3 { gear15 with state := 1, loadId := 9 } })]
  mesh := { d.mesh with transit := [pktOf loadHead units] } }

theorem load_due (units : List QWord) : (loadingAt units).dev.loadDue c0 = some (pktOf loadHead units) := by
  have hx : (loadingAt units).dev.engineCore = State.reset.dev.engineCore := rfl
  have hd : ckey c0 ∈ (pktOf loadHead units).dests := by simp [pktOf, headDests, loadHead, pktTo, c0]
  have ht : (loadingAt units).dev.mesh.transit = [pktOf loadHead units] := rfl
  have hl : (loadingAt units).dev.isLoad (pktOf loadHead units) = true := by
    unfold Dev.isLoad; rw [hx]; simp [pktOf, loadHead]
  have hv : (pktOf loadHead units).head.vc = 2 := rfl
  simp [Dev.loadDue, ht, hl, hd, hv]

theorem witness_GearLoading : clocked (loadingAt []) ∧ 3 < 4 ∧ 0x1FF / 256 = 1 ∧ 0 < 2 ∧ 2 < 8
    ∧ (∀ units, (loadingAt units).dev.loadDue c0 = some (pktOf loadHead units) ∧ (pktOf loadHead units).head.poison = 0
        ∧ (pktOf loadHead units).units = units ∧ ((loadingAt units).dev.arch c0).msg.broom = []
        ∧ (((loadingAt units).dev.core c0).slot 3).state = 1 ∧ (((loadingAt units).dev.core c0).slot 3).header = true
        ∧ (((loadingAt units).dev.core c0).slot 3).loadId = 9) :=
  ⟨rfl, by decide, by decide, by decide, by decide, fun units => ⟨load_due units, rfl, rfl, rfl, rfl, rfl, rfl⟩⟩


/-! ### Witnesses: contexts -/

/-- A gear image of two instructions and two END entries, without rings, channels or handles, for slot 0. -/
def gearBytes (check : Nat) : List Byte :=
  natLe (0x100 + 2 * 2 ^ 36 + 2 * 2 ^ 59) 16 ++ natLe check 8 ++ natLe 0 8 ++ natLe 0 16 ++ natLe (2 ^ 61) 8 ++ natLe (2 ^ 61) 8
    ++ List.replicate 384 0#8 ++ natLe 0x100 272 ++ natLe 0x100 16 ++ natLe (0x100 + 2 ^ 24) 68

/-- A context image of one region of one cell, whose four cores have that gear. -/
def imgBytes (check gear : Nat) : List Byte :=
  natLe (0x02000100 + 932 * 2 ^ 64) 56 ++ natLe check 8 ++ natLe (1 + 2 ^ 32 + 96 * 2 ^ 64) 16 ++ natLe (2 + 2 ^ 32 + 112 * 2 ^ 64) 16
    ++ natLe (2 ^ 24 + 2 ^ 32 + 0xFFF0 * 2 ^ 40) 16 ++ natLe (0x01010000 + 0xFF * 2 ^ 36 + 804 * 2 ^ 64) 16 ++ gearBytes gear

/-- The context image whose check fields hold. -/
def goodImage : List Byte := imgBytes 5302409641525344886 8191949301276574530

/-- CRC-64 of bytes, with the register forced at each byte so that the kernel can evaluate it on a whole image. -/
def crcForced : List Byte → Nat → Nat
  | [], c => c
  | b :: bs, c => match c with
    | 0 => crcForced bs (crcByte 0#64 b).toNat
    | n + 1 => crcForced bs (crcByte (BitVec.ofNat 64 (n + 1)) b).toNat

theorem crcForced_eq (bs : List Byte) (c : Nat) : crcForced bs c % 2 ^ 64 = (bs.foldl crcByte (BitVec.ofNat 64 c)).toNat := by
  induction bs generalizing c with
  | nil => simp [crcForced]
  | cons b bs ih => cases c with
    | zero => rw [crcForced, ih]; simp
    | succ n => rw [crcForced, ih]; simp

theorem crc64_forced (bs : List Byte) : crc64 bs = Nat.xor (crcForced bs (2 ^ 64 - 1) % 2 ^ 64) (2 ^ 64 - 1) := by
  rw [crcForced_eq]; rfl

/-- The device in service, with a load of context 0 under way. -/
def loadingDev : Dev := { State.reset.dev with objs := [(okey 0x2104 2, 0xFF)], ctxs := [(0, { clearCtx with load := ⟨2, 0, cPending, 0, 0, 932, 0⟩ })] }

/-- What the image reads as. -/
def goodRead : Image := (loadingDev.readImage goodImage).getD clearImage

theorem goodFrame : imageFrameCheck goodImage = none := by
  simp only [imageFrameCheck, crc64_forced]
  decide +kernel

theorem goodReads : loadingDev.readImage goodImage = some goodRead := by
  have h : (loadingDev.readImage goodImage).isSome = true := by decide +kernel
  unfold goodRead
  cases hm : loadingDev.readImage goodImage with
  | none => rw [hm] at h; cases h
  | some m => rfl

theorem goodGears : firstCode (goodRead.placed.map fun p => gearCheck p.slot) = none := by
  simp only [gearCheck, crc64_forced]
  decide +kernel

theorem goodCells : (goodRead.regions.any fun r => decide (30 < r.cx0 + r.cw) || decide (loadingDev.rows / 2 < r.cy0 + r.ch)) = false := by decide +kernel

theorem goodPlace : goodRead.placeBad ([2, 3, 5, 7, 9].flatMap fun k =>
    ((sectionOf goodImage goodRead.imageBytes (imageDir goodImage) k).flatMap fun s => (taggedRecs s.1 s.2).getD []).map Prod.fst) = false := by
  decide +kernel

theorem goodMesh : firstCode (goodRead.placed.map fun p => meshCheck p.slot p.core p.region.rect) = none := by decide +kernel

theorem goodHandles : firstCode (goodRead.placed.map fun p => handlePlanCheck p.slot goodRead.horizon (goodRead.planAt p.core).hashEn
    ((goodRead.marks.find? fun k => k.image = p.image && k.rect.has p.core).map (·.mask))) = none := by decide +kernel

theorem goodQueues : firstCode (goodRead.placed.map fun p => queuePlanCheck p.slot) = none
    ∧ queueCheckAll (loadingDev.objD 0x2803 9 1024) goodRead.placed goodRead.trees = none
    ∧ goodRead.steerOver loadingDev.eth.steerCur 0 = false := by
  refine ⟨by decide +kernel, by decide +kernel, by decide +kernel⟩

theorem goodChecks : loadingDev.imageCheck goodRead goodImage (loadingDev.ctx 0).windows [] 0 0 = none := by
  unfold Dev.imageCheck
  simp only [goodCells, goodPlace, goodGears, goodMesh, goodHandles, goodQueues, Bool.false_eq_true, if_false]
  decide +kernel

theorem admit_ok {d : Dev} {bs : List Byte} {w : NMap HostWin} {l : List (Nat × Nat)} {sp n : Nat} {m : Image} (h1 : imageFrameCheck bs = none)
    (h2 : d.readImage bs = some m) (h3 : d.imageCheck m bs w l sp n = none) : d.admitImage bs w l sp n = .ok m := by
  simp only [Dev.admitImage, h1, h2, h3]

theorem witness_Admission : (loadingDev.ctx 0).load.busy = true
    ∧ loadingDev.admitImage goodImage (loadingDev.ctx 0).windows [] 0 0 = .ok goodRead
    ∧ loadingDev.admitImage [] (loadingDev.ctx 0).windows [] 0 0 = .error cUnsupportedVersion :=
  ⟨rfl, admit_ok goodFrame goodReads goodChecks, rfl⟩

/-- The device in service, changed by f. -/
def served (f : Dev → Dev) : State :=
  onDev' fun d => f { d with objs := [(okey 0x2104 2, 0xFF)] }

/-- The device in service with context 0 as x. -/
def withCtx (x : Ctx) : State := served fun d => { d with ctxs := [(0, x)] }

/-- Host window 0: 2 pages, readable. -/
def hostWin : NMap HostWin := [(0, ⟨0, 0x20000, 7, true, true⟩)]

/-- A request for a load of 64 KiB of window 0 into context 0. -/
def loadAsked : State := { withCtx { clearCtx with windows := hostWin } with dev :=
  { (withCtx { clearCtx with windows := hostWin }).dev with objs := nmSet [(okey 0x2104 2, 0xFF)] (okey 0x5002 4) 65536 } }

/-- A long operation that runs. -/
def opRuns : LongOp := ⟨2, 0, cPending, 0, 0, 0, 0⟩

/-- Regions of one and of two cells. -/
def region1 : RegionRec := { region := 0, cx0 := 0, cy0 := 0, cw := 1, ch := 1, init := Vector.replicate 4 0, entrySlot := 0 }
def region2 : RegionRec := { region1 with region := 1, cy0 := 4 }

/-- A region at step 0 that has settled nothing. -/
def region0 (num : Nat) : RegionRt :=
  { num := num, gateStep := 0, settled := [], timer := false, replay := none, shadowed := true, parked := false, parkedAt := 0,
    scanned := false, gateVals := [], oldVals := [], maps := [], degraded := false }

/-- A RUNNING context of one region whose four cores are at a gate. -/
def runningCtx : Ctx := { clearCtx with state := .running, image := { goodRead with regions := [region1] }, regions := [region0 0] }

/-- That context with gear 1 in force at the origin: image 0 may be loaded there. -/
def gearAsked : State := served fun d => { d with
  ctxs := [(0, runningCtx)], cores := [(0, { clearCore with arch := { clearArch with stat := { clearStat with gear := 1 } } })] }

theorem witness_ContextRequests : clocked loadAsked ∧ loadAsked.dev.objD 0x5002 1 0 = 0 ∧ loadAsked.dev.objD 0x5002 2 0 = 0
    ∧ loadAsked.dev.objD 0x5002 3 0 = 0 ∧ loadAsked.dev.objD 0x5002 4 0 = 65536 ∧ loadAsked.dev.loadCheck 0 0 0 65536 = none
    ∧ (withCtx clearCtx).dev.loadCheck 0 0 0 0 = some cBadArgument
    ∧ ((withCtx { clearCtx with load := opRuns, gearLoad := opRuns, reshard := opRuns }).dev.ctx 0).load.busy = true
    ∧ ((withCtx { clearCtx with load := opRuns, gearLoad := opRuns, reshard := opRuns }).dev.ctx 0).gearLoad.busy = true
    ∧ ((withCtx { clearCtx with load := opRuns, gearLoad := opRuns, reshard := opRuns }).dev.ctx 0).reshard.busy = true
    ∧ loadAsked.dev.inService = true ∧ ((withCtx { clearCtx with state := .preempted, windows := hostWin }).dev.ctx 0).state = .preempted
    ∧ ((withCtx { clearCtx with state := .preempted, windows := hostWin }).dev.ctx 0).opBusy = false
    ∧ sourceCheck ((withCtx { clearCtx with state := .preempted, windows := hostWin }).dev.ctx 0) 0 65536 65536 = none
    ∧ gearAsked.dev.gearLoadCheck 0 0 gearAsked.dev.gearRect = none := by
  refine ⟨rfl, by decide, by decide, by decide, by decide, by decide, by decide, rfl, rfl, rfl, by decide, rfl, rfl, by decide, by decide +kernel⟩

theorem witness_ContextCommands : clocked (withCtx runningCtx) ∧ ((withCtx runningCtx).dev.ctx 0).state = .running
    ∧ ((withCtx runningCtx).dev.ctx 0).entering = false ∧ ((withCtx runningCtx).dev.ctx 0).stopReq = false
    ∧ ((withCtx runningCtx).dev.ctx 0).noCommit = false ∧ ((withCtx { runningCtx with midStep := true, gateReq := some false }).dev.ctx 0).noCommit = true
    ∧ (∀ r ∈ ((withCtx runningCtx).dev.ctx 0).regions, r.replay = none ∧ r.parked = false)
    ∧ ((withCtx { runningCtx with state := .loaded, image := clearImage }).dev.ctx 0).state = .loaded
    ∧ (∀ v ∈ ((withCtx { runningCtx with state := .loaded, image := clearImage }).dev.ctx 0).image.devices, v = 0xFFFF)
    ∧ ((withCtx { runningCtx with gateReq := some false }).dev.ctx 0).gateReq = some false
    ∧ (∃ r ∈ ((withCtx { runningCtx with gateReq := some false }).dev.ctx 0).regions, r.parked = false)
    ∧ ((withCtx { runningCtx with gateReq := some false }).dev.ctx 0).midStep = false
    ∧ ((withCtx { clearCtx with state := .failed }).dev.ctx 0).state = .failed ∧ CtxState.failed ≠ .free ∧ CtxState.failed ≠ .loaded := by
  refine ⟨rfl, rfl, rfl, rfl, by decide, by decide, ?_, rfl, ?_, rfl, ⟨_, List.mem_singleton.2 rfl, rfl⟩, rfl, rfl, by decide, by decide⟩
  · intro r h; rw [List.mem_singleton.1 h]; exact ⟨rfl, rfl⟩
  · intro v h; cases h

theorem witness_Scheduling : clocked (withCtx { runningCtx with quantumUs := 5 }) ∧ ((withCtx { runningCtx with quantumUs := 5 }).dev.ctx 0).state.holds = true
    ∧ ((withCtx { runningCtx with quantumUs := 5 }).dev.ctx 0).quantumUs ≠ 0 ∧ ((withCtx runningCtx).dev.ctx 0).state = .running
    ∧ (served fun d => { d with schedWait := 1 }).dev.schedWait = 0 + 1
    ∧ { (served fun d => { d with schedWait := 1, ctxs := [(0, { clearCtx with state := .ready })] }).dev.cleared with schedWait := 0 }.dispatchCheck 0 = none
    ∧ 7 < 8 ∧ (served fun d => { d with objs := (okey 0x5000 3, 1) :: d.objs }).dev.objD 0x5000 3 0 = 1 ∧ State.reset.dev.objD 0x5000 3 0 ≠ 1 := by
  refine ⟨rfl, rfl, by decide, rfl, rfl, by decide, by decide, rfl, by decide⟩

/-- A context of two regions whose pre-emption at a gate is due; both have parked. -/
def scanningCtx : Ctx :=
  { runningCtx with
    image := { goodRead with regions := [region1, region2] }
    regions := [{ region0 0 with parked := true }, { region0 1 with parked := true }], gateReq := some false }

theorem witness_ContextEnds : clocked (withCtx scanningCtx)
    ∧ ((withCtx scanningCtx).dev.ctx 0).rt? 0 = some { region0 0 with parked := true }
    ∧ (withCtx scanningCtx).dev.scanReady 0 { region0 0 with parked := true } = true ∧ ((withCtx scanningCtx).dev.ctx 0).midStep = false
    ∧ ((withCtx scanningCtx).dev.ctx 0).gearLoad.busy = false
    ∧ (∀ c ∈ ((withCtx scanningCtx).dev.ctx 0).coresIn 0, c.x < 64)
    ∧ (((withCtx scanningCtx).dev.ctx 0).regions.any fun t => t.num != 0 && !t.scanned) = true
    ∧ ((withCtx { clearCtx with copying := true }).dev.ctx 0).copying = true
    ∧ ((withCtx { clearCtx with state := .draining }).dev.ctx 0).state = .draining
    ∧ (∀ h ∈ ((withCtx { clearCtx with state := .draining }).dev.ctx 0).msgHold, h.released = false ∨ h.placedIn.isSome = true)
    ∧ (∀ h ∈ ((withCtx { clearCtx with state := .draining }).dev.ctx 0).dmaHold, h.released = false)
    ∧ (∀ e ∈ (withCtx { clearCtx with state := .draining }).dev.inlog, e.ctx = 0 → e.acked = false →
        (withCtx { clearCtx with state := .draining }).dev.expelled e.dev = true) := by
  refine ⟨rfl, rfl, by decide, rfl, rfl, by decide, by decide, rfl, rfl, ?_, ?_, ?_⟩
  · intro h m; cases m
  · intro h m; cases m
  · intro e m; cases m

/-- The running context with its four cores at the gate of step 0, reported clean or not. -/
def atGates (clean : Bool) (x : Ctx) : State :=
  served fun d => { d with
    ctxs := [(0, x)]
    cores := [(0, ⟨0, 0⟩), (1, ⟨1, 0⟩), (64, ⟨0, 1⟩), (65, (⟨1, 1⟩ : CoreId))].map fun p =>
      (p.1, { run0 with ctx := some 0, reports := [⟨0, clean, 10, 0, 0, false, false, 0, none, [], [], false, false⟩] }) }

theorem witness_Gates : clocked (atGates true runningCtx) ∧ (atGates false runningCtx).dev.epochDrain = 0 ∧ false ≠ true
    ∧ ({ (atGates false runningCtx) with dev := { (atGates false runningCtx).dev with mesh := { (atGates false runningCtx).dev.mesh with
        transit := [pktOf { pktTo with epoch := 1 } []] } } } : State).dev.epochDrain ≠ 0 ∧ ((atGates true runningCtx).dev.ctx 0).rt? 0 = some (region0 0)
    ∧ (atGates true runningCtx).dev.canSettle 0 (region0 0) = true ∧ (region0 0).replay = none
    ∧ (∀ p ∈ (atGates true runningCtx).dev.gateReports 0 (region0 0), p.2.clean = true)
    ∧ (atGates false runningCtx).dev.canSettle 0 (region0 0) = true
    ∧ (∃ p ∈ (atGates false runningCtx).dev.gateReports 0 (region0 0), p.2.clean = false)
    ∧ (atGates true { runningCtx with regions := [{ region0 0 with replay := some ⟨0, 1, [], none, false, []⟩ }] }).dev.canSettle 0
        { region0 0 with replay := some ⟨0, 1, [], none, false, []⟩ } = true
    ∧ ((atGates true { runningCtx with regions := [{ region0 0 with replay := some ⟨0, 1, [], none, false, []⟩ }] }).dev.ctx 0).rt? 0
        = some { region0 0 with replay := some ⟨0, 1, [], none, false, []⟩ }
    ∧ ((withCtx { runningCtx with regions := [{ region0 0 with settled := [0] }] }).dev.ctx 0).rt? 0 = some { region0 0 with settled := [0] }
    ∧ ((withCtx { runningCtx with regions := [{ region0 0 with timer := true }] }).dev.ctx 0).rt? 0 = some { region0 0 with timer := true }
    ∧ ((withCtx runningCtx).dev.ctx 0).state ≠ .blocked
    ∧ (∃ c ∈ (withCtx runningCtx).dev.gateCores 0 0, (((withCtx runningCtx).dev.core c).reportOf 0).isNone = true) := by
  refine ⟨rfl, rfl, by decide, by decide, rfl, by decide, rfl, by decide, by decide, by decide, by decide, rfl, rfl, rfl, by decide, by decide⟩


/-! ### Witnesses: healing and maintenance -/

/-- The test of physical cell 31 of row 0, in the testing stage. -/
def testing : GroomTest := ⟨31, 1, 1, false⟩

/-- The device with its groomer as f makes it. -/
def grooming (f : Groom → Groom) : State := served fun d => { d with groom := f d.groom }

theorem witness_Groomer : clocked (grooming id) ∧ (grooming id).dev.objD 0x6100 1 1 ≠ 0 ∧ (grooming id).dev.groom.test = none
    ∧ (grooming id).dev.healBusy = false ∧ (grooming id).dev.moves = [] ∧ (grooming fun g => { g with returns := [3] }).dev.groom.returns = [3]
    ∧ (grooming id).dev.groom.returns = []
    ∧ (∃ d, (grooming fun g => { g with targets := [(31, 1)] }).dev.cleared.pickCell = (d, some (31, true)))
    ∧ (grooming fun g => { g with test := some testing }).dev.groom.test = some testing ∧ testing.stage = 1
    ∧ (grooming fun g => { g with test := some testing }).dev.isFenced (testing.cell % 32) (testing.cell / 32) = false
    ∧ (grooming fun g => { g with test := some testing }).dev.groom.blame = []
    ∧ 31 < 32 ∧ (grooming id).dev.groomCell.busy = false ∧ (grooming id).dev.skipped (31 * 32 + 31) = false
    ∧ (served fun d => { d with groomCell := opRuns }).dev.groomCell.busy = true
    ∧ (served fun d => { d with disciplined := true }).dev.disciplined = true := by
  refine ⟨rfl, by decide, rfl, rfl, rfl, rfl, rfl, ⟨_, rfl⟩, rfl, rfl, by decide, rfl, by decide, rfl, by decide, rfl, rfl⟩

/-- A move of physical row 0 to the map that leaves out cell 0, for a fence or for the groomer. -/
def move0 (purpose : Nat) (copying : Bool) : Move := ⟨purpose, [(0, 3)], copying⟩

/-- The running context on row 0, its region parked or not, with such a move. -/
def movingTo (purpose : Nat) (copying parked : Bool) (test : Option GroomTest) : State :=
  served fun d => { d with
    ctxs := [(0, { runningCtx with regions := [{ region0 0 with parked := parked }] })]
    moves := [move0 purpose copying], groom := { d.groom with test := test } }

theorem witness_Moves : clocked (movingTo 0 false true none) ∧ (movingTo 0 false true none).dev.epochDrain = 0
    ∧ ((movingTo 0 false true none).dev.moves.find? fun m => (movingTo 0 false true none).dev.moveReady m) = some (move0 0 false)
    ∧ ((movingTo 0 true true none).dev.moves.find? fun m => m.copying) = some (move0 0 true) ∧ (move0 0 true).purpose = 0
    ∧ ((movingTo 2 true true none).dev.moves.find? fun m => m.copying) = some (move0 2 true) ∧ (move0 2 true).purpose ≠ 0
    ∧ (movingTo 2 true true none).dev.groom.test = none
    ∧ ((movingTo 0 false false none).dev.ctx 0).rt? 0 = some (region0 0) ∧ (region0 0).parked = false
    ∧ ((movingTo 0 false false none).dev.moves.find? fun m => !m.copying && ((movingTo 0 false false none).dev.moveRegions m).contains (0, 0))
        = some (move0 0 false)
    ∧ ((movingTo 0 false false none).dev.ctx 0).midStep = false
    ∧ ((movingTo 1 false false (some testing)).dev.moves.find? fun m =>
        !m.copying && ((movingTo 1 false false (some testing)).dev.moveRegions m).contains (0, 0)) = some (move0 1 false)
    ∧ testing.demand = false
    ∧ 31 < 32 ∧ (grooming id).dev.isFenced 31 31 = false ∧ (grooming id).dev.keep.retired ≠ some 31
    ∧ (((grooming id).dev.regionsOnRow 31).filter fun q => ((grooming id).dev.ctx q.1).state.holds && !((grooming id).dev.ctx q.1).entering) = []
    ∧ (((withCtx runningCtx).dev.regionsOnRow 0).filter fun q => ((withCtx runningCtx).dev.ctx q.1).state.holds && !((withCtx runningCtx).dev.ctx q.1).entering)
        = [(0, 0)] := by
  refine ⟨rfl, by decide, by decide, by decide, rfl, by decide, by decide, rfl, rfl, rfl, by decide, rfl, by decide, rfl, by decide, by decide, by decide, by decide, by decide⟩

/-- A complete checkpoint of context 0. -/
def ckpt0 : Ckpt := ⟨0x100, 0, 1, 4, 9, 0xFFFF, 4096, [], [], [], [], [], [], true, true⟩

theorem witness_Maintenance : clocked (served id) ∧ (served id).dev.keep.frames.contains (16 / 16) = false ∧ (served id).dev.t2.used.contains (16 / 16) = false
    ∧ (served id).dev.memtest.busy = false ∧ (served fun d => { d with memtest := opRuns }).dev.memtest.busy = true
    ∧ (served fun d => { d with objs := nmSet d.objs (okey 0x6105 4) 1 }).dev.objD 0x6105 4 1 = 1
    ∧ (served id).dev.objD 0x5100 1 0 = 0 ∧ (served id).dev.recover.busy = false
    ∧ ((served fun d => { d with ctxs := [(0, { clearCtx with state := .failed })], ckpts := [ckpt0] }).dev.ctx 0).state = .failed
    ∧ newest (served fun d => { d with ctxs := [(0, { clearCtx with state := .failed })], ckpts := [ckpt0] }).dev.ckpts 0 = some ckpt0 ∧ ckpt0.readable = true
    ∧ ((withCtx runningCtx).dev.ctx 0).state = .running ∧ ((withCtx runningCtx).dev.ctx 0).entering = false
    ∧ (∀ r ∈ ((withCtx runningCtx).dev.ctx 0).regions, r.shadowed = true ∧ r.scanned = false)
    ∧ (served fun d => { d with alertN := true }).dev.alertN = true ∧ (served fun d => { d with alertN := true }).dev.alertDue = false := by
  refine ⟨rfl, by decide, by decide, rfl, rfl, by decide, by decide, rfl, rfl, by decide, by decide, rfl, rfl, ?_, rfl, by decide⟩
  intro r h; rw [List.mem_singleton.1 h]; exact ⟨rfl, rfl⟩


/-! ### Witnesses: links, membership and checkpoints -/

/-- Link 3 in a state, changed by f. -/
def linked (st : Nat) (f : LinkSt → LinkSt) : State :=
  served fun d => { d with objs := nmSet d.objs (okey 0x2B03 1) st, links := [(3, f clearLink)] }

/-- A frame of the sequence on channel 2, sequence 0. -/
def frame0 : FrameHdr := (served id).dev.frameHdr 0 2 0

theorem witness_LinkStates : clocked (linked 0 id) ∧ (linked 0 id).dev.linkAbsent 3 = false ∧ (linked 0 id).dev.linkState 3 = 0
    ∧ (linked 0 id).dev.objD (0x2B00 + 3) 4 1 ≠ 0 ∧ (linked 1 id).dev.linkState 3 = 1 ∧ linkWidth 15 ≠ 0 ∧ linkWidth 15 = 4 ∧ linkWidth 8 ≠ 4 ∧ linkWidth 8 ≠ 0
    ∧ (linked 2 id).dev.linkState 3 = 2 ∧ ((linked 2 id).dev.link 3).known = false ∧ 2 ≤ (linked 2 id).dev.linkState 3
    ∧ (linked 3 id).dev.linkState 3 = 3 ∧ (linked 5 id).dev.linkState 3 = 5 ∧ (linked 5 id).dev.objD 0x6200 7 0 ≠ 1 ∧ 15 < 16 := by
  refine ⟨rfl, by decide, rfl, by decide, rfl, by decide, by decide, by decide, by decide, rfl, rfl, by decide, rfl, rfl, by decide, by decide⟩

/-- The frame is taken at link 3, ACTIVE, whatever its type and on either channel. -/
theorem taken0 (k vc : Nat) (hk : k = 0 ∨ 5 ≤ k ∧ k < 9) : (linked 4 id).dev.takesFrame 3 { frame0 with kind := k, vc := vc } :=
  ⟨by decide, rfl, by show frame0.version / 16 = 1; decide, hk, rfl, .inr ⟨by show frame0.epoch = _; decide, rfl, rfl⟩, .inl rfl⟩

/-- Link 3 with two held frames of sequences 6 and 7, the second at its last retry or not. -/
def holding (tries : Nat) : LinkSt := { clearLink with held := [⟨{ frame0 with seq := 6 }, .empty, 0⟩, ⟨{ frame0 with seq := 7 }, .empty, tries⟩] }

/-- Device 3 of a machine of devices 3 and 7; links 3 and 5 are ACTIVE, and 7 lies behind link 5. -/
def racked : State :=
  let s := linked 4 id
  { s with dev := { s.dev with
      objs := nmSet (nmSet (nmSet (nmSet s.dev.objs (okey 0x2B05 1) 4) (okey 0x2B05 6) 1) (okey 0x2A01 1) 3) (okey 0x6200 6) (2 ^ 3 + 2 ^ 7)
      mesh := { s.dev.mesh with routeCur := [(7, 0x21)] } } }

/-- The identity record of device 7, of this version, with this device's configuration. -/
def ident7 : IdentRec := { (racked.dev.identRec 3) with version := 0x100, archMajor := 1, majors := 1, cfgDigest := racked.dev.cfgDigest % 2 ^ 256, device := 7 }

/-- A packet for device 3, for its core (2, 0). -/
def pktDev : PktHead := { pktTo with dkind := 2, dstDev := 3 }

theorem witness_LinkFrames : clocked (linked 4 id) ∧ 3 < 64 ∧ (linked 4 id).dev.linkUp 3 = true ∧ (linked 0 id).dev.linkUp 3 = false
    ∧ frame0.crcOk = true ∧ frame0.version / 16 = 1
    ∧ frame0.kind = 0 ∧ { frame0 with seq := 9 }.seq ≠ ((linked 4 id).dev.link 3).rxSeq ∧ { frame0 with crcOk := false }.crcOk = false
    ∧ (∃ k ∈ [(⟨frame0, .empty, 0⟩ : LinkFrame)], k.hdr.seq = 0)
    ∧ ((linked 4 id).dev.link 3).waiting = [] ∧ ({ frame0 with aux := 1 } : FrameHdr).aux ≠ 2
    ∧ (ackHeld ((linked 4 fun _ => holding 8).dev.link 3).held 9).dropWhile (fun k => k.hdr.seq != 6)
        = [⟨{ frame0 with seq := 6 }, .empty, 0⟩, ⟨{ frame0 with seq := 7 }, .empty, 8⟩]
    ∧ (ackHeld ((linked 4 fun _ => holding 8).dev.link 3).held 6).dropWhile (fun k => k.hdr.seq != 9) = []
    ∧ (∀ k ∈ ((linked 4 fun _ => holding 7).dev.link 3).held, k.tries < 8) ∧ (∃ k ∈ ((linked 4 fun _ => holding 8).dev.link 3).held, 8 ≤ k.tries)
    ∧ ((linked 4 fun l => { l with unackedRx := 1 }).dev.link 3).unackedRx ≠ 0 ∧ ((linked 4 id).dev.link 3).unackedRx = 0
    ∧ ((linked 4 fun l => { l with epochWait := true }).dev.link 3).epochWait = true
    ∧ ((linked 4 id).dev.link 3).held.length < 512 ∧ vGet ((linked 4 id).dev.link 3).credits 4 0 ≠ 0
    ∧ (∀ k vc, k = 0 ∨ 5 ≤ k ∧ k < 9 → (linked 4 id).dev.takesFrame 3 { frame0 with kind := k, vc := vc })
    ∧ racked.dev.takesFrame 3 { frame0 with kind := 5, vc := 2 } ∧ racked.dev.takesFrame 3 { frame0 with kind := 0 }
    ∧ racked.dev.takesFrame 3 { frame0 with kind := 8, vc := 2 }
    ∧ ident7.version / 256 = 1 ∧ ident7.majors % 2 = 1 ∧ ident7.archMajor = 1 ∧ ident7.cfgDigest = racked.dev.cfgDigest % 2 ^ 256
    ∧ ident7.device ≠ racked.dev.self ∧ ident7.device ≠ 0xFFFF ∧ racked.dev.expelled ident7.device = false
    ∧ racked.dev.isMember ident7.device = true ∧ racked.dev.linkState 3 ≠ 5 ∧ racked.dev.objD 0x6200 7 0 ≠ 1
    ∧ pktDev.dstDev = racked.dev.self
    ∧ racked.dev.malformed { pktDev with epoch := racked.dev.mesh.epoch, poison := 0, dkind := 0, dstDev := 0xFFFF } ([0#128].length + 1) = none
    ∧ racked.dev.self ≠ 0xFFFF ∧ (⟨3, 7, 1, 0, 1, 0, []⟩ : RelayPiece).dstDev = racked.dev.self ∧ (∀ r ∈ racked.dev.rack.relayIn, ¬(r.origin = 7 ∧ r.relayId = 1))
    ∧ (⟨7, 9, 1, 0, 1, 7, []⟩ : RelayPiece).dstDev ≠ racked.dev.self ∧ racked.dev.linkAt [3, 4, 5] racked.dev.mesh.epoch 7 0 = some 5 ∧ 5 ≠ 3
    ∧ (racked.dev.link 5).waiting = [] ∧ (racked.dev.link 5).held.length < 512 ∧ vGet (racked.dev.link 5).credits 4 0 ≠ 0 := by
  refine ⟨rfl, by decide, by decide, by decide, rfl, by decide, rfl, by decide, rfl, ⟨_, List.mem_singleton.2 rfl, rfl⟩, rfl, by decide, by decide, by decide,
    by decide, by decide, by decide, rfl, rfl, by decide, by decide, fun k vc h => taken0 k vc h, ?_, ?_, ?_, by decide, by decide, by decide, rfl, by decide,
    by decide, by decide, by decide, by decide, by decide, by decide, by decide, by decide, by decide, ?_, by decide, by decide, by decide, rfl, by decide, by decide⟩
  · exact ⟨by decide, rfl, by decide, by decide, rfl, .inl rfl, .inl rfl⟩
  · exact ⟨by decide, rfl, by decide, by decide, rfl, .inl rfl, .inl rfl⟩
  · exact ⟨by decide, rfl, by decide, by decide, rfl, .inl rfl, .inl rfl⟩
  · intro r h; cases h

/-- Lease 2 of frame 16 to context 4 of device 7, writable, and a granule frame from it. -/
def leased : State := served fun d => { d with rack := { d.rack with leases := [(2, ⟨7, 4, true, true, 16, 1⟩)] }, t2 := { d.t2 with used := [16] } }
def granFrame : FrameHdr := { frame0 with srcDev := 7, srcCtx := 4, dstCtx := 0, step := 5, relIdx := 0, released := true }

theorem witness_ReleasedGranules : (leased.dev.ctx granFrame.dstCtx).lost = []
    ∧ leased.dev.leaseOf 2 granFrame.srcDev granFrame.srcCtx = some ⟨7, 4, true, true, 16, 1⟩ ∧ (⟨7, 4, true, true, 16, 1⟩ : Lease).w = true
    ∧ (⟨7, 4, true, true, 16, 1⟩ : Lease).covers 65534 2 = true ∧ granFrame.relIdx = 0
    ∧ (∀ p, (leased.dev.ctx granFrame.dstCtx).lastFrom granFrame.srcDev granFrame.srcCtx = some p → posLe (granFrame.step, granFrame.relIdx) p = false)
    ∧ (({ leased.dev with ctxs := [(0, { clearCtx with delivered := [(7, 4, 5, 0)] })] } : Dev).ctx granFrame.dstCtx).lastFrom granFrame.srcDev
        granFrame.srcCtx = some (5, 0) ∧ posLe (granFrame.step, granFrame.relIdx) (5, 0) = true
    ∧ clocked leased ∧ ([(⟨0, 7, 4, 5, 0, 0, .granule 2 0 [], true, false⟩ : Released)].filter fun e => e.ctx = 0 && e.dev = 7 && e.sent && !e.acked) ≠ []
    ∧ leased.dev.expelled 7 = false := by
  refine ⟨rfl, by decide, rfl, by decide, rfl, ?_, by decide, by decide, rfl, by decide, rfl⟩
  intro p h; cases h

/-- A membership order of epoch 1 with one signature block of key 0; its members are those of the bitmap's first byte. -/
def orderOne : List Byte := natLe (0x100 + 2 ^ 16 + 2 ^ 24 + 2 ^ 32) 64 ++ natLe 7 512 ++ List.replicate 4632 0#8

/-- The device with key 0 in force. -/
def keyed : State := served fun d => { d with rack := { d.rack with keys := [(0, List.replicate 2592 1#8)] } }

theorem orderOne_parts : orderOne.take 64 = natLe (0x100 + 2 ^ 16 + 2 ^ 24 + 2 ^ 32) 64 ∧ orderOne.drop 576 = List.replicate 4632 0#8
    ∧ orderOne.length = 5208 := by
  have h1 : (natLe (0x100 + 2 ^ 16 + 2 ^ 24 + 2 ^ 32) 64).length = 64 := by decide +kernel
  have h2 : (natLe 7 512).length = 512 := by decide +kernel
  refine ⟨?_, ?_, ?_⟩
  · rw [orderOne, List.append_assoc, List.take_left' h1]
  · rw [orderOne, List.drop_left' (by rw [List.length_append, h1, h2])]
  · rw [orderOne, List.length_append, List.length_append, h1, h2, List.length_replicate]

/-- A list of n bytes is one chunk of n bytes. -/
theorem chunks_one (n : Nat) (b : Byte) : chunks (n + 1) 7 (List.replicate (n + 1) b) = [List.replicate (n + 1) b] := by
  rw [List.replicate_succ, chunks, ← List.replicate_succ, List.take_of_length_le (by rw [List.length_replicate]),
    List.drop_of_length_le (by rw [List.length_replicate]), chunks]
  all_goals simp

theorem orderOne_blocks : chunks 4632 7 (orderOne.drop 576) = [List.replicate 4632 0#8] := by
  rw [orderOne_parts.2.1]; exact chunks_one 4631 0#8

/-- A signature that counts, by the key it names. -/
theorem countSigs_one {d : Dev} {g : BitVec 512} {b key : List Byte} (h0 : (b.headD 0#8).toNat = 0) (hk : nmGet d.rack.keys 0 = some key)
    (h : Config.sigOk key g ((b.drop 4).take 4627) = true) : d.countSigs g [b] [] 0 = ([0], 0) := by
  simp only [Dev.countSigs, h0, hk, h]
  rfl

theorem leNat_zeros (n : Nat) : leNat (List.replicate n 0#8) = 0 := by
  induction n with
  | zero => rfl
  | succ n ih => simp [List.replicate_succ, leNat, ih]

theorem witness_Membership (h : ∀ a b c, Config.sigOk a b c = true) : clocked keyed ∧ bits (orderHdr (natLe 0x100 64)) 15 8 = 1
    ∧ (linked 4 id).dev.takesFrame 3 { frame0 with kind := 0, vc := 2 } ∧ (served id).dev.objD 0x6200 7 0 ≠ 1
    ∧ (∀ v, v < 4096 → bit ((served id).dev.objD 0x6200 6 0) v = true → bit (orderMembers []) v = true) ∧ keyed.dev.keysCheck (List.replicate 2592 1#8) = none
    ∧ List.replicate 2592 1#8 ≠ [] ∧ 1 ≤ keyed.dev.rack.keys.length ∧ keyed.dev.orderKnown orderOne = false ∧ keyed.dev.orderCheck orderOne = none
    ∧ (keyed.dev.orderSigs orderOne).2 = 0 ∧ keyed.dev.objD 0x6200 2 1 ≤ (keyed.dev.orderSigs orderOne).1.length
    ∧ keyed.dev.orderKnown [] = false ∧ keyed.dev.orderCheck [] = some cUnsupportedVersion
    ∧ bits (orderHdr []) 63 32 ≤ keyed.dev.epoch := by
  have hs : keyed.dev.orderSigs orderOne = ([0], 0) := by
    unfold Dev.orderSigs
    rw [orderOne_blocks]
    exact countSigs_one (key := List.replicate 2592 1#8) rfl rfl (h _ _ _)
  refine ⟨rfl, by decide, taken0 0 2 (by decide), by decide, ?_, ?_, fun hc => ?_, by decide, ?_, ?_, by rw [hs], by rw [hs]; decide, rfl, by decide, by decide⟩
  · intro v _ hv
    have h0 : (served id).dev.objD 0x6200 6 0 = 0 := rfl
    rw [h0] at hv
    simp [bit] at hv
  · unfold Dev.keysCheck
    rw [List.length_replicate]
    decide
  · have := congrArg List.length hc
    rw [List.length_replicate] at this
    cases this
  · unfold Dev.orderKnown orderHdr
    rw [orderOne_parts.1]
    have : bits (leNat (natLe (0x100 + 2 ^ 16 + 2 ^ 24 + 2 ^ 32) 64)) 63 32 = 1 := by decide +kernel
    rw [this]
    rfl
  · unfold Dev.orderCheck orderHdr
    rw [orderOne_parts.1, orderOne_parts.2.2, orderOne_blocks]
    have h1 : (leNat (((List.replicate 4632 0#8).drop 1).take 3) != 0 || ((List.replicate 4632 0#8).getD 4631 0#8) != 0#8) = false := by
      rw [List.drop_replicate, List.take_replicate, leNat_zeros, List.getD_eq_getElem?_getD, List.getElem?_replicate_of_lt (by decide)]
      rfl
    simp only [List.any_cons, List.any_nil, h1]
    decide +kernel

theorem witness_Leases : clocked (served id) ∧ 0 < 64 ∧ 64 ≤ 64 ∧ nmGet (served id).dev.rack.leases (64 - 1) = none
    ∧ bit (7 + 2 ^ 64 + 2 ^ 96) 96 = true ∧ bits (7 + 2 ^ 64 + 2 ^ 96) 95 64 ≤ (served id).dev.freeFrames
    ∧ (served id).dev.freeRun (bits (7 + 2 ^ 64 + 2 ^ 96) 95 64) = some 0
    ∧ (served id).dev.freeFrames < bits (7 + 2 ^ 93 + 2 ^ 96) 95 64
    ∧ nmGet leased.dev.rack.leases (3 - 1) = some ⟨7, 4, true, true, 16, 1⟩ ∧ bit 0 96 = false := by
  refine ⟨rfl, by decide, by decide, rfl, by decide, by decide, by decide, by decide, rfl, by decide⟩

/-- A RUNNING context with a buddy whose checkpoint is being copied, or is at its buddy. -/
def saving (c : Nat) : State := served fun d => { d with
  ctxs := [(0, { runningCtx with buddy := 7, periodS := 60, ckpt := { opRuns with b := 1, c := c } })]
  ckpts := [{ ckpt0 with isSealed := false, complete := false, todo := [2] }] }

theorem witness_Checkpoints : clocked (withCtx { runningCtx with periodS := 60 }) ∧ (withCtx { runningCtx with periodS := 60 }).dev.objD 0x5100 1 0 = 0
    ∧ (withCtx { runningCtx with periodS := 60 }).dev.ckptCheck 0 0 = none ∧ ((withCtx { runningCtx with periodS := 60 }).dev.ctx 0).periodS ≠ 0
    ∧ ((withCtx { runningCtx with periodS := 60 }).dev.ctx 0).nextStep = 0
    ∧ ((saving 1).dev.ctx 0).ckpt.busy = true ∧ ((saving 1).dev.ctx 0).ckpt.state = 2 ∧ ((saving 1).dev.ctx 0).ckpt.c = 1
    ∧ ((saving 1).dev.ctx 0).buddy ≠ 0xFFFF ∧ (saving 1).dev.expelled ((saving 1).dev.ctx 0).buddy = false
    ∧ ((saving 1).dev.ckpts.find? fun k => k.ctx = 0 && k.slot = ((saving 1).dev.ctx 0).ckpt.b && !k.complete)
        = some { ckpt0 with isSealed := false, complete := false, todo := [2] }
    ∧ ((saving 2).dev.ctx 0).ckpt.c = 2 ∧ cBusy ≠ cOk
    ∧ (((served id).dev.buddies.filter fun j => !(j.device = ckpt0.device && j.ctx = ckpt0.ctx && j.slot = ckpt0.slot)).map Ckpt.bytes).sum + ckpt0.bytes
        ≤ (served id).dev.objD 0x6202 2 128 * 2 ^ 30
    ∧ (served id).dev.objD 0x6202 2 128 * 2 ^ 30 < ({ ckpt0 with bytes := 2 ^ 37 + 1 } : Ckpt).bytes
    ∧ ckpt0.version / 256 = 1 ∧ ({ ckpt0 with version := 0x200 } : Ckpt).version / 256 ≠ 1 := by
  refine ⟨rfl, by decide, by decide +kernel, by decide, rfl, rfl, rfl, rfl, by decide, rfl, by decide, rfl, by decide, by decide, by decide, by decide, by decide⟩

theorem witness_EthernetPort : clocked (served id) ∧ (served fun d => { d with objs := nmSet (nmSet d.objs (okey 0x2800 2) 2) (okey 0x2800 4) 9 }).dev.portUp = true
    ∧ 9 ≠ 0 ∧ (served fun d => { d with objs := nmSet (nmSet d.objs (okey 0x2800 2) 2) (okey 0x2800 4) 9 }).dev.objD 0x2800 4 0 = 9
    ∧ 8 ≠ (served id).dev.objD 0x2800 4 0 ∧ (served fun d => { d with objs := nmSet d.objs (okey 0x2800 5) 9 }).dev.objD 0x2800 5 0 = 9
    ∧ (∃ i, (served id).dev.pfcIndex 3 = some i) ∧ 1 < 2 ∧ vGet (served id).dev.eth.pauseTx 1 false = false ∧ 3 * 2 ^ 20 < 3 * 2 ^ 20 + 1
    ∧ vGet (served fun d => { d with eth := { d.eth with pauseTx := vSet d.eth.pauseTx 1 true } }).dev.eth.pauseTx 1 false = true
    ∧ (served id).dev.disciplined = false ∧ (served fun d => { d with disciplined := true }).dev.disciplined = true := by
  refine ⟨rfl, by decide, by decide, by decide, by decide, by decide, ⟨_, rfl⟩, by decide, rfl, by decide, by decide, rfl, rfl⟩


/-! ### Witnesses: the Ethernet engine -/

/-- The device in service with queue pair n in RTS, changed by f. -/
def qpUp (n : Nat) (f : Qp → Qp) : State := served fun d => { d with eth := { d.eth with qps := [(n, f { clearQp with state := 1, rkey := 5 })] } }

theorem witness_QueuePairs : clocked (qpUp 0 id) ∧ (qpUp 0 id).dev.objD 0x2801 1 0 = 0 ∧ ((served id).dev.qp 0).state ≠ 1 ∧ ((served id).dev.qp 0).rkey < 2 ^ 32
    ∧ 16639 < 16640 ∧ ((qpUp 0 id).dev.qp 0).state = 1 ∧ 0 < 16384 ∧ 60 + 4 ≤ 64 ∧ ¬(0 < 16384 ∧ 4 = ((qpUp 0 id).dev.qp 0).rkey ∧ 0 + 4 ≤ 64)
    ∧ (({ (qpUp 0 id).dev with ctxs := [(0, { runningCtx with load := opRuns, blockCause := 2 })] } : Dev).ctx 0).load.busy = true
    ∧ (({ (qpUp 0 id).dev with ctxs := [(0, { runningCtx with load := opRuns, blockCause := 2 })] } : Dev).ctx 0).blockCause ≠ 0
    ∧ ((withCtx runningCtx).dev.ctx 0).state.holds = true
    ∧ (∀ h ∈ acknowledged 1 ([⟨0, 2, 0, [], true, none, false⟩] : List HeldGranule), h.dev = none) := by
  refine ⟨rfl, by decide, by decide, by decide, by decide, rfl, by decide, by decide, by decide, rfl, by decide, rfl, by decide⟩

/-- A command of the transport: its opcode, a tag of 9 and its operands. -/
def bctWord (op args : Nat) : BctWord := 0x100 + op * 2 ^ 16 + 9 * 2 ^ 32 + args * 2 ^ 128

/-- Context 0 as x, with a command at the front of its queue. -/
def bctFirst (op args : Nat) (x : Ctx) : State := served fun d => { d with
  ctxs := [(0, x)], eth := { d.eth with qps := [(0, { clearQp with state := 1, queue := [bctWord op args] })] } }

/-- The same with the origin running, and another gear in force there. -/
def bctCores (op args : Nat) (x : Ctx) : State :=
  let s := bctFirst op args x
  { s with dev := { s.dev with cores := [(0, { clearCore with ctx := some 0, arch := { run0.arch with stat := { run0.arch.stat with gear := 1 } } })] } }

theorem bctCores_run (op args : Nat) (x : Ctx) (h : x.image.regions = [region1] := by rfl) (hs : x.state.holds = true := by rfl) :
    (bctCores op args x).dev.coresRun 0 := by
  have hx : ((bctCores op args x).dev.ctx 0) = x := rfl
  intro r hr
  rw [hx, h] at hr
  rw [List.mem_singleton.1 hr, hx]
  refine ⟨⟨0, 0⟩, ?_, rfl, rfl⟩
  unfold Ctx.coresIn
  rw [h]
  decide

theorem witness_CommandTransport : clocked (bctFirst 1 0 clearCtx) ∧ ((bctFirst 1 0 clearCtx).dev.qp 0).queue = bctWord 1 0 :: []
    ∧ ((qpUp 0 id).dev.qp 0).state = 1 ∧ 0 < 16384 ∧ ((qpUp 0 id).dev.qp 0).queue.length < 64 ∧ 65 ≠ 64
    ∧ 64 ≤ ((qpUp 0 fun q => { q with queue := List.replicate 64 0 }).dev.qp 0).queue.length ∧ ((served id).dev.qp 0).state ≠ 1
    ∧ bctOp (bctWord 1 0) = 0x01
    ∧ (bctOp (bctWord 2 (0x300 + 65536 * 2 ^ 128)) = 0x02 ∧ bits (bctArgs (bctWord 2 (0x300 + 65536 * 2 ^ 128))) 191 128 ≠ 0
      ∧ bits (bctArgs (bctWord 2 (0x300 + 65536 * 2 ^ 128))) 191 128 % 65536 = 0
      ∧ ((bctFirst 2 (0x300 + 65536 * 2 ^ 128) clearCtx).dev.ctx 0).windowUsed (bits (bctArgs (bctWord 2 (0x300 + 65536 * 2 ^ 128))) 7 0) = false
      ∧ bits (bctArgs (bctWord 2 (0x300 + 4096 * 2 ^ 128))) 191 128 % 65536 ≠ 0)
    ∧ (bctOp (bctWord 3 0) = 0x03 ∧ ((bctFirst 3 0 clearCtx).dev.ctx 0).windowUsed (bits (bctArgs (bctWord 3 0)) 7 0) = false
      ∧ ((bctFirst 3 0 { runningCtx with image := { clearImage with segments := [{ seg0 with kind := 2 }] } }).dev.ctx 0).windowUsed (bits (bctArgs (bctWord 3 0)) 7 0) = true)
    ∧ (bctOp (bctWord 4 (65536 * 2 ^ 128)) = 0x04 ∧ (bctFirst 4 (65536 * 2 ^ 128) { clearCtx with windows := hostWin }).dev.loadCheck 0 0 0 65536 = none
      ∧ (bctFirst 4 0 clearCtx).dev.loadCheck 0 0 0 0 = some cBadArgument)
    ∧ (bctOp (bctWord 5 0) = 0x05 ∧ ((bctFirst 5 0 { clearCtx with state := .loaded }).dev.ctx 0).state = .loaded
      ∧ (∀ v ∈ ((bctFirst 5 0 { clearCtx with state := .loaded }).dev.ctx 0).image.devices, v = 0xFFFF)
      ∧ ((served fun d => { d with objs := (okey 0x5000 3, 1) :: d.objs }).dev.objD 0x5000 3 0 = 1)
      ∧ ((bctFirst 5 0 { clearCtx with state := .loaded }).dev.ctx 0).cls < 8 ∧ ((bctFirst 5 0 clearCtx).dev.ctx 0).state ≠ .loaded)
    ∧ (bctOp (bctWord 6 0) = 0x06 ∧ ((bctFirst 6 0 runningCtx).dev.ctx 0).state = .running ∧ ((bctFirst 6 0 runningCtx).dev.ctx 0).noCommit = false ∧ ((bctFirst 6 0 clearCtx).dev.ctx 0).state ≠ .running
      ∧ ((bctFirst 6 0 clearCtx).dev.ctx 0).state ≠ .blocked)
    ∧ (bctOp (bctWord 7 1) = 0x07 ∧ bits (bctArgs (bctWord 7 1)) 1 0 = 1 ∧ bits (bctArgs (bctWord 7 3)) 1 0 = 3 ∧ bits (bctArgs (bctWord 7 2)) 1 0 = 2
      ∧ bits (bctArgs (bctWord 7 0)) 1 0 = 0 ∧ (bctCores 7 1 runningCtx).dev.coresRun 0
      ∧ ((bctFirst 7 2 runningCtx).dev.ctx 0).entering = false
      ∧ (∀ r ∈ ((bctFirst 7 2 runningCtx).dev.ctx 0).regions, r.replay = none ∧ r.parked = false))
    ∧ (bctOp (bctWord 8 0) = 0x08 ∧ ((bctFirst 8 0 { clearCtx with state := .failed }).dev.ctx 0).state = .failed
      ∧ ((bctFirst 8 0 runningCtx).dev.ctx 0).state ≠ .loaded ∧ ((bctFirst 8 0 runningCtx).dev.ctx 0).state ≠ .failed)
    ∧ (bctOp (bctWord 9 0) = 0x09 ∧ ((bctCores 9 0 runningCtx).dev.ctx 0).opBusy = false
      ∧ (bctCores 9 0 runningCtx).dev.gearLoadCheck 0 (bits (bctArgs (bctWord 9 0)) 3 0) (bits (bctArgs (bctWord 9 0)) 39 8) = none
      ∧ ((bctFirst 9 0 { runningCtx with reshard := opRuns }).dev.ctx 0).opBusy = true)
    ∧ (bctOp (bctWord 10 0) = 0x0A ∧ ((bctFirst 10 0 { clearCtx with state := .loaded }).dev.ctx 0).state = .loaded
      ∧ ((bctFirst 10 0 runningCtx).dev.ctx 0).state ≠ .loaded)
    ∧ (bctOp (bctWord 11 0) = 0x0B ∧ (bctCores 11 0 runningCtx).dev.ckptCheck 0 (bits (bctArgs (bctWord 11 0)) 31 0) = none
      ∧ ((bctCores 11 0 runningCtx).dev.ctx 0).opBusy = false ∧ (bctCores 11 0 runningCtx).dev.coresRun 0
      ∧ ((bctCores 11 0 runningCtx).dev.ctx 0).gateReq = none ∧ ((bctFirst 11 0 { runningCtx with ckpt := opRuns }).dev.ctx 0).opBusy = true)
    ∧ (bctOp (bctWord 12 0x100) = 0x0C ∧ bit (bctArgs (bctWord 12 0x100)) 8 = true ∧ bit (bctArgs (bctWord 12 0)) 8 = false
      ∧ nmGet ((bctFirst 12 0x100 { clearCtx with windows := hostWin }).dev.ctx 0).windows 0 = some ⟨0, 0x20000, 7, true, true⟩
      ∧ bits (bctArgs (bctWord 12 0x100)) 127 64 + 64 ≤ (⟨0, 0x20000, 7, true, true⟩ : HostWin).length
      ∧ nmGet ((bctFirst 12 0x100 clearCtx).dev.ctx 0).windows (bits (bctArgs (bctWord 12 0x100)) 7 0) = none)
    ∧ (bctOp (bctWord 13 0) = 0x0D ∧ ((bctFirst 13 0 { clearCtx with load := opRuns }).dev.ctx 0).load.busy = true
      ∧ ((bctFirst 13 0 { clearCtx with gearLoad := opRuns }).dev.ctx 0).load.busy = false
      ∧ ((bctFirst 13 0 { clearCtx with gearLoad := opRuns }).dev.ctx 0).gearLoad.busy = true
      ∧ ((bctFirst 13 0 { clearCtx with reshard := opRuns }).dev.ctx 0).gearLoad.busy = false
      ∧ ((bctFirst 13 0 { clearCtx with reshard := opRuns }).dev.ctx 0).reshard.busy = true
      ∧ ((bctFirst 13 0 clearCtx).dev.ctx 0).opBusy = false) := by
  refine ⟨rfl, rfl, rfl, by decide, by decide, by decide, by decide, by decide, by decide, ⟨by decide, by decide, by decide, by decide, by decide⟩,
    ⟨by decide, by decide, by decide⟩, ⟨by decide, by decide, by decide⟩, ⟨by decide, rfl, ?_, by decide, by decide, by decide⟩, ⟨by decide, rfl, by decide, by decide, by decide⟩,
    ⟨by decide, by decide, by decide, by decide, by decide, bctCores_run 7 1 runningCtx, rfl, ?_⟩, ⟨by decide, rfl, by decide, by decide⟩,
    ⟨by decide, rfl, by decide +kernel, rfl⟩, ⟨by decide, rfl, by decide⟩,
    ⟨by decide, by decide +kernel, rfl, bctCores_run 11 0 runningCtx, rfl, rfl⟩, ⟨by decide, by decide, by decide, rfl, by decide, by decide⟩,
    ⟨by decide, rfl, rfl, rfl, rfl, rfl, rfl⟩⟩
  · intro v h; cases h
  · intro r h; rw [List.mem_singleton.1 h]; exact ⟨rfl, rfl⟩

/-- A steering rule: port 5000, IPv4, handler 1, context 0, ring 2 of core (1, 0), 100 units. -/
def steerRule : Nat := 5000 + 2 ^ 16 + 1 * 2 ^ 64 + 2 * 2 ^ 80 + 1 * 2 ^ 84 + 100 * 2 ^ 92

/-- A datagram that it matches. -/
def gram : Datagram := ⟨false, false, 0x0A000001, 0x0A000002, 7, 5000, none, 3, [1#8, 2#8]⟩

/-- A RUNNING context that the rule serves. -/
def steering : State := served fun d => { d with
  objs := nmSet (nmSet d.objs (okey 0x2800 2) 2) (okey 0x2800 4) 0x0A000002
  ctxs := [(0, runningCtx)], eth := { d.eth with steerCur := [(4, steerRule)] } }

/-- A reply of two bytes on send queue 1, or one whose length disagrees with its field. -/
def reply1 (len : Nat) : ReplyMsg :=
  ⟨0, 1, ⟨{ hdrOf 0#128 with length := len }, [5#128, BitVec.ofNat 128 (2 * 2 ^ 32), 0x0201#128]⟩, 0⟩

/-- The port, up or down, with the reply waiting. -/
def replying (up len : Nat) : State := served fun d => { d with objs := nmSet d.objs (okey 0x2800 2) up, sendq := [reply1 len] }

theorem witness_SteeredTraffic : clocked steering ∧ steering.dev.steerCheck 1 = none ∧ steering.dev.portUp = true ∧ gram.fragment = false ∧ gram.dst ≠ 0
    ∧ gram.dst = steering.dev.objD 0x2800 (if gram.ipv6 then 5 else 4) 0
    ∧ (steering.dev.eth.steerCur.find? fun p => ruleMatches p.2 gram) = some (4, steerRule) ∧ gram.payload.length ≤ 4048
    ∧ (steering.dev.ctx (bits steerRule 61 48)).state = .running ∧ (steering.dev.ctx (bits steerRule 61 48)).entering = false
    ∧ (nmGet steering.dev.eth.out 4).getD 0 + 3 + ceilDiv gram.payload.length 16 ≤ bits steerRule 103 92
    ∧ steering.dev.steerBytes + 16 * (3 + ceilDiv gram.payload.length 16) ≤ steering.dev.objD 0x2803 4 256 * 2 ^ 20
    ∧ (replying 2 4).dev.oldestReply 1 = some (reply1 4) ∧ (replying 2 4).dev.portUp = true ∧ replyFits (reply1 4).msg = true
    ∧ (replying 2 9).dev.oldestReply 1 = some (reply1 9) ∧ replyFits (reply1 9).msg = false ∧ (replying 0 4).dev.portUp = false
    ∧ (⟨0xF0, 1⟩ : CoreId).x = 0xF0 ∧ ((moving (runs (getCmd desc64))).dev.core ⟨0, 0⟩).ctx = some 0
    ∧ (steering.dev.eth.steerCur.filter fun p => bit p.2 16 && bits p.2 61 48 = 0 && bits p.2 71 64 = 1 && bits p.2 79 72 = 0 && bits p.2 83 80 = 2)
        = [(4, steerRule)] ∧ nmGet ({ steering.dev.eth with out := [(4, 7)] } : Eth).out 4 = some 7 := by
  refine ⟨rfl, by decide +kernel, by decide, rfl, by decide, by decide, by decide, by decide, by decide, by decide, by decide, by decide, rfl, by decide, by decide,
    rfl, by decide, by decide, rfl, rfl, by decide, rfl⟩

/-! ### Witnesses: power, clocks, boot and images -/

/-- The device with its power state as p makes it. -/
def powered (p : Pow → Pow) : State := onDev' fun d => { d with pow := p d.pow }

theorem witness_ResetsAndSupplies : (powered fun p => { p with pwrGood := true, tripped := false }).dev.pow.pwrGood = true
    ∧ (powered fun p => { p with pwrGood := true, tripped := false }).dev.pow.tripped = false
    ∧ (powered fun p => { p with pwrGood := true, tripped := false, stopped := true }).dev.pow.stopped = true
    ∧ clocked (served id) ∧ (served id).dev.objD 0x6105 3 0 ≠ 1 ∧ (served fun d => { d with objs := nmSet d.objs (okey 0x6105 3) 1 }).dev.objD 0x6105 3 0 = 1
    ∧ 15 < 16 ∧ (powered fun p => { p with tapState := 3, tapInstr := 0 }).dev.pow.tapState = 3
    ∧ (powered fun p => { p with tapState := 3, tapInstr := 1 }).dev.pow.tapInstr = 1 ∧ (powered fun p => { p with tapState := 15 }).dev.pow.tapState = 15
    ∧ 31 < 32 ∧ (powered fun p => { p with railBad := false }).dev.pow.railBad = false ∧ (powered fun p => { p with railFault := false }).dev.pow.railFault = false
    ∧ (powered fun p => { p with railFault := true, pcyc := 0 }).dev.pow.railFault = true
    ∧ (powered fun p => { p with railFault := true, pcyc := 0 }).dev.inService = false
    ∧ (powered fun p => { p with railFault := true, pcyc := 0 }).dev.pow.pcyc = 0
    ∧ (powered fun p => { p with lockFail := false }).dev.pow.lockFail = false ∧ (powered fun p => { p with lockFail := true }).dev.pow.lockFail = true := by
  refine ⟨rfl, rfl, rfl, rfl, by decide, by decide, by decide, rfl, rfl, rfl, by decide, rfl, rfl, rfl, by decide, rfl, rfl, rfl⟩

/-- The device in service, grade BX1200, at a clock. -/
def clockedAt (khz : Nat) (p : Pow → Pow) : State := served fun d => { d with
  objs := nmSet (nmSet d.objs (okey 0x2103 1) khz) (okey 0x2100 1) 1900000, pow := p { d.pow with mgmt := 2 }
  sec := { d.sec with fuses := { d.sec.fuses with grade := 1 } } }

theorem witness_PowerAndClocks : clocked (clockedAt 950000 id) ∧ (clockedAt 950000 id).dev.clockCheck 500000 false = none ∧ 500000 ≤ (clockedAt 950000 id).dev.clock
    ∧ (clockedAt 950000 id).dev.clockCheck 1900000 false = none ∧ (clockedAt 950000 id).dev.clock < 1900000
    ∧ (clockedAt 950000 fun p => { p with awaiting := some (1000000, 950000, 700) }).dev.pow.awaiting = some (1000000, 950000, 700)
    ∧ (clockedAt 950000 fun p => { p with vcoreMet := false }).dev.pow.awaiting = none ∧ (clockedAt 950000 id).dev.pow.mgmt = 2
    ∧ (clockedAt 950000 id).dev.objD 0x2100 0xB 0 ≠ 1 ∧ (clockedAt 950000 fun p => { p with vcoreMet := false }).dev.clock ≠ (clockedAt 950000 id).dev.askedClock
    ∧ (clockedAt 950000 fun p => { p with vcoreMet := false }).dev.pow.vcoreMet = false
    ∧ (clockedAt 950000 id).dev.objD 0x2100 4 (clockedAt 950000 id).dev.gradePower < 1201 ∧ (clockedAt 950000 id).dev.objD 0x2100 6 0 ≠ 1
    ∧ 98 * (clockedAt 950000 id).dev.objD 0x2100 4 (clockedAt 950000 id).dev.gradePower ≤ 100 * 1176
    ∧ 1176 ≤ (clockedAt 950000 id).dev.objD 0x2100 4 (clockedAt 950000 id).dev.gradePower ∧ 15 ≤ 15
    ∧ (((withCtx runningCtx).dev.ctx 0).image.regions.find? fun q => q.region = 0) = some region1 ∧ ([c0] : List CoreId) ≠ [] ∧ c0.x < 64 := by
  refine ⟨rfl, by decide, by decide, by decide, by decide, rfl, rfl, rfl, by decide, by decide, rfl, by decide, by decide, by decide, by decide, by decide, rfl, by decide, by decide⟩

/-- A signed image without a body: kind, issuer, and zeros for its digests and signature. -/
def image0 (kind issuer : Nat) : List Byte := natLe (0x100 + kind * 2 ^ 16 + issuer * 2 ^ 24) 128 ++ List.replicate 4627 0#8

theorem natLe_length (k v : Nat) : (natLe v k).length = k := by
  induction k generalizing v with
  | zero => rfl
  | succ k ih => rw [natLe, List.length_cons, ih]

theorem image0_length (kind issuer : Nat) : (image0 kind issuer).length = 4755 := by
  have h1 := natLe_length 128 (0x100 + kind * 2 ^ 16 + issuer * 2 ^ 24)
  rw [image0, List.length_append, h1, List.length_replicate]

theorem image0_parts (kind issuer : Nat) : imageOf (image0 kind issuer) =
    ⟨natLe (0x100 + kind * 2 ^ 16 + issuer * 2 ^ 24) 128, List.replicate 4627 0#8, []⟩ := by
  have h1 := natLe_length 128 (0x100 + kind * 2 ^ 16 + issuer * 2 ^ 24)
  have h2 := image0_length kind issuer
  have h3 : (List.replicate 4627 (0#8 : Byte)).take 4627 = List.replicate 4627 0#8 := List.take_of_length_le (Nat.le_of_eq List.length_replicate)
  unfold imageOf
  rw [List.drop_of_length_le (Nat.le_of_eq h2), image0, List.take_left' h1, List.drop_left' h1, h3]

/-- Fuses of an owned part whose Laniwaing digest is 0. -/
def fuses0 (lc : Nat) : Fuses := ⟨9, 1, 0, 0, 0, lc, 0, 0, 0, 0⟩

/-- The device in service with those fuses. -/
def fused (lc : Nat) : State := served fun d => { d with sec := { d.sec with fuses := fuses0 lc }, pow := { d.pow with mgmt := 2 } }

/-- Every digest is 0 and every signature counts: the hypotheses under which the images of these witnesses pass. -/
theorem image0_ok (hd : ∀ b, Config.sha3 b = 0#512) (hs : ∀ a b c, Config.sigOk a b c = true) (sec : Sec) (hf : sec.fuses = fuses0 2) (kind : Nat)
    (hk : kind = 1 ∨ kind = 2 ∨ kind = 3) : sec.imageCheck kind (imageOf (image0 kind (if kind = 3 then 1 else 0))) = none := by
  have hl : (List.replicate 4627 (0#8 : Byte)).length = 4627 := List.length_replicate
  rw [image0_parts]
  unfold Sec.imageCheck Fuses.lwSigned SignedImage.svn SignedImage.hdr Fuses.svn
  simp only [hd, hs, hf, hl]
  rcases hk with h | h | h <;> subst h <;> decide +kernel

theorem witness_BootAndImages (hd : ∀ b, Config.sha3 b = 0#512) (hs : ∀ a b c, Config.sigOk a b c = true) : clocked (fused 2)
    ∧ (fused 2).dev.sec.imageCheck 1 (imageOf (image0 1 0)) = none ∧ (fused 2).dev.sec.imageCheck 2 (imageOf (image0 2 0)) = none
    ∧ (fused 2).dev.sec.imageCheck 3 (imageOf (image0 3 1)) = none ∧ (fused 2).dev.sec.imageCheck 1 (imageOf []) = some cUnsupportedVersion
    ∧ 7 < 8 ∧ (fused 2).dev.objD 0x5000 3 0 = 0 ∧ (fused 2).dev.schedWait = 0 ∧ image0 3 1 ≠ [] ∧ (fused 2).dev.sec.fuses.lc = 2
    ∧ ({ (fused 2).dev.sec with loaded := [7] } : Sec).loaded.contains 7 = true ∧ (List.replicate 7219 (0#8 : Byte)).length = 7219
    ∧ Config.sigOk (fused 2).dev.sec.store.ownerRoot (Config.sha3 ((List.replicate 7219 0#8).take 2592)) ((List.replicate 7219 0#8).drop 2592) = true
    ∧ (powered fun p => { p with mgmt := 0 }).dev.pow.mgmt = 0 ∧ (powered fun p => { p with railBad := false }).dev.pow.railBad = false
    ∧ ({ (fused 2).dev.sec with store := { (fused 2).dev.sec.store with mgmt := ⟨some (imageOf (image0 1 0)), none, false, false, true, true⟩ } } : Sec).store.mgmt.at_ false
        = some (imageOf (image0 1 0))
    ∧ (powered fun p => { p with mgmt := 1 }).dev.pow.mgmt = 1 ∧ (fused 2).dev.sec.fuses.lc < 3
    ∧ (served fun d => { d with objs := [(okey 0x2104 2, 3)] }).dev.objD 0x2104 2 1 = 3 ∧ (served fun d => { d with objs := [(okey 0x2104 2, 2)] }).dev.objD 0x2104 2 1 = 2
    ∧ (powered fun p => { p with mgmt := 1 }).dev.sec.store.saved = [] ∧ (powered fun p => { p with mgmt := 1 }).dev.sec.store.resets = []
    ∧ (powered fun p => { p with mgmt := 1 }).dev.sec.fuses.lc < 3 ∧ 1 ≤ 3 ∧ 3 ≤ 3 := by
  refine ⟨rfl, image0_ok hd hs _ rfl 1 (by decide), image0_ok hd hs _ rfl 2 (by decide), image0_ok hd hs _ rfl 3 (by decide), ?_, by decide, by decide, rfl, ?_,
    rfl, rfl, List.length_replicate, hs _ _ _, rfl, rfl, rfl, rfl, by decide, rfl, rfl, rfl, rfl, by decide, by decide, by decide⟩
  · simp [Sec.imageCheck, imageOf, SignedImage.hdr, firstFail, leNat, bits]
  · intro h
    have h2 := image0_length 3 1
    rw [h] at h2
    exact absurd h2 (by decide)


/-! ### Witnesses: the life cycle, the dictionary and its protocol -/

/-- An open session 1 of a role, changed by f. -/
def sess (role : Nat) (f : Session → Session) : Session := f
  { id := 1, key := 0, role := role, path := ⟨0, 5⟩, isOpen := true, transcript := 0, keyC2d := 0, keyD2c := 0, highest := 0, seen := [], nextSeq := 0,
    lastUse := 0, stage := [], kept := [], subs := [], notes := [], seg := none, snaps := [], selects := [], nonce := none, rdma := none }

/-- The device in service in a life-cycle state with that session. -/
def inSession (lc role : Nat) (f : Session → Session) : State := served fun d => { d with
  sec := { d.sec with fuses := fuses0 lc }, pow := { d.pow with mgmt := 2 }, dop := { d.dop with sessions := [sess role f] } }

/-- A life-cycle token of a kind with the signatures that a mask names, each of zeros. -/
def token0 (kind given n : Nat) : List Byte := natLe (0x100 + kind * 2 ^ 16 + given * 2 ^ 24 + 9 * 2 ^ 64) 128 ++ List.replicate n 0#8

/-- Such a token passes when every digest is 0 and every signature counts. -/
theorem token0_ok (hd : ∀ b, Config.sha3 b = 0#512) (hs : ∀ a b c, Config.sigOk a b c = true) {sec : Sec} (hf : sec.fuses.serial = 9 ∧ sec.fuses.returns = 0
    ∧ sec.fuses.lwDigest = 0) {kind sigs n : Nat} (h : kind = 1 ∧ sigs = 3 ∧ n = 9254 ∨ kind = 2 ∧ (sigs = 1 ∨ sigs = 2) ∧ n = 4627) :
    sec.tokenCheck kind sigs (token0 kind sigs n) = none := by
  have h1 := natLe_length 128 (0x100 + kind * 2 ^ 16 + sigs * 2 ^ 24 + 9 * 2 ^ 64)
  have h2 : (token0 kind sigs n).length = 128 + n := by rw [token0, List.length_append, h1, List.length_replicate]
  have h3 : (token0 kind sigs n).take 128 = natLe (0x100 + kind * 2 ^ 16 + sigs * 2 ^ 24 + 9 * 2 ^ 64) 128 := by rw [token0, List.take_left' h1]
  unfold Sec.tokenCheck Fuses.lwSigned
  rw [h2, h3]
  simp only [hd, hs, hf]
  rcases h with ⟨h, hk, hn⟩ | ⟨h, hk | hk, hn⟩ <;> subst h <;> subst hk <;> subst hn <;> decide +kernel

theorem witness_LifeCycle (hd : ∀ b, Config.sha3 b = 0#512) (hs : ∀ a b c, Config.sigOk a b c = true) : clocked (inSession 0 3 id)
    ∧ (inSession 0 3 id).dev.pow.mgmt = 2 ∧ (inSession 0 3 id).dev.session? 1 = some (sess 3 id) ∧ 3 ≤ (sess 3 id).role ∧ (inSession 0 3 id).dev.sec.fuses.lc = 0
    ∧ nmGet ({ (inSession 0 3 id).dev.dop with keys := [(0, [])] } : DopSt).keys 0 = some [] ∧ (inSession 1 2 id).dev.sec.fuses.lc = 1 ∧ 2 ≤ (sess 2 id).role
    ∧ (List.replicate 2592 (0#8 : Byte)).length = 2592 ∧ (inSession 2 2 id).dev.sec.fuses.lc = 2
    ∧ (inSession 2 2 id).dev.sec.tokenCheck 1 3 (token0 1 3 9254) = none ∧ (inSession 2 2 id).dev.sec.tokenCheck 2 2 (token0 2 2 4627) = none
    ∧ (inSession 3 3 id).dev.sec.fuses.lc = 3 ∧ (inSession 3 3 id).dev.sec.tokenCheck 2 1 (token0 2 1 4627) = none
    ∧ (List.replicate 64 (0#8 : Byte)).length = 64 ∧ (sess 1 id).role < 2 :=
  ⟨rfl, rfl, rfl, by decide, rfl, rfl, rfl, by decide, List.length_replicate, rfl, token0_ok hd hs ⟨rfl, rfl, rfl⟩ (by decide),
    token0_ok hd hs ⟨rfl, rfl, rfl⟩ (by decide), rfl, token0_ok hd hs ⟨rfl, rfl, rfl⟩ (by decide), List.length_replicate, by decide⟩

/-- The first two objects of index 0x4100 and the Reset-class object 0x1103:01. -/
def objDense : ObjDef := ⟨0x4100, 1, 1, 3, 2, 2, 2, 1, 384, false⟩
def objI3c : ObjDef := ⟨0x1103, 1, 1, 1, 1, 2, 2, 5, 1, false⟩

theorem witness_Dictionary : clocked (fused 2) ∧ (fused 2).dev.takes objDense 0x4100 1 1024 ∧ objDense.apply = 1 ∧ listedIndex objDense.index
    ∧ (fused 2).dev.takes objI3c 0x1103 1 0 ∧ objI3c.apply = 5 ∧ objI3c.index ≠ 0x2B00 ∧ (fused 2).dev.sec.fuses.lc ≠ 4
    ∧ (findObj 0x4100 1 = some objDense ∧ objDense.access = 2 ∧ objDense.isDomain = false ∧ 1025 < 256 ^ objDense.len ∧ (objDense.type = 1 → 1025 ≤ 1)
      ∧ (fused 2).dev.valueOk objDense 1 1025 = false)
    ∧ findObj 0x4100 200 = none ∧ findObj 0x8000 1 = none ∧ (ctr 0x4100 3).counter = true
    ∧ (0 < 16 ∧ 16 ≤ 16 ∧ (List.replicate 2600 (0#8 : Byte)).length = 2600 ∧ ((List.replicate 2600 (0#8 : Byte)).headD 0#8).toNat < 3
      ∧ leNat (((List.replicate 2600 (0#8 : Byte)).take 8).drop 1) = 0)
    ∧ nmGet ({ (fused 2).dev.dop with keys := [(15, [])] } : DopSt).keys 15 ≠ none := by
  refine ⟨rfl, ⟨by decide +kernel, rfl, rfl, by decide, by decide, by decide⟩, rfl, Or.inl rfl,
    ⟨by decide +kernel, rfl, rfl, by decide, by decide, by decide⟩, rfl, by decide, by decide,
    ⟨by decide +kernel, rfl, rfl, by decide, by decide, by decide⟩, by decide +kernel, by decide +kernel, rfl,
    ⟨by decide, by decide, List.length_replicate, ?_, ?_⟩, by decide⟩
  · rw [List.replicate_succ]; decide
  · rw [List.take_replicate, List.drop_replicate, leNat_zeros]

/-- An operation record on an object. -/
def op (index sub length arg : Nat) : OpRec := ⟨1, false, false, false, false, 0, index, sub, length, arg, 77⟩

/-- A staged write of 0x4100:01. -/
def staged1 : Staged := ⟨0x4100, 1, 5, [], false, false, 76, false⟩

/-- Object 0x1000:01. -/
def objArch : ObjDef := ⟨0x1000, 1, 1, 12, 16, 0, 0, 0, 1907970636974308352332, false⟩

theorem asks_of (f : Session → Session) (r : OpRec) (h : ((sess 2 f).kept.find? fun k => k.reqId = r.reqId) = none := by rfl)
    (hr : opReserved r = false := by decide) (hi : (sess 2 f).id = 1 := by rfl) (ho : (sess 2 f).isOpen = true := by rfl) :
    (inSession 2 2 f).dev.asks 1 (sess 2 f) r := by
  refine ⟨rfl, ?_, h, hr⟩
  show ([sess 2 f].find? fun s => s.id = 1 && s.isOpen) = some (sess 2 f)
  simp [hi, ho]

theorem witness_Operations : clocked (inSession 2 2 id) ∧ (inSession 2 2 id).dev.asks 1 (sess 2 id) (op 0x4100 1 2 0)
    ∧ findObj (op 0x4100 1 2 0).index (op 0x4100 1 2 0).sub = some objDense ∧ objDense.role ≤ (sess 2 id).role ∧ objDense.isDomain = false ∧ objDense.access = 2
    ∧ (op 0x4100 1 2 0).stage = false ∧ (inSession 2 2 id).dev.takes objDense 0x4100 1 (leNat [1#8, 0#8]) ∧ [1#8, 0#8].length = objDense.len
    ∧ objDense.apply = 1 ∧ listedIndex objDense.index ∧ (op 0x4100 1 2 0).quiesce = false
    ∧ (inSession 2 2 id).dev.asks 1 (sess 2 id) { op 0x4100 1 2 0 with stage := true } ∧ (sess 2 id).stage.length < 64
    ∧ (inSession 2 2 fun w => { w with stage := [staged1] }).dev.asks 1 (sess 2 fun w => { w with stage := [staged1] }) (op 0 0 0 0)
    ∧ (sess 2 fun w => { w with stage := [staged1] }).stage ≠ []
    ∧ (inSession 2 2 fun w => { w with stage := [staged1] }).dev.stagedWell (sess 2 fun w => { w with stage := [staged1] }) staged1
    ∧ (inSession 2 2 id).dev.asks 1 (sess 2 id) (op 0 0 0 0) ∧ (sess 2 id).stage = []
    ∧ ((sess 2 fun w => { w with kept := [⟨77, 0, 0, []⟩] }).kept.find? fun k => k.reqId = (op 0x4100 1 2 0).reqId) = some ⟨77, 0, 0, []⟩
    ∧ findObj 0x1000 1 = some objArch ∧ objArch.role = 0 ∧ objArch.isDomain = false ∧ objArch.access = 0 ∧ opReserved (op 0x1000 1 0 0) = false
    ∧ ¬(0x1100 ≤ 0x1000 ∧ 0x1000 < 0x1200) ∧ ¬(0x7000 ≤ 0x1000 ∧ 0x1000 < 0x7100) ∧ (served id).dev.objD 0x1100 3 0 = 0
    ∧ (served fun d => { d with objs := (okey 0x1100 3, 1) :: d.objs }).dev.objD 0x1100 3 0 ≠ 0 := by
  refine ⟨rfl, asks_of _ _, by decide +kernel, by decide, rfl, rfl, rfl, ⟨by decide +kernel, rfl, rfl, by decide, by decide, by decide⟩, rfl, rfl, Or.inl rfl, rfl,
    asks_of _ _, by decide, asks_of _ _, List.cons_ne_nil _ _,
    ⟨rfl, rfl, objDense, ⟨by decide +kernel, rfl, rfl, by decide, by decide, by decide⟩, rfl, Or.inl rfl, by decide⟩, asks_of _ _, rfl, rfl,
    by decide +kernel, rfl, rfl, rfl, by decide, by decide, by decide, rfl, by decide⟩

/-- A client key of three bytes at position 1. -/
def withKey (f : Session → Session) : State := { inSession 2 2 f with dev :=
  { (inSession 2 2 f).dev with dop := { (inSession 2 2 f).dev.dop with keys := [(0, [1#8, 2#8, 3#8])] } } }

/-- Objects 0x1101:01 and 0x2A01:03. -/
def objKeys : ObjDef := ⟨0x1101, 1, 16, 14, 2600, 2, 2, 1, 0, false⟩
def objRoute : ObjDef := ⟨0x2A01, 3, 3, 14, 8192, 2, 2, 3, 0, false⟩

/-- Queue pair 16384 in RTS. -/
def rdmaReady : State := { withKey id with dev := { (withKey id).dev with eth := { (withKey id).dev.eth with qps := [(16384, { clearQp with state := 1 })] } } }

theorem witness_DomainTransfers : clocked (withKey id) ∧ (withKey id).dev.session? 1 = some (sess 2 id) ∧ (withKey id).dev.asks 1 (sess 2 id) (op 0x1101 1 2 0)
    ∧ findObj 0x1101 1 = some objKeys ∧ objKeys.role ≤ (sess 2 id).role ∧ objKeys.isDomain = true ∧ objKeys.access = 2
    ∧ 0x1101 ≠ 0x7000 ∧ 0x1101 ≠ 0x5103 ∧ 0x1101 ≠ 0x7004 ∧ 2 < (((withKey id).dev.asSeenBy (sess 2 id)).domainRead 0x1101 1).length
    ∧ ((sess 2 fun w => { w with snaps := [⟨0x1101, 1, [1#8, 2#8, 3#8]⟩] }).snaps.find? fun n => n.index = 0x1101 && n.sub = 1)
        = some ⟨0x1101, 1, [1#8, 2#8, 3#8]⟩ ∧ (op 0x1101 1 2 2).arg ≠ 0
    ∧ ((natLe (3 * 2 ^ 128) 24).length = 24 ∧ bits (leNat (natLe (3 * 2 ^ 128) 24)) 127 96 = 0 ∧ bit (op 0x1101 1 0 0).arg 8 = false ∧ (sess 2 id).rdma = none
      ∧ (rdmaReady.dev.qp (16384 + bits (op 0x1101 1 0 0).arg 7 0)).state = 1
      ∧ ((rdmaReady.dev.asSeenBy (sess 2 id)).domainRead 0x1101 1).length ≤ bits (leNat (natLe (3 * 2 ^ 128) 24)) 191 128)
    ∧ (objKeys.takesDomain = true ∧ [7#8].length = (op 0x1101 1 1 0).length ∧ (op 0x1101 1 1 0).arg + 1 ≤ objKeys.len ∧ (sess 2 id).seg = none
      ∧ (op 0x1101 1 1 0).last = false)
    ∧ (findObj 0x2A01 3 = some objRoute ∧ objRoute.takesDomain = true ∧ (List.replicate 1024 (0#8 : Byte)).length = 1024 ∧ 7168 + 1024 ≤ objRoute.len
      ∧ (sess 2 fun w => { w with seg := some ⟨0x2A01, 3, List.replicate 7168 0#8⟩ }).seg = some ⟨0x2A01, 3, List.replicate 7168 0#8⟩
      ∧ (List.replicate 7168 (0#8 : Byte)).length = 7168 ∧ { op 0x2A01 3 1024 7168 with last := true }.last = true
      ∧ (List.replicate 7168 (0#8 : Byte) ++ List.replicate 1024 0#8).length = 8192)
    ∧ ((sess 2 fun w => { w with rdma := some (16384, false, 0x1101, 1, 77), snaps := [⟨0x1101, 1, [1#8]⟩] }).snaps.find? fun x =>
        x.index = 0x1101 && x.sub = 1) = some ⟨0x1101, 1, [1#8]⟩
    ∧ (sess 2 fun w => { w with rdma := some (16384, true, 0x2A01, 3, 77) }).rdma = some (16384, true, 0x2A01, 3, 77)
    ∧ ((op 0x1101 0 0 0x1102).cancel = false ∧ (op 0x1101 0 0 0x1102).index ≤ (op 0x1101 0 0 0x1102).arg % 65536 ∧ (sess 2 id).subs.length < 16)
    ∧ { op 0 0 0 0 with cancel := true }.cancel = true
    ∧ ([(⟨9, 0x1101, 0, 0, 0, false, 4⟩ : Note)].find? fun m => m.seq = 9) = some ⟨9, 0x1101, 0, 0, 0, false, 4⟩
    ∧ (⟨9, 0x1101, 0, 0, 0, false, 4⟩ : Note).sent < 5 ∧ 5 ≤ (⟨9, 0x1101, 0, 0, 0, false, 5⟩ : Note).sent := by
  refine ⟨rfl, rfl, ⟨rfl, rfl, rfl, by decide⟩, by decide +kernel, by decide, rfl, rfl, by decide, by decide, by decide, by decide, rfl, by decide,
    ⟨rfl, by decide +kernel, by decide, rfl, rfl, by decide +kernel⟩, ⟨rfl, rfl, by decide, rfl, rfl⟩,
    ⟨by decide +kernel, rfl, List.length_replicate, by decide, rfl, List.length_replicate, rfl, ?_⟩, rfl, rfl,
    ⟨rfl, by decide, by decide⟩, rfl, by decide, by decide, by decide⟩
  rw [List.length_append, List.length_replicate, List.length_replicate]

/-- A HELLO under the client key of index 0 for role 0 at serial number 9. -/
def hello0 : List Byte := List.replicate 40 0#8 ++ natLe 9 8 ++ List.replicate 6195 0#8

/-- A fragment of one byte: message type, session 1, sequence number 5, fragment `frag` of `last` + 1. -/
def fragHead (kind frag last msg : Nat) : List Byte :=
  natLe (0x100 + kind * 2 ^ 16 + 2 ^ 32 + 5 * 2 ^ 64 + frag * 2 ^ 128 + last * 2 ^ 136 + msg * 2 ^ 144 + 0xFFFF * 2 ^ 160 + 2 ^ 192) 32

/-- The fragment with the tag that the session's key gives. -/
def fragTagged (frag last msg : Nat) : List Byte :=
  (fragHead 0x10 frag last msg ++ [6#8]) ++ natLe (Config.kmac 0 (bytesNat (fragHead 0x10 frag last msg ++ [6#8])) 256 (asciiNat "DOP tag")) 32

theorem fragTagged_parts (frag last msg : Nat) : (fragTagged frag last msg).length = 65 ∧ (fragTagged frag last msg).take 32 = fragHead 0x10 frag last msg
    ∧ (fragTagged frag last msg).take 33 = fragHead 0x10 frag last msg ++ [6#8]
    ∧ (fragTagged frag last msg).drop 33 = natLe (Config.kmac 0 (bytesNat (fragHead 0x10 frag last msg ++ [6#8])) 256 (asciiNat "DOP tag")) 32 := by
  have h1 : (fragHead 0x10 frag last msg).length = 32 := natLe_length _ _
  have h2 : (fragHead 0x10 frag last msg ++ [6#8]).length = 33 := by rw [List.length_append, h1]; rfl
  refine ⟨?_, ?_, ?_, ?_⟩
  · rw [fragTagged, List.length_append, h2, natLe_length]
  · rw [fragTagged, List.append_assoc, List.take_left' h1]
  · rw [fragTagged, List.take_left' h2]
  · rw [fragTagged, List.drop_left' h2]

/-- The checks of a session on a fragment of 65 bytes with a good tag and sequence number 5: none fails, or the number has been seen. -/
theorem sessionFails_of {d : Dev} {h : Nat} {bs : List Byte} {s : Session}
    (hf : (d.dop.sessions.find? fun s => s.id = bits h 63 32 && (s.isOpen || bits h 23 16 = 0x03)) = some s) (hl : bs.length = 65)
    (ht : bs.drop 33 = natLe (Config.kmac s.keyC2d (bytesNat (bs.take 33)) 256 (asciiNat "DOP tag")) 32) (hh : s.highest = 0) (h5 : bits h 127 64 = 5) :
    d.sessionFails h bs = if s.seen.contains 5 then some true else none := by
  unfold Dev.sessionFails
  rw [hf]
  simp only [hl, ← ht, hh, h5]
  simp

theorem fragTagged_checks {frag last msg : Nat} {seen : List Nat} (hb : bits (leNat (fragHead 0x10 frag last msg)) 63 32 = 1
    ∧ bits (leNat (fragHead 0x10 frag last msg)) 127 64 = 5) :
    (inSession 2 2 fun w => { w with seen := seen }).dev.sessionFails (leNat (fragHead 0x10 frag last msg)) (fragTagged frag last msg)
      = if seen.contains 5 then some true else none := by
  have hp := fragTagged_parts frag last msg
  refine sessionFails_of (s := sess 2 fun w => { w with seen := seen }) ?_ hp.1 ?_ rfl hb.2
  · rw [hb.1]; rfl
  · rw [hp.2.2.1]; exact hp.2.2.2

theorem witness_Sessions (hd : ∀ b, Config.sha3 b = 0#512) (hs : ∀ a b c, Config.sigOk a b c = true) : clocked (withKey id) ∧ (withKey id).dev.pow.mgmt = 2
    ∧ (withKey id).dev.helloCheck hello0 = none ∧ (withKey id).dev.helloCheck [] = some cAuthFailed
    ∧ (([sess 2 fun w => { w with isOpen := false }]).find? fun y => y.id = 1 && !y.isOpen) = some (sess 2 fun w => { w with isOpen := false })
    ∧ [] ≠ natLe (Config.kmac (sess 2 fun w => { w with isOpen := false }).keyC2d (sess 2 fun w => { w with isOpen := false }).transcript 256 (asciiNat "DOP finish")) 32
    ∧ (⟨2, 5⟩ : DopPath).kind = 2 ∧ ([] : List Byte).length < 32 ∧ 32 ≤ (fragTagged 0 0 1).length ∧ (fragTagged 0 0 1).take 32 = fragHead 0x10 0 0 1
    ∧ bits (leNat (fragHead 0x10 0 0 1)) 175 160 = 0xFFFF ∧ bits (leNat (fragHead 0x10 0 0 1)) 15 8 = 1 ∧ bits (leNat (fragHead 0x10 0 0 1)) 31 26 = 0
    ∧ bits (leNat (fragHead 0x10 0 0 1)) 255 208 = 0 ∧ bits (leNat (fragHead 0x10 0 0 1)) 23 16 ∈ [0x03, 0x04, 0x10, 0x11, 0x12]
    ∧ bit (leNat (fragHead 0x10 0 0 1)) 24 = false ∧ fragShape (leNat (fragHead 0x10 0 0 1)) 65 true = true ∧ fragShape (leNat (fragHead 0x10 1 1 1025)) 65 true = true
    ∧ (fused 2).dev.sessionFails (leNat (fragHead 0x10 0 0 1)) (fragTagged 0 0 1) = some false
    ∧ (inSession 2 2 fun w => { w with seen := [5] }).dev.sessionFails (leNat (fragHead 0x10 0 0 1)) (fragTagged 0 0 1) = some true
    ∧ (inSession 2 2 fun w => { w with seen := [] }).dev.sessionFails (leNat (fragHead 0x10 0 0 1)) (fragTagged 0 0 1) = none
    ∧ (inSession 2 2 fun w => { w with seen := [] }).dev.sessionFails (leNat (fragHead 0x10 1 1 1025)) (fragTagged 1 1 1025) = none
    ∧ (inSession 2 2 fun w => { w with seen := [] }).dev.dop.reasm = [] ∧ bits (leNat (fragHead 0x10 0 0 1)) 143 136 = 0
    ∧ 0 < bits (leNat (fragHead 0x10 1 1 1025)) 143 136 := by
  refine ⟨rfl, rfl, ?_, by decide, rfl, ?_, rfl, by decide, ?_, (fragTagged_parts 0 0 1).2.1, by decide +kernel, by decide +kernel, by decide +kernel,
    by decide +kernel, by decide +kernel, by decide +kernel, by decide +kernel, by decide +kernel, rfl, ?_, ?_, ?_, rfl, by decide +kernel, by decide +kernel⟩
  · have h1 : hello0.length = 6243 := by
      rw [hello0, List.length_append, List.length_append, List.length_replicate, List.length_replicate, natLe_length]
    have h2 : (hello0.drop 40).take 8 = natLe 9 8 := by
      rw [hello0, List.append_assoc, List.drop_left' List.length_replicate, List.take_left' (natLe_length 8 9)]
    have h3 : hello0.getD 32 0#8 = 0#8 ∧ hello0.getD 33 0#8 = 0#8 := ⟨rfl, rfl⟩
    unfold Dev.helloCheck
    rw [h1, h2, h3.1, h3.2]
    simp only [hd, hs]
    decide +kernel
  · intro h
    have h2 := congrArg List.length h
    rw [natLe_length] at h2
    exact absurd h2 (by decide)
  · rw [(fragTagged_parts 0 0 1).1]; decide
  · exact fragTagged_checks (by decide +kernel)
  · exact fragTagged_checks (by decide +kernel)
  · exact fragTagged_checks (by decide +kernel)

theorem witness_Sideband : clocked (fused 2) ∧ (fused 2).dev.objD 0x1103 1 1 ≠ 0 ∧ (fused 2).dev.pow.mgmt ≠ 0 ∧ (fused 2).dev.pow.mgmt = 2 ∧ (fused 2).dev.pow.pcyc = 0
    ∧ i3cReads 0x1000 1 = true ∧ findObj 0x1000 1 = some objArch ∧ i3cReads 0x1100 1 = false ∧ ¬(0x6104 = 0x6104 ∧ 2 = 1)
    ∧ ({ (fused 2).dev.dop with i3cLast := some (0, [1#8]) } : DopSt).i3cLast = some (0, [1#8]) := by
  refine ⟨rfl, by decide, by decide, rfl, rfl, by decide, by decide +kernel, by decide, by decide, rfl⟩

theorem witness_StoreFollows : ∃ t, step State.reset = .next t := ⟨_, rfl⟩

theorem witness_EncodeDecode : (Instr.aset c0 ⟨true, 27, 4⟩ 15 31 0xFFFFFFFF#32).wf ∧ (encodeWord (.aset c0 ⟨true, 27, 4⟩ 15 31 0xFFFFFFFF#32)).isSome = true :=
  ⟨by decide, by decide⟩

/-! ### Ill-formed commands -/

/-- The command with its checked operand at the first value outside its range, and at the last inside. -/
def edge (p : (Nat → Instr) × Nat) : Bool := (p.1 (p.2 - 1)).wf && !(p.1 p.2).wf

/-- Records with every field 0. -/
def tm0 : TmulF := ⟨0, 0, 0, 0, 0, false, 0, 0, 0, 0, 0⟩
def ts0 : TmulsF := ⟨0, 0, 0, 0, false, false, 0, 0, 0, 0⟩
def dr0 : DrainF := ⟨0, 0, 0, 0, 0, false, 0, 0, false, 0, 0, 0⟩
def vo0 : VopF := ⟨0, 0, 0, 0, 0, false, 0⟩
def se0 : SendF := ⟨0, 0, 0, 0, false, 0, 0⟩
def rec0 : OpRec := ⟨0, false, false, false, false, 0, 0, 0, 0, 0, 0⟩
def fh0 : FrameHdr := ⟨0, 0, 0, 0, false, 0, 0, 0, 0, 0, 0, 0, 0, 0, 0, 0, 0, 0, 0, true⟩
def ph0 : PktHead := ⟨0, 0, 0, 0, 0, false, false, 0, 0, 0, 0, 0, 0, 0, 0, 0, 0, 0, false⟩
def id0 : IdentRec := ⟨0, 0, 0, 0, 0, 0, 0, 0, 0, 0, 0, 0, 0, 0, 0, 0, 0, 0⟩
def rp0 : RelayPiece := ⟨0, 0, 0, 0, 0, 0, []⟩

/-- A core outside the grid is refused, the last inside is not. -/
theorem test_wf_refuses_core : List.all (α := (Nat → Instr) × Nat) [
    (fun n => .nop ⟨n, 0⟩ g0, 60), (fun n => .nop ⟨0, n⟩ g0, 64), (fun n => .alu ⟨n, 0⟩ g0 0 0 0 0, 60), (fun n => .alui ⟨n, 0⟩ g0 0 0 0 0#32, 60),
    (fun n => .cmp ⟨n, 0⟩ g0 0 0 0 0, 60), (fun n => .cmpi ⟨n, 0⟩ g0 0 0 0 0#32, 60), (fun n => .plog ⟨n, 0⟩ g0 0 0 0 0 false, 60),
    (fun n => .br ⟨n, 0⟩ g0 0 0, 60), (fun n => .brr ⟨n, 0⟩ g0 0 0, 60), (fun n => .ld ⟨n, 0⟩ g0 0 0 0 false false 0#32 0, 60),
    (fun n => .st ⟨n, 0⟩ g0 0 0 0 false 0#32, 60), (fun n => .aset ⟨n, 0⟩ g0 0 0 0#32, 60), (fun n => .aoff ⟨n, 0⟩ g0 0 0 0#32, 60),
    (fun n => .aadd ⟨n, 0⟩ g0 0 0 0#32, 60), (fun n => .amov ⟨n, 0⟩ g0 0 0, 60), (fun n => .aget ⟨n, 0⟩ g0 0 0, 60), (fun n => .ainv ⟨n, 0⟩ g0 0, 60),
    (fun n => .gate ⟨n, 0⟩ g0 false, 60), (fun n => .shift ⟨n, 0⟩ g0 0 false 0, 60), (fun n => .steer ⟨n, 0⟩ g0 0 0, 60),
    (fun n => .chkRead ⟨n, 0⟩ g0 0 0, 60), (fun n => .waitq ⟨n, 0⟩ g0 0 0 false 0, 60), (fun n => .dmaWait ⟨n, 0⟩ g0 0 0, 60),
    (fun n => .accOpen ⟨n, 0⟩ g0 0 0 0 0 0, 60), (fun n => .accClose ⟨n, 0⟩ g0 0, 60), (fun n => .tmul ⟨n, 0⟩ g0 tm0, 60),
    (fun n => .tmuls ⟨n, 0⟩ g0 ts0, 60), (fun n => .accDrain ⟨n, 0⟩ g0 dr0, 60), (fun n => .vop ⟨n, 0⟩ g0 vo0, 60),
    (fun n => .vopLd ⟨n, 0⟩ g0 0 0 false 0#32, 60), (fun n => .vopSt ⟨n, 0⟩ g0 0 0 false 0#32, 60), (fun n => .send ⟨n, 0⟩ g0 se0, 60),
    (fun n => .recvAck ⟨n, 0⟩ g0 0 0, 60), (fun n => .dmaGet ⟨n, 0⟩ g0 0 0, 60), (fun n => .dmaPut ⟨n, 0⟩ g0 0 0, 60),
    (fun n => .tensorCommandStart ⟨n, 0⟩, 60), (fun n => .tensorCommandComplete ⟨n, 0⟩ 0, 60), (fun n => .vectorCommandStart ⟨n, 0⟩, 60),
    (fun n => .vectorCommandComplete ⟨n, 0⟩ 0, 60), (fun n => .checkerVerdict ⟨n, 0⟩ [] [] [] [] 0, 60), (fun n => .sendStart ⟨n, 0⟩, 60),
    (fun n => .recvAckStart ⟨n, 0⟩, 60), (fun n => .rpStoreStart ⟨n, 0⟩, 60), (fun n => .messageCommandComplete ⟨n, 0⟩, 60),
    (fun n => .dmaCommandStart ⟨n, 0⟩, 60), (fun n => .dmaGranuleComplete ⟨n, 0⟩ ⟨.remoteTimeout, 0⟩, 60), (fun n => .lastStatusRead ⟨n, 0⟩ 0, 60),
    (fun n => .hardFault ⟨n, 0⟩, 60), (fun n => .hubStarvationGrant ⟨⟨n, 0⟩, 0⟩, 60), (fun n => .nearStarvationGrant ⟨⟨n, 0⟩, 0⟩, 60),
    (fun n => .eccWriteback ⟨n, 0⟩ 0 0, 60), (fun n => .nearRefresh ⟨⟨n, 0⟩, 0⟩ 0, 60), (fun n => .nearRowMapped ⟨n, 0⟩ [] 0 0, 60),
    (fun n => .verifyBlock ⟨n, 0⟩ [], 60), (fun n => .switchEntryExecute ⟨n, 0⟩, 60), (fun n => .beatArrival ⟨n, 0⟩ 0 .clean, 60),
    (fun n => .steerSkew ⟨n, 0⟩, 60), (fun n => .routerPacketArrival ⟨⟨n, 0⟩, 0⟩ ph0 0 .clean, 60), (fun n => .multicastCompletion ⟨n, 0⟩ 0, 60),
    (fun n => .messageFirstPacket ⟨n, 0⟩ ph0 [], 60), (fun n => .messagePacket ⟨n, 0⟩ ph0 [], 60), (fun n => .reduceRootWrite ⟨n, 0⟩, 60),
    (fun n => .creditReturn ⟨n, 0⟩ 0 0 0 0 0 false 0 0, 60), (fun n => .gearLoadPacket ⟨n, 0⟩ false 0 0 0 0 0 [], 60),
    (fun n => .gearSeal ⟨n, 0⟩ 0 0 0, 60), (fun n => .tableWalkComplete ⟨n, 0⟩ 0 false false, 60), (fun n => .reservedOpcode ⟨⟨n, 0⟩, none⟩, 60)] edge = true := by decide +kernel

/-- A guard or scoreboard number outside its field is refused, the last inside is not. -/
theorem test_wf_refuses_guard : List.all (α := (Nat → Instr) × Nat) [
    (fun n => .nop c0 ⟨false, n, 0⟩, 32), (fun n => .nop c0 ⟨false, 0, n⟩, 8), (fun n => .alu c0 ⟨false, n, 0⟩ 0 0 0 0, 32),
    (fun n => .alui c0 ⟨false, n, 0⟩ 0 0 0 0#32, 32), (fun n => .cmp c0 ⟨false, n, 0⟩ 0 0 0 0, 32), (fun n => .cmpi c0 ⟨false, n, 0⟩ 0 0 0 0#32, 32),
    (fun n => .plog c0 ⟨false, n, 0⟩ 0 0 0 0 false, 32), (fun n => .br c0 ⟨false, n, 0⟩ 0 0, 32), (fun n => .brr c0 ⟨false, n, 0⟩ 0 0, 32),
    (fun n => .ld c0 ⟨false, n, 0⟩ 0 0 0 false false 0#32 0, 32), (fun n => .st c0 ⟨false, n, 0⟩ 0 0 0 false 0#32, 32),
    (fun n => .aset c0 ⟨false, n, 0⟩ 0 0 0#32, 32), (fun n => .aoff c0 ⟨false, n, 0⟩ 0 0 0#32, 32), (fun n => .aadd c0 ⟨false, n, 0⟩ 0 0 0#32, 32),
    (fun n => .amov c0 ⟨false, n, 0⟩ 0 0, 32), (fun n => .aget c0 ⟨false, n, 0⟩ 0 0, 32), (fun n => .ainv c0 ⟨false, n, 0⟩ 0, 32),
    (fun n => .gate c0 ⟨false, n, 0⟩ false, 32), (fun n => .shift c0 ⟨false, n, 0⟩ 0 false 0, 32), (fun n => .steer c0 ⟨false, n, 0⟩ 0 0, 32),
    (fun n => .chkRead c0 ⟨false, n, 0⟩ 0 0, 32), (fun n => .waitq c0 ⟨false, n, 0⟩ 0 0 false 0, 32), (fun n => .dmaWait c0 ⟨false, n, 0⟩ 0 0, 32),
    (fun n => .accOpen c0 ⟨false, n, 0⟩ 0 0 0 0 0, 32), (fun n => .accClose c0 ⟨false, n, 0⟩ 0, 32), (fun n => .tmul c0 ⟨false, n, 0⟩ tm0, 32),
    (fun n => .tmuls c0 ⟨false, n, 0⟩ ts0, 32), (fun n => .accDrain c0 ⟨false, n, 0⟩ dr0, 32), (fun n => .vop c0 ⟨false, n, 0⟩ vo0, 32),
    (fun n => .vopLd c0 ⟨false, n, 0⟩ 0 0 false 0#32, 32), (fun n => .vopSt c0 ⟨false, n, 0⟩ 0 0 false 0#32, 32),
    (fun n => .send c0 ⟨false, n, 0⟩ se0, 32), (fun n => .recvAck c0 ⟨false, n, 0⟩ 0 0, 32), (fun n => .dmaGet c0 ⟨false, n, 0⟩ 0 0, 32),
    (fun n => .dmaPut c0 ⟨false, n, 0⟩ 0 0, 32)] edge = true := by decide +kernel

/-- An instruction field one above its range is refused, the last inside is not. -/
theorem test_wf_refuses_fields1 : List.all (α := (Nat → Instr) × Nat) [
    (fun n => .alu c0 g0 n 0 0 0, 32), (fun n => .alu c0 g0 0 n 0 0, 32), (fun n => .alu c0 g0 0 0 n 0, 32), (fun n => .alu c0 g0 0 0 0 n, 32),
    (fun n => .alui c0 g0 n 0 0 0#32, 32), (fun n => .alui c0 g0 0 n 0 0#32, 32), (fun n => .alui c0 g0 0 0 n 0#32, 32),
    (fun n => .cmp c0 g0 n 0 0 0, 8), (fun n => .cmp c0 g0 0 n 0 0, 32), (fun n => .cmp c0 g0 0 0 n 0, 32), (fun n => .cmp c0 g0 0 0 0 n, 8),
    (fun n => .cmpi c0 g0 n 0 0 0#32, 8), (fun n => .cmpi c0 g0 0 n 0 0#32, 32), (fun n => .cmpi c0 g0 0 0 n 0#32, 8),
    (fun n => .plog c0 g0 n 0 0 0 false, 8), (fun n => .plog c0 g0 0 n 0 0 false, 32), (fun n => .plog c0 g0 0 0 n 0 false, 32),
    (fun n => .plog c0 g0 0 0 0 n false, 8), (fun n => .br c0 g0 n 0, 32), (fun n => .br c0 g0 0 n, 4096), (fun n => .brr c0 g0 n 0, 32),
    (fun n => .brr c0 g0 0 n, 32), (fun n => .ld c0 g0 n 0 0 false false 0#32 0, 32), (fun n => .ld c0 g0 0 n 0 false false 0#32 0, 16),
    (fun n => .ld c0 g0 0 0 n false false 0#32 0, 4), (fun n => .st c0 g0 n 0 0 false 0#32, 32), (fun n => .st c0 g0 0 n 0 false 0#32, 16),
    (fun n => .st c0 g0 0 0 n false 0#32, 4), (fun n => .aset c0 g0 n 0 0#32, 16), (fun n => .aset c0 g0 0 n 0#32, 32),
    (fun n => .aoff c0 g0 n 0 0#32, 16), (fun n => .aoff c0 g0 0 n 0#32, 32), (fun n => .aadd c0 g0 n 0 0#32, 16),
    (fun n => .aadd c0 g0 0 n 0#32, 32), (fun n => .amov c0 g0 n 0, 16), (fun n => .amov c0 g0 0 n, 16), (fun n => .aget c0 g0 n 0, 32),
    (fun n => .aget c0 g0 0 n, 16), (fun n => .ainv c0 g0 n, 16), (fun n => .shift c0 g0 n false 0, 4), (fun n => .shift c0 g0 0 false n, 4096),
    (fun n => .steer c0 g0 n 0, 32), (fun n => .steer c0 g0 0 n, 8), (fun n => .chkRead c0 g0 n 0, 32), (fun n => .chkRead c0 g0 0 n, 8),
    (fun n => .waitq c0 g0 n 0 false 0, 32), (fun n => .waitq c0 g0 0 n false 0, 2), (fun n => .waitq c0 g0 0 0 false n, 65536),
    (fun n => .dmaWait c0 g0 n 0, 32), (fun n => .dmaWait c0 g0 0 n, 256), (fun n => .accOpen c0 g0 n 0 0 0 0, 8),
    (fun n => .accOpen c0 g0 0 n 0 0 0, 256), (fun n => .accOpen c0 g0 0 0 n 0 0, 256), (fun n => .accOpen c0 g0 0 0 0 n 0, 4),
    (fun n => .accOpen c0 g0 0 0 0 0 n, 16), (fun n => .accClose c0 g0 n, 8), (fun n => .tmul c0 g0 { tm0 with fmtA := n }, 16),
    (fun n => .tmul c0 g0 { tm0 with fmtB := n }, 16), (fun n => .tmul c0 g0 { tm0 with aA := n }, 16),
    (fun n => .tmul c0 g0 { tm0 with aB := n }, 16), (fun n => .tmul c0 g0 { tm0 with aS := n }, 16),
    (fun n => .tmul c0 g0 { tm0 with bmode := n }, 4), (fun n => .tmul c0 g0 { tm0 with grp := n }, 8),
    (fun n => .tmul c0 g0 { tm0 with row := n }, 256), (fun n => .tmul c0 g0 { tm0 with rowsM1 := n }, 256),
    (fun n => .tmul c0 g0 { tm0 with sStride := n }, 32), (fun n => .tmuls c0 g0 { ts0 with fmtB := n }, 16),
    (fun n => .tmuls c0 g0 { ts0 with aA := n }, 16), (fun n => .tmuls c0 g0 { ts0 with aB := n }, 16),
    (fun n => .tmuls c0 g0 { ts0 with aS := n }, 16), (fun n => .tmuls c0 g0 { ts0 with grp := n }, 8)] edge = true := by decide +kernel

/-- An instruction field one above its range is refused, the last inside is not. -/
theorem test_wf_refuses_fields2 : List.all (α := (Nat → Instr) × Nat) [
    (fun n => .tmuls c0 g0 { ts0 with row := n }, 256), (fun n => .tmuls c0 g0 { ts0 with budgetM1 := n }, 256),
    (fun n => .tmuls c0 g0 { ts0 with sStride := n }, 32), (fun n => .accDrain c0 g0 { dr0 with fmtOut := n }, 16),
    (fun n => .accDrain c0 g0 { dr0 with aD := n }, 16), (fun n => .accDrain c0 g0 { dr0 with aScale := n }, 16),
    (fun n => .accDrain c0 g0 { dr0 with aBias := n }, 16), (fun n => .accDrain c0 g0 { dr0 with scaleMode := n }, 4),
    (fun n => .accDrain c0 g0 { dr0 with act := n }, 8), (fun n => .accDrain c0 g0 { dr0 with rnd := n }, 4),
    (fun n => .accDrain c0 g0 { dr0 with grp := n }, 8), (fun n => .accDrain c0 g0 { dr0 with row := n }, 256),
    (fun n => .accDrain c0 g0 { dr0 with rowsM1 := n }, 256), (fun n => .vop c0 g0 { vo0 with vd := n }, 32),
    (fun n => .vop c0 g0 { vo0 with va := n }, 32), (fun n => .vop c0 g0 { vo0 with vb := n }, 32), (fun n => .vop c0 g0 { vo0 with vc := n }, 32),
    (fun n => .vop c0 g0 { vo0 with sB := n }, 32), (fun n => .vop c0 g0 { vo0 with fn := n }, 256), (fun n => .vopLd c0 g0 n 0 false 0#32, 32),
    (fun n => .vopLd c0 g0 0 n false 0#32, 16), (fun n => .vopSt c0 g0 n 0 false 0#32, 32), (fun n => .vopSt c0 g0 0 n false 0#32, 16),
    (fun n => .send c0 g0 { se0 with aP := n }, 16), (fun n => .send c0 g0 { se0 with sDest := n }, 32),
    (fun n => .send c0 g0 { se0 with queue := n }, 16), (fun n => .send c0 g0 { se0 with handler := n }, 256),
    (fun n => .send c0 g0 { se0 with length := n }, 512), (fun n => .send c0 g0 { se0 with sUser := n }, 32), (fun n => .recvAck c0 g0 n 0, 16),
    (fun n => .recvAck c0 g0 0 n, 16), (fun n => .dmaGet c0 g0 n 0, 16), (fun n => .dmaGet c0 g0 0 n, 8), (fun n => .dmaPut c0 g0 n 0, 16),
    (fun n => .dmaPut c0 g0 0 n, 8)] edge = true := by decide +kernel

/-- A link, port, queue or other number outside its range is refused, the last inside is not. -/
theorem test_wf_refuses_numbers : List.all (α := (Nat → Instr) × Nat) [
    (fun n => .lastStatusRead c0 n, 4), (fun n => .nearRowMapped c0 [] n 0, 3), (fun n => .eccWriteback c0 n 0, 5), (fun n => .eccWriteback c0 1 n, 32768),
    (fun n => .hubStarvationGrant ⟨c0, n⟩, 3), (fun n => .nearStarvationGrant ⟨c0, n⟩, 3), (fun n => .nearRefresh ⟨c0, n⟩ 0, 3),
    (fun n => .routerPacketArrival ⟨c0, n⟩ ph0 0 .clean, 9), (fun n => .dmaGranuleComplete c0 ⟨.blockFail n false false, 0⟩, 4096),
    (fun n => .dmaGranuleComplete c0 ⟨.moved [] [n] 0, 0⟩, 4), (fun n => .faultFillComplete 0 0 0 ⟨[], [n], 0, none⟩, 4),
    (fun n => .migrationComplete 0 ⟨[], [n], 0, none⟩, 4), (fun n => .reservedOpcode ⟨c0, some ⟨false, n, 0⟩⟩, 32),
    (fun n => .beatArrival c0 n .clean, 5), (fun n => .gearLoadPacket c0 false 0 n 0 0 0 [], 4), (fun n => .gearSeal c0 n 0 0, 4),
    (fun n => .scanOutComplete 0 n, 64), (fun n => .gateSettle 0 n false false, 64), (fun n => .gateTimerExpiry 0 n, 64),
    (fun n => .stepCommit 0 n none, 64), (fun n => .parkWaitTimeout 0 n, 64), (fun n => .groomCellStart n 0, 256),
    (fun n => .groomCellStart 0 n, 256), (fun n => .linkSignalDetect n, 64), (fun n => .linkRetryTimer n, 64), (fun n => .linkTrained n 0, 64),
    (fun n => .linkTrainFailed n, 64), (fun n => .identTimeout n, 64), (fun n => .linkFrameTimeout n, 64), (fun n => .fecEvaluation n false, 64),
    (fun n => .linkPacketFrame n fh0 .empty, 64), (fun n => .linkAckFrame n fh0, 64), (fun n => .linkNakFrame n fh0, 64),
    (fun n => .linkCreditFrame n fh0, 64), (fun n => .linkIdleFrame n fh0, 64), (fun n => .linkAckTimer n, 64), (fun n => .identFrame n fh0 id0, 64),
    (fun n => .identTimer n, 64), (fun n => .markerFrame n fh0 0 0, 64), (fun n => .residencyFrame n fh0 false, 64),
    (fun n => .relayFrame n fh0 rp0, 64), (fun n => .replayRequest n fh0 none, 64), (fun n => .linkRetrain n, 64), (fun n => .linkFence n, 64),
    (fun n => .linkUnfence n, 64), (fun n => .leaseWrite n 0, 256), (fun n => .lldpReceive 0 n, 5), (fun n => .pfcPauseReceive n false, 8),
    (fun n => .dopFragment ⟨n, 0⟩ 0 [] 0, 3), (fun n => .dopReassemblyTimeout ⟨n, 0⟩ 0 0, 3), (fun n => .hello ⟨n, 0⟩ [], 3),
    (fun n => .dopKeysWrite n [], 256), (fun n => .registerWrite n 0 0, 65536), (fun n => .registerWrite 0 n 0, 256), (fun n => .i3cRead n 0, 65536),
    (fun n => .i3cRead 0 n, 256), (fun n => .i3cWrite n 0 [], 65536), (fun n => .i3cWrite 0 n [], 256), (fun n => .sysResetRelease n false, 8),
    (fun n => .cellRowResetRelease n, 32)] edge = true := by decide +kernel

/-- A context number of 15 bits is refused, the last inside is not. -/
theorem test_wf_refuses_ctx : List.all (α := (Nat → Instr) × Nat) [
    (fun n => .scanOutComplete n 0, 16384), (fun n => .faultFillComplete n 0 0 ⟨[], [], 0, none⟩, 16384), (fun n => .remoteFetchTimeout n 0, 16384),
    (fun n => .migrationComplete n ⟨[], [], 0, none⟩, 16384), (fun n => .admission n [] [], 16384), (fun n => .ctxStart n, 16384), (fun n => .ctxStop n, 16384),
    (fun n => .ctxPreemptGate n, 16384), (fun n => .ctxPreemptMid n, 16384), (fun n => .ctxPark n, 16384), (fun n => .ctxUnload n, 16384),
    (fun n => .ctxKill n, 16384), (fun n => .ctxReshardGo n, 16384), (fun n => .ctxReshardCancel n, 16384), (fun n => .quantumExpiry n, 16384),
    (fun n => .preemptWaitExpiry n, 16384), (fun n => .blockTimeout n 0, 16384), (fun n => .policyDecision 0 n 0, 16384),
    (fun n => .drainComplete n, 16384), (fun n => .gateSettle n 0 false false, 16384), (fun n => .gateTimerExpiry n 0, 16384),
    (fun n => .stepCommit n 0 none, 16384), (fun n => .parkWaitTimeout n 0, 16384), (fun n => .reinitContext n, 16384),
    (fun n => .residencyResend n [], 16384), (fun n => .e2eResendTimeout n 0, 16384), (fun n => .ckptPeriodTimer n, 16384),
    (fun n => .buddyAck n 0, 16384), (fun n => .ckptCopyComplete n, 16384), (fun n => .contentsCopyComplete n, 16384)] edge = true := by decide +kernel

/-- A queue pair past the last is refused, the last inside is not. -/
theorem test_wf_refuses_qp : List.all (α := (Nat → Instr) × Nat) [
    (fun n => .reinitQueuePair n, 16640), (fun n => .bctSendReceive n 0 0 0, 16640), (fun n => .bctNop n, 16640), (fun n => .windowSet n, 16640),
    (fun n => .windowClear n, 16640), (fun n => .bctLoad n, 16640), (fun n => .bctStart n, 16640), (fun n => .bctStop n, 16640),
    (fun n => .bctPreempt n, 16640), (fun n => .bctUnload n, 16640), (fun n => .bctGearLoad n, 16640), (fun n => .peerSet n, 16640),
    (fun n => .bctCheckpoint n, 16640), (fun n => .mirror n, 16640), (fun n => .bctCancel n, 16640), (fun n => .statusBlockTimer n, 16640),
    (fun n => .rdmaReadRequest n 0 0 0, 16640), (fun n => .rdmaWriteRequest n, 16640), (fun n => .atomicRequest n, 16640),
    (fun n => .rdmaReadResponse n 0, 16640), (fun n => .qpRetryExhausted n, 16640), (fun n => .cnpReceive n, 16640),
    (fun n => .ecnRecoverTimer n, 16640), (fun n => .roceAckReceive n 0, 16640)] edge = true := by decide +kernel

/-- A frame header field one above its range is refused, the last inside is not. -/
theorem test_wf_refuses_frame : List.all (α := (Nat → Instr) × Nat) [
    (fun n => .linkPacketFrame 0 { fh0 with version := n } .empty, 256), (fun n => .linkPacketFrame 0 { fh0 with kind := n } .empty, 16),
    (fun n => .linkPacketFrame 0 { fh0 with vc := n } .empty, 4), (fun n => .linkPacketFrame 0 { fh0 with sub := n } .empty, 2),
    (fun n => .linkPacketFrame 0 { fh0 with flits := n } .empty, 32), (fun n => .linkPacketFrame 0 { fh0 with seq := n } .empty, 4096),
    (fun n => .linkPacketFrame 0 { fh0 with ack := n } .empty, 4096), (fun n => .linkPacketFrame 0 { fh0 with epoch := n } .empty, 4294967296),
    (fun n => .linkPacketFrame 0 { fh0 with srcDev := n } .empty, 65536), (fun n => .linkPacketFrame 0 { fh0 with srcCtx := n } .empty, 16384),
    (fun n => .linkPacketFrame 0 { fh0 with dstCtx := n } .empty, 16384), (fun n => .linkPacketFrame 0 { fh0 with step := n } .empty, 4294967296),
    (fun n => .linkPacketFrame 0 { fh0 with relIdx := n } .empty, 4294967296), (fun n => .linkPacketFrame 0 { fh0 with credit := n } .empty, 1024),
    (fun n => .linkPacketFrame 0 { fh0 with creditVc := n } .empty, 4), (fun n => .linkPacketFrame 0 { fh0 with creditSub := n } .empty, 2),
    (fun n => .linkPacketFrame 0 { fh0 with poison := n } .empty, 4), (fun n => .linkPacketFrame 0 { fh0 with aux := n } .empty, 281474976710656),
    (fun n => .linkAckFrame 0 { fh0 with version := n }, 256), (fun n => .linkNakFrame 0 { fh0 with version := n }, 256),
    (fun n => .linkCreditFrame 0 { fh0 with version := n }, 256), (fun n => .linkIdleFrame 0 { fh0 with version := n }, 256),
    (fun n => .identFrame 0 { fh0 with version := n } id0, 256), (fun n => .markerFrame 0 { fh0 with version := n } 0 0, 256),
    (fun n => .residencyFrame 0 { fh0 with version := n } false, 256), (fun n => .relayFrame 0 { fh0 with version := n } rp0, 256),
    (fun n => .replayRequest 0 { fh0 with version := n } none, 256)] edge = true := by decide +kernel

/-- An operation field one above its range is refused, the last inside is not. -/
theorem test_wf_refuses_operation : List.all (α := (Nat → Instr) × Nat) [
    (fun n => .read none { rec0 with index := n }, 65536), (fun n => .read none { rec0 with sub := n }, 256),
    (fun n => .read none { rec0 with length := n }, 65536), (fun n => .read none { rec0 with arg := n }, 4294967296),
    (fun n => .read none { rec0 with reqId := n }, 4294967296), (fun n => .write none { rec0 with index := n } [], 65536),
    (fun n => .commit none { rec0 with index := n }, 65536), (fun n => .abort none { rec0 with index := n }, 65536),
    (fun n => .segRead none { rec0 with index := n }, 65536), (fun n => .segWrite none { rec0 with index := n } [], 65536),
    (fun n => .domainRdma none { rec0 with index := n } [], 65536), (fun n => .subscribe none { rec0 with index := n }, 65536),
    (fun n => .describe none { rec0 with index := n }, 65536), (fun n => .ack none { rec0 with index := n }, 65536)] edge = true := by decide +kernel

/-! ### Instruction words, written bit by bit from R101 to R130 -/

/-- Scalar arithmetic: ALUI XOR s7, s3, 0x80000001 guarded on p2 negated (R102). -/
theorem test_decode_alui : decodeWord c0 0 (0b000011#6 ++ 0b1#1 ++ 0b00010#5 ++ 0b000#3 ++ 0b00111#5 ++ 0b00011#5 ++ 0b00100#5 ++ 0b00#2 ++ 0x80000001#32 :
    BitVec 64).toNat = some (.alui c0 ⟨true, 2, 0⟩ 7 3 4 0x80000001#32) := by decide

/-- Control flow: BR with link s9 to instruction 0xABC (R105). -/
theorem test_decode_br : decodeWord c0 0 (0b001000#6 ++ 0b0#1 ++ 0b00000#5 ++ 0b000#3 ++ 0b01001#5 ++ 0#32 ++ 0xABC#12 : BitVec 64).toNat
    = some (.br c0 g0 9 0xABC) := by decide

/-- Addresses: AGET s4, a13 (function 4) (R107). -/
theorem test_decode_aget : decodeWord c0 0 (0b010010#6 ++ 0b0#1 ++ 0b00000#5 ++ 0b000#3 ++ 0b100#3 ++ 0b0000#4 ++ 0b1101#4 ++ 0b00100#5 ++ 0#33 :
    BitVec 64).toNat = some (.aget c0 g0 4 13) := by decide

/-- Tensor unit: the chapter's worked word 0xC002_AA46_0480_3F94 (the example after R130). -/
theorem test_decode_tmul : decodeWord c0 0 0xC002AA4604803F94 = some (.tmul c0 ⟨false, 0, 1⟩ ⟨5, 5, 2, 3, 0, false, 1, 1, 0, 127, 5⟩) := by decide

/-- The same word is stored as the bytes 94 3F 80 04 46 AA 02 C0. -/
theorem test_encode_tmul : (encodeWord (.tmul c0 ⟨false, 0, 1⟩ ⟨5, 5, 2, 3, 0, false, 1, 1, 0, 127, 5⟩)).map (fun w => natLe w 8)
    = some [0x94#8, 0x3F#8, 0x80#8, 0x04#8, 0x46#8, 0xAA#8, 0x02#8, 0xC0#8] := by decide

/-- Vector unit: VOP 0x10 v1, v2, v3 with v4, s5 and bsel (R123). -/
theorem test_decode_vop : decodeWord c0 0 (0b100000#6 ++ 0b0#1 ++ 0b00000#5 ++ 0b000#3 ++ 0b00001#5 ++ 0b00010#5 ++ 0b00011#5 ++ 0b00100#5 ++ 0b00101#5 ++ 0b1#1 ++
    0x10#8 ++ 0#15 : BitVec 64).toNat = some (.vop c0 g0 ⟨1, 2, 3, 4, 5, true, 0x10⟩) := by decide

/-- Message unit: SEND from a6 to the destination in s7, queue 8, handler 0x99, ordered, length 256, user word s10 (R125). -/
theorem test_decode_send : decodeWord c0 0 (0b111000#6 ++ 0b0#1 ++ 0b00000#5 ++ 0b000#3 ++ 0b0110#4 ++ 0b00111#5 ++ 0b1000#4 ++ 0x99#8 ++ 0b1#1 ++ 0b100000000#9 ++
    0b01010#5 ++ 0#13 : BitVec 64).toNat = some (.send c0 g0 ⟨6, 7, 8, 0x99, true, 256, 10⟩) := by decide

/-- DMA: DMA.PUT with its descriptor at a2 on queue 6, naming sb3 (R129). -/
theorem test_decode_dma_put : decodeWord c0 0 (0b111101#6 ++ 0b0#1 ++ 0b00000#5 ++ 0b100#3 ++ 0b0010#4 ++ 0b110#3 ++ 0#42 : BitVec 64).toNat
    = some (.dmaPut c0 ⟨false, 0, 4⟩ 2 6) := by decide

/-- Reserved bits of a word are ignored (R9): a NOP with every own bit set. -/
theorem test_decode_nop_reserved : decodeWord c0 0 (0b000001#6 ++ 0b0#1 ++ 0b00000#5 ++ 0b000#3 ++ BitVec.allOnes 49 : BitVec 64).toNat
    = some (.nop c0 g0) := by decide

/-! ### The specification's worked examples -/

/-- The FP8 dot product of the arithmetic chapter: the six products' exact sum is 7 × 2^-15, on the grid of 2^-18, count 1. -/
theorem test_fp8_dot : rowTree 5 5 false [(0x7E, 0x7E), (0x04, 0x04), (0x04, 0x04), (0x04, 0x04), (0xFE, 0x7E), (0x01, 0x08)] []
    = XA.mk0 56 (-18) 1 := by decide +kernel

/-- Its entry, and its outputs: FP32 0x3960_0000, and E4M3 0x26 under the per-tensor scale 1,000.0. -/
theorem test_fp8_dot_outputs : (XA.mk0 56 (-18) 1).toBits = 0x00000000000000000000_0038_FFEE_0020#128 ∧ toF32 (XA.mk0 56 (-18) 1).num = 0x39600000#32
    ∧ (convertOut 5 0 0 false ((XA.mk0 56 (-18) 1).num.mul (ofF32 0x447A0000#32))).1 = 0x26 := by decide +kernel

/-- Rows of R113: FP8 takes one row cycle, 32-byte A rows and 512-byte B tiles; FP32 takes 12 row cycles; an FP6 row has 48 bytes. -/
theorem test_row_cycles : classCycles 5 = 1 ∧ aRowBytes 5 = 32 ∧ bTileBytes 5 = 512 ∧ classCycles 9 = 12 ∧ aRowBytes 3 = 48 := by decide

/-- The tier-2 example of R307: physical address 0x01234560 lies on controller 2, local 0xC2560, channel 2. -/
theorem test_physical_map : physMap 0x1234560 = (2, 0xC2560, 2) := by decide

/-- The map example of R27: logical columns 0, 10, 11, 12 and 29 of row 7 under the home map and under the replay map. -/
theorem test_row_maps : [0, 10, 11, 12, 29].map (mapColumn (2 ^ 12 + 2 ^ 31)) = [0, 10, 11, 13, 30]
    ∧ [0, 10, 11, 12, 29].map (mapColumn (2 ^ 0 + 2 ^ 12)) = [1, 11, 13, 14, 31] := by decide +kernel

/-- Core (23,15) has k = 3, and its own bank appears at 0x001C_0000 too (R19, R63). -/
theorem test_own_bank : kIndex ⟨23, 15⟩ = 3 ∧ locate ⟨23, 15⟩ 0x001C0000 = locate ⟨23, 15⟩ 0 := by decide

/-- The CSR example of the sparse chapter: body lengths, and its work of 185 cycles sparse or 1,119 dense with a ramp of 32 (R167, R175). -/
theorem test_csr_example : let h : TileHdr := ⟨0, 1, 1, 64, 512, 2000, 6144, 0, 0, 0, 0⟩
    h.csrLen = 6144 ∧ h.denseLen = 32768 ∧ h.sparsePath 384 = true ∧ h.sparsePath 0 = false
      ∧ h.work c0 ⟨1, 0, false, 0, 0⟩ ⟨1, 0, false, 0, 0⟩ 1 384 = (185 - 32, 125) ∧ h.work c0 ⟨1, 0, false, 0, 0⟩ ⟨1, 0, false, 0, 0⟩ 1 0 = (1119 - 32, 1024) := by
  decide

/-- The CRC-64 of the ASCII string 123456789 (R361). -/
theorem test_crc64 : crc64 [0x31#8, 0x32#8, 0x33#8, 0x34#8, 0x35#8, 0x36#8, 0x37#8, 0x38#8, 0x39#8] = 0x62EC59E3F1A4F00A := by decide +kernel

/-! ### Single steps -/

/-- The device after a command. -/
def after (i : Instr) (s : State) : Dev :=
  match exec i s with
  | .next t => t.dev
  | .fault _ => clearDev clearKeep factoryFuses factoryStore
  | .refused _ => clearDev clearKeep factoryFuses factoryStore

/-- ALUI SUB s5, s0, 1 gives all ones, and the next instruction is presented a cycle later (R88, R102). -/
theorem test_alui_wraps : let d := after (.alui c0 g0 5 0 1 1#32) (atCore run0)
    (d.arch c0).regs.sGet 5 = 0xFFFFFFFF#32 ∧ (d.arch c0).stat.pc = 1 ∧ (d.arch c0).stat.cyc = 1 := by decide +kernel

/-- A write to s0 is discarded (R102). -/
theorem test_alui_s0 : ((after (.alui c0 g0 0 0 0 7#32) (atCore run0)).arch c0).regs.sGet 0 = 0#32 := by decide +kernel

/-- MULH and MULHU of all ones by all ones, SRA of the most negative number, and a shift by 33, which is one by 1 (R102). -/
theorem test_alu_corners : aluFn 0x09 0xFFFFFFFF#32 0xFFFFFFFF#32 = 0#32 ∧ aluFn 0x0A 0xFFFFFFFF#32 0xFFFFFFFF#32 = 0xFFFFFFFE#32
    ∧ aluFn 0x07 0x80000000#32 31#32 = 0xFFFFFFFF#32 ∧ aluFn 0x05 3#32 33#32 = 6#32 := by decide

/-- BR to index 9 with link s9 from index 0: the link is 1 (R105). -/
theorem test_br : let d := after (.br c0 g0 9 9) (atCore run0)
    (d.arch c0).stat.pc = 9 ∧ (d.arch c0).regs.sGet 9 = 1#32 := by decide +kernel

/-- A target just past the code of the gear in force is refused with BOUNDS, and the program counter stays (R75, R105). -/
theorem test_br_bounds : let d := after (.br c0 g0 9 15) (atCore run0)
    (d.arch c0).stat.run = .stopped ∧ (d.arch c0).stat.pc = 0 ∧ (d.arch c0).stat.exc.code = 0x0201 := by decide +kernel

/-- A store of two bytes at offset 14 of the 16-byte buffer is within it, little-endian; one at offset 16 is not (R64, R106). -/
theorem test_st_bound : let s := atArch fun a => { a with regs := { a.regs with s := vSet a.regs.s 4 0x0000BEEF#32 } }
    memRead ((after (.st c0 g0 4 1 1 false 14#32) s).core c0).mem.home 14 2 = [0xEF#8, 0xBE#8]
      ∧ ((after (.st c0 g0 4 1 1 false 16#32) s).arch c0).stat.run = .stopped := by decide +kernel

/-- The ACC.OPEN of the tile example, accepted in cycle 0, starts in cycle 0 with the duration 2 (R98, R114). -/
theorem test_acc_open : ((vGet ((after (.tensorCommandStart c0) (withQueue 0 [waits (.accOpen 1 0 127 none)])).arch c0).units 0 clearUnit).queue.map
    fun e => (e.started, e.start, e.dur)) = [(true, 0, 2)] := by decide +kernel

/-- The double-buffering example under R62: the stall from 110 to a TMUL that ends in 1,181, 40 cycles late, has 40 late cycles; the verdict's 32 more cycles have none (R60, R363). -/
theorem test_late_wait : let w := (⟨110, 0, 0, 0, []⟩ : At).waitUnit 0 1181 101 141
    w.cyc = 1181 ∧ w.late = 40 ∧ (w.waitVerdicts [⟨1213, true, false, 0, 101, 141, false, 0, []⟩]).late = 40
      ∧ (w.waitVerdicts [⟨1213, true, false, 0, 101, 141, false, 0, []⟩]).cyc = 1213 := by decide

end Sys2Proof.Tests
end

section
/-! O43: checkpoints are made, sealed and kept (R10, R356, R456 to R461). -/

namespace Sys2Proof.Machine

/-! ### Frames on links, answers, and what closing leaves of checkpoints -/

/-- Sending a frame changes only the links and the outputs. -/
theorem Dev.linkSend_frame (d : Dev) (n : Nat) (f : LinkFrame) :
    ∃ links out, d.linkSend n f = { d with links := links, out := out } := by
  unfold Dev.linkSend Dev.sendNow
  dsimp only
  split <;> exact ⟨_, _, rfl⟩

/-- Management traffic changes only the links and the outputs, or the count of what no route takes (R438, R439). -/
theorem Dev.sendMgmt_frame (d : Dev) (dev kind srcCtx dstCtx step relIdx : Nat) (p : LinkPay) :
    ∃ objs links out, d.sendMgmt dev kind srcCtx dstCtx step relIdx p = { d with objs := objs, links := links, out := out } := by
  unfold Dev.sendMgmt
  split
  · exact ⟨_, _, _, Dev.bump_frame ..⟩
  · obtain ⟨links, out, h⟩ := d.linkSend_frame _ _
    exact ⟨_, _, _, h⟩

@[simp] theorem State.closing_ckpts (s : State) (d : Dev) : (s.closing d).dev.ckpts = d.ckpts := by
  obtain ⟨_, _, _, _, _, h⟩ := s.closing_dev d; rw [h]

@[simp] theorem State.closing_buddies (s : State) (d : Dev) : (s.closing d).dev.buddies = d.buddies := by
  obtain ⟨_, _, _, _, _, h⟩ := s.closing_dev d; rw [h]

/-- A command of a clocked device gives the device that its function makes. -/
theorem gives_of_onDev {s : State} {i : Instr} {f : Dev → Dev} {d : Dev} (h : clocked s) (hi : exec i s = s.onDev f)
    (hd : f s.dev.cleared = d) : gives i s d := by
  subst hd; exact hi.trans (onDev_gives h)

/-! ### The checkpoint commands -/

theorem exec_ckptGo (step : Nat) (s : State) :
    exec (.ckptGo step) s = s.onDev fun d => d.ckptGo (d.objD 0x5100 1 0) step := rfl

theorem exec_ckptPeriodTimer (n : Nat) (s : State) : exec (.ckptPeriodTimer n) s = s.onDev fun d =>
    if (d.ctx n).periodS = 0 ∨ (d.ckptCheck n (d.ctx n).nextStep).isSome then d else d.ckptGo n (d.ctx n).nextStep := rfl

theorem exec_ckptCancel (s : State) : exec .ckptCancel s = s.onDev fun d => d.ckptCancel (d.objD 0x5100 1 0) := rfl

theorem exec_ckptCopyComplete (n : Nat) (s : State) : exec (.ckptCopyComplete n) s = s.onDev fun d => d.ckptCopied n := rfl

theorem exec_buddyAck (n : Nat) (code : Code) (s : State) : exec (.buddyAck n code) s = s.onDev fun d =>
    if (d.ctx n).ckpt.state ≠ 2 ∨ (d.ctx n).ckpt.c ≠ 2 then d
    else if code = cOk then d.ckptComplete n
    else (d.raised code).ckptEnds n fun o => o.ends code := rfl

theorem exec_buddyCopyReceive (k : Ckpt) (s : State) : exec (.buddyCopyReceive k) s = s.onDev fun d => d.buddyCopy k := rfl

/-! ### Requests and cancellation (R356, R456, R457) -/

theorem Dev.ckptGo_of_check (d : Dev) (n step : Nat) (h : d.ckptCheck n step = none) :
    d.ckptGo n step = (d.updCtx n fun x => { x with ckpt := ⟨2, 0, cPending, step, 0, 0, 0⟩ }).parkIdle n := by
  unfold Dev.ckptGo; rw [h]

theorem Dev.ckptCancel_of_busy (d : Dev) (n : Nat) (h : (d.ctx n).ckpt.busy = true) :
    d.ckptCancel n = d.ckptEnds n LongOp.cancelled := by
  unfold Dev.ckptCancel; rw [if_pos h]

/-- CKPT_GO requests the checkpoint of the selected context (R457). -/
theorem ckptGo_gives {s : State} {n step : Nat} (hs : clocked s) (hn : s.dev.objD 0x5100 1 0 = n)
    (hc : s.dev.ckptCheck n step = none) : gives (.ckptGo step) s
      ((s.dev.cleared.updCtx n fun x => { x with ckpt := ⟨2, 0, cPending, step, 0, 0, 0⟩ }).parkIdle n) := by
  subst hn
  exact gives_of_onDev hs (exec_ckptGo step s) (s.dev.cleared.ckptGo_of_check _ step hc)

/-- The timer of a context with a period requests a checkpoint at its next step (R457). -/
theorem ckptPeriodTimer_gives {s : State} {n : Nat} (hs : clocked s) (hp : (s.dev.ctx n).periodS ≠ 0)
    (hc : s.dev.ckptCheck n (s.dev.ctx n).nextStep = none) : gives (.ckptPeriodTimer n) s
      ((s.dev.cleared.updCtx n fun x => { x with ckpt := ⟨2, 0, cPending, (s.dev.ctx n).nextStep, 0, 0, 0⟩ }).parkIdle n) := by
  refine gives_of_onDev hs (exec_ckptPeriodTimer n s) ?_
  have hc' : s.dev.cleared.ckptCheck n (s.dev.ctx n).nextStep = none := hc
  rw [Dev.ctx_cleared, if_neg (by simp [hp, hc'])]
  exact s.dev.cleared.ckptGo_of_check n _ hc'

/-- CKPT_CANCEL ends the checkpoint under way of the selected context (R356). -/
theorem ckptCancel_gives {s : State} {n : Nat} (hs : clocked s) (hn : s.dev.objD 0x5100 1 0 = n)
    (hb : (s.dev.ctx n).ckpt.busy = true) : gives .ckptCancel s (s.dev.cleared.ckptEnds n LongOp.cancelled) := by
  subst hn
  exact gives_of_onDev hs (exec_ckptCancel s) (s.dev.cleared.ckptCancel_of_busy _ hb)

/-! ### The copy of the pages (R457) -/

/-- A checkpoint of context n with its remaining pages copied from device d, and sealed. -/
def Ckpt.copied (k : Ckpt) (d : Dev) (n : Nat) : Ckpt :=
  { k with pages := k.pages ++ k.todo.map fun p => (p, d.pageBytes n p), todo := [], isSealed := true }

/-- The device with the slot of a checkpoint of context n sealed, the context awaiting its buddy. -/
def Dev.ckptSealed (d : Dev) (n : Nat) (k : Ckpt) : Dev :=
  { d with ckpts := d.ckpts.map fun (j : Ckpt) => if j.ctx = n && j.slot = k.slot then k.copied d n else j }.updCtx n
    fun x => { x with ckpt := { x.ckpt with c := 2 } }

@[simp] theorem Dev.ctx_ckptSealed (d : Dev) (n : Nat) (k : Ckpt) :
    (d.ckptSealed n k).ctx n = { d.ctx n with ckpt := { (d.ctx n).ckpt with c := 2 } } := by
  unfold Dev.ckptSealed; rw [Dev.ctx_updCtx, if_pos rfl]; rfl

/-- A checkpoint of the context that the area holds is there sealed. -/
theorem Dev.copied_mem_ckptSealed (d : Dev) (n : Nat) (k : Ckpt) (hk : k ∈ d.ckpts) (hn : k.ctx = n) :
    k.copied d n ∈ (d.ckptSealed n k).ckpts :=
  List.mem_map.2 ⟨k, hk, by simp [hn]⟩

/-- A slot that the end of a copy finds is one of its context. -/
theorem Ckpt.ctx_of_found {l : List Ckpt} {n slot : Nat} {k : Ckpt}
    (hk : (l.find? fun k => k.ctx = n && k.slot = slot && !k.complete) = some k) : k.ctx = n := by
  have h := List.find?_some hk
  simp only [Bool.and_eq_true, decide_eq_true_eq] at h
  exact h.1.1

/-- With a buddy that is not expelled, the end of the copy seals the slot and sends it (R457). -/
theorem Dev.ckptCopied_sends (d : Dev) (n : Nat) (k : Ckpt) (hst : (d.ctx n).ckpt.state = 2) (hc : (d.ctx n).ckpt.c = 1)
    (hb : (d.ctx n).buddy ≠ 0xFFFF) (he : d.expelled (d.ctx n).buddy = false)
    (hk : (d.ckpts.find? fun k => k.ctx = n && k.slot = (d.ctx n).ckpt.b && !k.complete) = some k) :
    d.ckptCopied n = (d.ckptSealed n k).sendMgmt (d.ctx n).buddy 0 n n k.step 0 (.ckpt (k.copied d n)) := by
  have he' : (d.ckptSealed n k).expelled (d.ctx n).buddy = false := he
  unfold Dev.ckptCopied
  dsimp only
  rw [if_pos ⟨hst, hc⟩, hk]
  exact (if_neg hb).trans (if_neg (Bool.eq_false_iff.1 he'))

/-- The copy of a checkpoint for a buddy that is not expelled ends sealed in its slot (R457). -/
theorem ckptCopyComplete_seals {s : State} {n : Nat} (hs : clocked s) (k : Ckpt) (hst : (s.dev.ctx n).ckpt.state = 2)
    (hc : (s.dev.ctx n).ckpt.c = 1) (hb : (s.dev.ctx n).buddy ≠ 0xFFFF) (he : s.dev.expelled (s.dev.ctx n).buddy = false)
    (hk : (s.dev.ckpts.find? fun k => k.ctx = n && k.slot = (s.dev.ctx n).ckpt.b && !k.complete) = some k) :
    ∃ t, exec (.ckptCopyComplete n) s = .next t ∧ (t.dev.ctx n).ckpt = { (s.dev.ctx n).ckpt with c := 2 }
      ∧ k.copied s.dev n ∈ t.dev.ckpts ∧ ∀ e, t.dev.core e = s.dev.core e := by
  have hmem := s.dev.cleared.copied_mem_ckptSealed n k (List.mem_of_find?_eq_some hk) (Ckpt.ctx_of_found hk)
  have hctx := s.dev.cleared.ctx_ckptSealed n k
  obtain ⟨objs, links, out, h⟩ := (s.dev.cleared.ckptSealed n k).sendMgmt_frame (s.dev.ctx n).buddy 0 n n k.step 0
    (.ckpt (k.copied s.dev.cleared n))
  have hdev : s.dev.cleared.ckptCopied n = _ := (s.dev.cleared.ckptCopied_sends n k hst hc hb he hk).trans h
  refine ⟨_, (exec_ckptCopyComplete n s).trans (onDev_gives hs), ?_, ?_, fun e => ?_⟩
  · obtain ⟨op, hcl⟩ := s.closing_ctx (s.dev.cleared.ckptCopied n) n
    rw [hcl, hdev]
    exact congrArg Ctx.ckpt hctx
  · rw [State.closing_ckpts, hdev]; exact hmem
  · rw [State.closing_core, hdev]; rfl

/-! ### The buddy's acknowledgement (R457, R459, R461) -/

/-- While a sealed slot awaits its buddy, the acknowledgement completes the checkpoint. -/
theorem buddyAck_ok_gives {s : State} {n : Nat} (hs : clocked s) (hst : (s.dev.ctx n).ckpt.state = 2)
    (hc : (s.dev.ctx n).ckpt.c = 2) : gives (.buddyAck n cOk) s (s.dev.cleared.ckptComplete n) := by
  refine gives_of_onDev hs (exec_buddyAck n cOk s) ?_
  rw [Dev.ctx_cleared, if_neg (by simp [hst, hc]), if_pos rfl]

/-- While a sealed slot awaits its buddy, a code other than OK is raised and ends the checkpoint. -/
theorem buddyAck_code_gives {s : State} {n : Nat} {code : Code} (hs : clocked s) (hst : (s.dev.ctx n).ckpt.state = 2)
    (hc : (s.dev.ctx n).ckpt.c = 2) (hcode : code ≠ cOk) :
    gives (.buddyAck n code) s ((s.dev.cleared.raised code).ckptEnds n fun o => o.ends code) := by
  refine gives_of_onDev hs (exec_buddyAck n code s) ?_
  rw [Dev.ctx_cleared, if_neg (by simp [hst, hc]), if_neg hcode]

/-! ### Copies of other devices (R10, R459) -/

/-- The copies that stay beside a new one: all but that of the same device, context and slot. -/
def besideCopy (l : List Ckpt) (k : Ckpt) : List Ckpt :=
  l.filter fun j => !(j.device = k.device && j.ctx = k.ctx && j.slot = k.slot)

theorem mem_besideCopy {l : List Ckpt} {j k : Ckpt} :
    j ∈ besideCopy l k ↔ j ∈ l ∧ ¬(j.device = k.device ∧ j.ctx = k.ctx ∧ j.slot = k.slot) := by
  simp [besideCopy, imp_iff_not_or, or_assoc]

/-- The copies of other contexts and the other slot of the same context are the copies that stay. -/
theorem besideCopy_perm (l : List Ckpt) (k : Ckpt) :
    (l.filter (fun j => !(j.device = k.device && j.ctx = k.ctx))
      ++ l.filter fun j => (j.device = k.device && j.ctx = k.ctx) && j.slot != k.slot).Perm (besideCopy l k) := by
  have hothers : ∀ j ∈ l, (!(j.device = k.device && j.ctx = k.ctx))
      = (!(j.device = k.device && j.ctx = k.ctx) && !(j.device = k.device && j.ctx = k.ctx && j.slot = k.slot)) := by
    intro j _; cases decide (j.device = k.device) && decide (j.ctx = k.ctx) <;> rfl
  have hown : ∀ j ∈ l, ((j.device = k.device && j.ctx = k.ctx) && j.slot != k.slot)
      = (!!(j.device = k.device && j.ctx = k.ctx) && !(j.device = k.device && j.ctx = k.ctx && j.slot = k.slot)) := by
    intro j _; cases decide (j.device = k.device) && decide (j.ctx = k.ctx) <;> rfl
  rw [List.filter_congr hothers, List.filter_congr hown, ← List.filter_filter, ← List.filter_filter]
  exact List.filter_append_perm _ _

/-- A copy of another major version is refused with UNSUPPORTED_VERSION, and no copy changes (R10). -/
theorem Dev.buddyCopy_unreadable (d : Dev) (k : Ckpt) (hv : k.version / 256 ≠ 1) :
    (d.buddyCopy k).buddies = d.buddies ∧ (d.buddyCopy k).answer = cUnsupportedVersion := by
  obtain ⟨_, _, _, h⟩ := d.sendMgmt_frame k.device 0 k.ctx k.ctx k.step 0 (.ckptAck cUnsupportedVersion)
  unfold Dev.buddyCopy
  dsimp only
  rw [if_pos (by simp [Ckpt.readable, hv]), h]
  obtain ⟨_, h'⟩ := Dev.reply_frame _ cUnsupportedVersion
  rw [h']
  exact ⟨rfl, rfl⟩

/-- A copy that the area does not hold beside the others is refused with NO_MEMORY, and no copy changes (R459). -/
theorem Dev.buddyCopy_full (d : Dev) (k : Ckpt) (hv : k.version / 256 = 1)
    (hr : d.objD 0x6202 2 128 * 2 ^ 30 < ((besideCopy d.buddies k).map Ckpt.bytes).sum + k.bytes) :
    (d.buddyCopy k).buddies = d.buddies ∧ (d.buddyCopy k).answer = cNoMemory := by
  obtain ⟨_, _, _, h⟩ := d.sendMgmt_frame k.device 0 k.ctx k.ctx k.step 0 (.ckptAck cNoMemory)
  obtain ⟨_, h'⟩ := Dev.raised_frame (d.sendMgmt k.device 0 k.ctx k.ctx k.step 0 (.ckptAck cNoMemory)) cNoMemory
  rw [← ((besideCopy_perm d.buddies k).map Ckpt.bytes).sum_eq] at hr
  unfold Dev.buddyCopy
  dsimp only
  rw [if_neg (by simp [Ckpt.readable, hv]), if_pos hr, h', h]
  exact ⟨rfl, rfl⟩

/-- A copy that the area holds beside the others is kept as complete, in the place of that of its slot (R459). -/
theorem Dev.buddyCopy_kept (d : Dev) (k : Ckpt) (hv : k.version / 256 = 1)
    (hr : ((besideCopy d.buddies k).map Ckpt.bytes).sum + k.bytes ≤ d.objD 0x6202 2 128 * 2 ^ 30) :
    ∃ kept objs links out, kept.Perm (besideCopy d.buddies k) ∧ d.buddyCopy k
      = { d with buddies := kept ++ [{ k with isSealed := true, complete := true }], objs := objs, links := links, out := out } := by
  rw [← ((besideCopy_perm d.buddies k).map Ckpt.bytes).sum_eq] at hr
  unfold Dev.buddyCopy
  dsimp only
  rw [if_neg (by simp [Ckpt.readable, hv]), if_neg (Nat.not_lt.2 hr)]
  obtain ⟨objs, links, out, h⟩ := Dev.sendMgmt_frame _ k.device 0 k.ctx k.ctx k.step 0 (.ckptAck cOk)
  exact ⟨_, objs, links, out, besideCopy_perm d.buddies k, h⟩

/-- A copy of this version that fits is kept in the place of that of its slot, and changes no checkpoint of this device and no core. -/
theorem buddyCopyReceive_keeps {s : State} (hs : clocked s) (k : Ckpt) (hv : k.version / 256 = 1)
    (hr : ((besideCopy s.dev.buddies k).map Ckpt.bytes).sum + k.bytes ≤ s.dev.objD 0x6202 2 128 * 2 ^ 30) :
    ∃ t, exec (.buddyCopyReceive k) s = .next t
      ∧ (∀ j, j ∈ t.dev.buddies ↔ (j ∈ s.dev.buddies ∧ ¬(j.device = k.device ∧ j.ctx = k.ctx ∧ j.slot = k.slot))
          ∨ j = { k with isSealed := true, complete := true })
      ∧ t.dev.ckpts = s.dev.ckpts ∧ ∀ e, t.dev.core e = s.dev.core e := by
  obtain ⟨kept, objs, links, out, hperm, h⟩ := s.dev.cleared.buddyCopy_kept k hv hr
  refine ⟨_, (exec_buddyCopyReceive k s).trans (onDev_gives hs), fun j => ?_, ?_, fun e => ?_⟩
  · rw [State.closing_buddies, h, List.mem_append, List.mem_singleton, hperm.mem_iff, mem_besideCopy]; rfl
  · rw [State.closing_ckpts, h]; rfl
  · rw [State.closing_core, h]; rfl

/-- A copy that is refused leaves the copies as they are and answers its code. -/
theorem buddyCopyReceive_refuses {s : State} (hs : clocked s) (k : Ckpt) (code : Code)
    (h : (s.dev.cleared.buddyCopy k).buddies = s.dev.buddies ∧ (s.dev.cleared.buddyCopy k).answer = code) :
    ∃ t, exec (.buddyCopyReceive k) s = .next t ∧ t.dev.buddies = s.dev.buddies ∧ t.dev.answer = code := by
  refine ⟨_, (exec_buddyCopyReceive k s).trans (onDev_gives hs), ?_, ?_⟩
  · rw [State.closing_buddies]; exact h.1
  · rw [State.closing_answer]; exact h.2

/-- Settles O43, one command at a time; a copy larger than the whole area does not fit beside the others either. -/
theorem checkpoints : Obligations.Checkpoints := by
  intro s n hs
  refine ⟨fun step => ckptGo_gives hs, ckptPeriodTimer_gives hs, ckptCancel_gives hs, fun k hst hc hb he hk => ?_,
    fun hst hc => ⟨buddyAck_ok_gives hs hst hc, fun code => buddyAck_code_gives hs hst hc⟩,
    buddyCopyReceive_keeps hs, fun k hv => ?_, fun k hv hr => ?_⟩
  · have hn : k.ctx = n := Ckpt.ctx_of_found hk
    obtain ⟨t, ht, hctx, hmem, hcore⟩ := ckptCopyComplete_seals hs k hst hc hb he hk
    refine ⟨t, ht, by rw [hctx], by rw [hctx]; exact hst, ⟨k.copied s.dev n, hmem, hn, rfl, rfl, rfl, rfl⟩, hcore⟩
  · exact buddyCopyReceive_refuses hs k _ (s.dev.cleared.buddyCopy_unreadable k hv)
  · exact buddyCopyReceive_refuses hs k _ (s.dev.cleared.buddyCopy_full k hv (Nat.lt_add_left _ hr))

end Sys2Proof.Machine
end

section
/-! What an instruction that issues finds of its core, and when it gives its effect (R43 to R46, R56, R88 to R96). -/

namespace Sys2Proof.Machine

/-- An instruction that its core is to execute, whose wait ends and whose checks pass, gives its effect on the issued device. -/
theorem gives_present {s : State} {i : Instr} {c : CoreId} {g : Common} {n : Need} {b : Body} {w w' : At} {d : Dev}
    (hs : clocked s) (hi : exec i s = s.onDev fun d => d.present c g n b) (h : s.dev.issues c g n.unguarded n.regs w)
    (hwait : b.wait s.dev.cleared w = .ok w') (hcheck : b.check s.dev.cleared w' = none)
    (heff : b.effect (s.dev.cleared.issued c w') w' = d) : gives i s d :=
  gives_of_onDev hs hi ((Dev.present_issues (d := s.dev.cleared) h hwait hcheck).trans heff)

/-- Two changes of a core that agree on the state it has are one. -/
theorem Dev.updArch_congr {d : Dev} {c : CoreId} {f g : Arch → Arch} (h : f (d.arch c) = g (d.arch c)) :
    d.updArch c f = d.updArch c g :=
  congrArg (fun a => d.setCore c { d.core c with arch := a }) h

/-- A change of a core's state leaves every core's local memory. -/
@[simp] theorem Dev.mem_updArch (d : Dev) (c o : CoreId) (f : Arch → Arch) : ((d.updArch c f).core o).mem = (d.core o).mem := by
  rw [Dev.core_updArch]
  split
  · next h => rw [Dev.core, Dev.core, h]
  · rfl

/-! ### The core after issue -/

@[simp] theorem Arch.prune_regs (a : Arch) : a.prune.regs = a.regs := rfl
@[simp] theorem Arch.prune_handles (a : Arch) : a.prune.handles = a.handles := rfl
@[simp] theorem Arch.prune_tensor (a : Arch) : a.prune.tensor = a.tensor := rfl
@[simp] theorem Arch.prune_stat (a : Arch) : a.prune.stat = a.stat := rfl

theorem vGet_map {α β : Type} {n : Nat} (f : α → β) (v : Vector α n) (i : Nat) (d : α) :
    vGet (v.map f) i (f d) = f (vGet v i d) := by
  simp [vGet, Option.getD_map]

/-- Dropping past completions leaves every queue. -/
theorem Arch.prune_queue (a : Arch) (u : Nat) :
    (vGet a.prune.units u clearUnit).queue = (vGet a.units u clearUnit).queue := by
  have h := vGet_map (fun u : CmdUnit => { u with freed := u.freed.filter fun c => decide (a.stat.cyc ≤ c.1) }) a.units u clearUnit
  exact (congrArg CmdUnit.queue h :)

theorem Dev.issued_regs (d : Dev) (c : CoreId) (w : At) : ((d.issued c w).arch c).regs = (d.arch c).regs := by simp

theorem Dev.issued_tensor (d : Dev) (c : CoreId) (w : At) : ((d.issued c w).arch c).tensor = (d.arch c).tensor := by simp

theorem Dev.issued_mem (d : Dev) (c o : CoreId) (w : At) : ((d.issued c w).core o).mem = (d.core o).mem := by
  simp only [Dev.issued, Dev.spend, Dev.updStat, Dev.mem_updArch, Dev.core_throttled]

/-- The check of R205 reads the handle table alone. -/
theorem Arch.resolve_of_handles {a b : Arch} (h : a.handles = b.handles) : a.resolve = b.resolve := by
  funext reg write kinds align disp n
  unfold Arch.resolve Arch.paired Arch.handle
  rw [h]

theorem Dev.resolve_issued (d : Dev) (c : CoreId) (w : At) : ((d.issued c w).arch c).resolve = (d.arch c).resolve :=
  Arch.resolve_of_handles (by simp)

/-- Issue changes nothing that a local read finds. -/
theorem Dev.localRead_issued (d : Dev) (c : CoreId) (w : At) (addr n : Nat) :
    (d.issued c w).localRead c addr n = d.localRead c addr n := by
  unfold Dev.localRead
  split
  · rw [Dev.issued_mem]
  · rw [Dev.issued_mem]
  · rw [Dev.issued_tensor]
  · rfl

/-! ### Queues and post-increments -/

/-- A unit with room lets an instruction issue in the cycle from which it has it. -/
theorem queueWait_hasRoom {d : Dev} {c : CoreId} {unit : Nat} {w w' : At} (h : d.hasRoom c unit w w') :
    queueWait c unit d w = .ok w' := by
  unfold Dev.hasRoom at h
  unfold queueWait
  rw [h]

/-- An instruction for a unit with room, whose scoreboard bit is not reserved and whose own check passes, gives its effect in the cycle from which the unit has room (R43, R45, R89). -/
theorem gives_queued {s : State} {i : Instr} {c : CoreId} {g : Common} {w w' : At} {u unit : Nat} {regs : List Nat}
    {check : Arch → Option Code} {effect : Dev → At → Dev} {d : Dev} (hs : clocked s) (hsb : g.sb < 5)
    (hroom : s.dev.hasRoom c unit w w')
    (hi : exec i s = s.onDev fun d => d.present c g ⟨u, false, regs⟩
      { wait := queueWait c unit, check := fun d _ => if 5 ≤ g.sb then some cReservedNonzero else check (d.arch c), effect := effect })
    (h : s.dev.issues c g false regs w) (hcheck : check (s.dev.arch c) = none)
    (heff : effect (s.dev.cleared.issued c w') w' = d) : gives i s d := by
  have hwait : queueWait c unit s.dev.cleared w = .ok w' := queueWait_hasRoom (d := s.dev.cleared) hroom
  exact gives_present hs hi h hwait ((if_neg (Nat.not_le.2 hsb)).trans hcheck) heff

@[simp] theorem Arch.accept_regs (a : Arch) (unit sb : Nat) (cmd : UnitCmd) (t : Nat) : (a.accept unit sb cmd t).regs = a.regs := rfl
@[simp] theorem Arch.accept_tensor (a : Arch) (unit sb : Nat) (cmd : UnitCmd) (t : Nat) : (a.accept unit sb cmd t).tensor = a.tensor := rfl

/-- Marking a pair dirty changes the handle table alone. -/
theorem Arch.touch_frame (a : Arch) (i : Nat) : a.touch i = { a with handles := (a.touch i).handles } := by
  unfold Arch.touch
  dsimp only
  split <;> rfl

@[simp] theorem Arch.touch_regs (a : Arch) (i : Nat) : (a.touch i).regs = a.regs := by rw [Arch.touch_frame]
@[simp] theorem Arch.touch_tensor (a : Arch) (i : Nat) : (a.touch i).tensor = a.tensor := by rw [Arch.touch_frame]

end Sys2Proof.Machine
end

section
/-! O5: what issuing an instruction changes (R57, R61, R88, R95). -/

namespace Sys2Proof.Machine

theorem Dev.issued_objs (d : Dev) (c : CoreId) (w : At) (k : Nat) (h : k ≠ okey 0x2100 9) :
    nmGet (d.issued c w).objs k = nmGet d.objs k :=
  (Dev.throttled_frame _ c _).2 k h

theorem Dev.issued_frame (d : Dev) (c : CoreId) (w : At) :
    d.issued c w = { d with cores := (d.issued c w).cores, objs := (d.issued c w).objs } := by
  have h := (Dev.throttled_frame (d.updStat c fun s => (s.spent w 1).withhold (d.hold c (w.cyc + 1))) c (d.hold c (w.cyc + 1)).count).1
  unfold Dev.issued Dev.spend
  dsimp only
  rw [h]
  rfl

/-- Settles O5: issue is the spent cycle, the advance of the program counter and the pruning of past completions. -/
theorem issueFrame : Obligations.IssueFrame := by
  intro d c w
  have ha := Dev.arch_issued d c w
  refine ⟨by rw [ha]; rfl, by rw [ha]; rfl, by rw [ha]; rfl, by rw [ha]; rfl, by rw [ha]; rfl, ?_, fun u _ => ?_, fun e he => ?_,
    Dev.issued_objs d c w, Dev.issued_frame d c w⟩
  · exact ⟨_, _, by rw [Dev.core_issued, if_pos rfl, ha]; rfl⟩
  · rw [ha]; exact Arch.prune_queue _ u
  · rw [Dev.core_issued, if_neg he]

end Sys2Proof.Machine
end

section
/-! O7: refusals and hard faults stop a core (R67, R74, R75, R79, R81). -/

namespace Sys2Proof.Machine

/-! ### Reports and counts leave the rest of the core -/

/-- A stop that reaches the gate network changes the core's reports alone (R79). -/
theorem Core.reportStop_frame (k : Core) : k.reportStop = { k with reports := k.reportStop.reports } := by
  unfold Core.reportStop
  dsimp only
  split
  · rfl
  · split <;> rfl

@[simp] theorem Core.reportStop_arch (k : Core) : k.reportStop.arch = k.arch := by rw [Core.reportStop_frame]
@[simp] theorem Core.reportStop_mem (k : Core) : k.reportStop.mem = k.mem := by rw [Core.reportStop_frame]

@[simp] theorem Arch.recount_regs (a : Arch) : a.recount.regs = a.regs := by simp only [Arch.recount]
@[simp] theorem Arch.recount_stat (a : Arch) : a.recount.stat = a.stat := by simp only [Arch.recount]
@[simp] theorem Arch.recount_units (a : Arch) : a.recount.units = a.units := by simp only [Arch.recount]
@[simp] theorem Arch.recount_verify (a : Arch) : a.recount.verify = a.verify := by simp only [Arch.recount]
@[simp] theorem Arch.recount_verified (a : Arch) : a.recount.verified = a.verified := by simp only [Arch.recount]

/-! ### A refusal (R75) -/

/-- A code that is not one of suspect results stops its core as a refusal does, with the instruction at the program counter. -/
theorem Dev.refuse_core (d : Dev) (c e : CoreId) (g : Common) (unit : Nat) (w : At) (code : Code)
    (hrun : (d.arch c).stat.run = .running) (hkind : stopKind code = 1) :
    (d.refuse c g unit w code).core e = if ckey e = ckey c then
      ({ d.core c with arch := ({ d.arch c with
        stat := { ((d.arch c).stat.spent w 0).withhold (d.hold c (w.cyc + 0)) with
          run := .stopped, clean := false, programError := true, hardFault := false,
          exc := ⟨code, unit, if 1 ≤ unit ∧ unit ≤ 4 then g.sb else 0, 0⟩
          excWhere := (d.arch c).stat.pc + 4096 * (d.arch c).stat.gear, excDetail0 := 0, excDetail1 := 0, stall := none }
        units := (d.arch c).units.map CmdUnit.cut } : Arch).recount } : Core).reportStop
    else d.core e := by
  have hlive : ((d.spend c w 0).arch c).stat.run ≠ .stopped := by
    rw [Dev.arch_spend]
    exact fun h => CoreRun.noConfusion (hrun.symm.trans h)
  unfold Dev.refuse
  rw [Dev.stop_core _ _ _ _ _ _ _ _ _ _ hlive]
  split
  · simp only [Dev.core_spend, if_true, Dev.arch_spend, hkind, decide_true]
    rfl
  · next h => rw [Dev.core_spend, if_neg h]

/-! ### A hard fault (R81, R595) -/

@[simp] theorem Dev.core_remark (d : Dev) (h h' : PktHead) (e : CoreId) : (d.remark h h').core e = d.core e := by
  unfold Dev.remark; split <;> rfl

theorem Dev.core_remarks (f : Packet → PktHead) (l : List Packet) (d : Dev) (e : CoreId) :
    (l.foldl (fun d p => d.remark p.head (f p)) d).core e = d.core e := by
  induction l generalizing d with
  | nil => rfl
  | cons p l ih => rw [List.foldl_cons, ih, Dev.core_remark]

/-- Poisoning the message that a SEND in progress has sent changes no core. -/
@[simp] theorem Dev.core_cutSend (d : Dev) (c e : CoreId) : (d.cutSend c).core e = d.core e := by
  unfold Dev.cutSend
  refine (apply_ite (fun d : Dev => d.core e) _ _ _).trans ?_
  rw [Dev.core_remarks, ite_self]

/-- A hard fault stops its core with CORE_FENCED and empties its queues; of other cores it changes nothing. -/
theorem Dev.hardFault_core (d : Dev) (c e : CoreId) : (d.hardFault c).core e = if ckey e = ckey c then
      ({ d.core c with arch := ({ d.arch c with
        stat := { (d.arch c).stat with
          run := .stopped, clean := false, programError := false, hardFault := true, exc := ⟨cCoreFenced, 0, 0, 0⟩
          excWhere := (d.arch c).stat.lastPc + 4096 * (d.arch c).stat.gear, stall := none, excDetail0 := 0, excDetail1 := 0 }
        units := (d.arch c).units.map fun u => { u with queue := [] } } : Arch).recount } : Core).reportStop
    else d.core e := by
  unfold Dev.hardFault
  by_cases he : ckey e = ckey c <;> simp [he, Dev.arch]

theorem exec_hardFault (c : CoreId) (s : State) : exec (.hardFault c) s = s.onDev fun d => d.hardFault c := rfl

theorem vGet_emptied (v : Vector CmdUnit 4) (u : Nat) :
    (vGet (v.map fun u => { u with queue := [] }) u clearUnit).queue = [] :=
  (congrArg CmdUnit.queue (vGet_map (fun u : CmdUnit => { u with queue := [] }) v u clearUnit) :)

/-- Settles O7: what a refusal and a hard fault make of their core, and of the others. -/
theorem coreStops : Obligations.CoreStops := by
  refine ⟨fun d c g unit w code hrun hkind => ?_, fun s c hs => ⟨_, (exec_hardFault c s).trans (onDev_gives hs), ?_⟩⟩
  · have hc := Dev.refuse_core d c c g unit w code hrun hkind
    rw [if_pos rfl] at hc
    have ha : (d.refuse c g unit w code).arch c = _ := (congrArg Core.arch hc).trans (Core.reportStop_arch _)
    refine ⟨by rw [ha]; rfl, by rw [ha]; rfl, by rw [ha]; rfl, by rw [ha]; rfl, by rw [ha]; rfl, by rw [ha]; rfl, by rw [ha]; rfl,
      by rw [ha]; rfl, by rw [hc, Core.reportStop_mem], fun e he => ?_⟩
    rw [Dev.refuse_core d c e g unit w code hrun hkind, if_neg he]
  · have hc := Dev.hardFault_core s.dev.cleared c c
    rw [if_pos rfl] at hc
    have ha : (s.dev.cleared.hardFault c).arch c = _ := (congrArg Core.arch hc).trans (Core.reportStop_arch _)
    simp only [State.closing_arch, State.closing_core, sameCores]
    refine ⟨by rw [ha]; rfl, by rw [ha]; rfl, by rw [ha]; rfl, by rw [ha]; rfl, fun u _ => ?_, by rw [ha]; rfl,
      by rw [hc, Core.reportStop_mem]; rfl, fun e he => ?_⟩
    · rw [ha]; exact vGet_emptied _ u
    · rw [Dev.hardFault_core, if_neg he]; rfl

end Sys2Proof.Machine
end

section
/-! O12: the address-register operations (R51, R107). -/

namespace Sys2Proof.Machine

/-! ### The fields of an address register (R51) -/

theorem toNat_withOffset (r : DWord) (o : Nat) : (withOffset r o).toNat = r.toNat / 2 ^ 32 * 2 ^ 32 + o % 2 ^ 32 := by
  have := r.isLt
  rw [withOffset, BitVec.toNat_ofNat]
  omega

theorem toNat_withHandle (r : DWord) (h : Nat) :
    (withHandle r h).toNat = r.toNat / 2 ^ 38 * 2 ^ 38 + h % 64 * 2 ^ 32 + r.toNat % 2 ^ 32 := by
  have := r.isLt
  rw [withHandle, BitVec.toNat_ofNat]
  omega

theorem toNat_withValid (r : DWord) (v : Bool) : (withValid r v).toNat = r.toNat % 2 ^ 63 + if v then 2 ^ 63 else 0 := by
  rw [withValid, BitVec.toNat_ofNat]
  split <;> omega

theorem aValid_eq (r : DWord) : aValid r = decide (r.toNat / 2 ^ 63 % 2 = 1) := by
  rw [aValid, BitVec.getLsbD, Nat.testBit_eq_decide_div_mod_eq]

theorem withOffset_fields (r : DWord) (o : Nat) :
    aOffset (withOffset r o) = o % 2 ^ 32 ∧ aHandle (withOffset r o) = aHandle r ∧ aValid (withOffset r o) = aValid r := by
  simp only [aValid_eq, aOffset, aHandle, toNat_withOffset, decide_eq_decide]
  omega

theorem withHandle_fields (r : DWord) (h : Nat) :
    aHandle (withHandle r h) = h % 64 ∧ aOffset (withHandle r h) = aOffset r ∧ aValid (withHandle r h) = aValid r := by
  simp only [aValid_eq, aOffset, aHandle, toNat_withHandle, decide_eq_decide]
  omega

theorem withValid_fields (r : DWord) (v : Bool) :
    aValid (withValid r v) = v ∧ aOffset (withValid r v) = aOffset r ∧ aHandle (withValid r v) = aHandle r := by
  have := r.isLt
  simp only [aValid_eq, aOffset, aHandle, toNat_withValid]
  cases v <;> simp only [Bool.false_eq_true, if_true, if_false, decide_eq_true_eq, decide_eq_false_iff_not] <;> omega

/-- Settles O12: each operation issues without a further wait, AADD and AGET on a valid register, and has its effect on its destination. -/
theorem addressRegisters : Obligations.AddressRegisters := by
  refine ⟨fun s c g w hs => ⟨fun aD sX imm h => ?_, fun aD sX imm h => ?_, fun aD sX imm h hv => ?_, fun aD aS h => ?_,
    fun sX aS h hv => ?_, fun aD h => ?_⟩, fun r o h v => ?_⟩
  · exact gives_present hs rfl h rfl rfl rfl
  · exact gives_present hs rfl h rfl rfl rfl
  · exact gives_present hs rfl h rfl (if_pos hv) rfl
  · exact gives_present hs rfl h rfl rfl rfl
  · exact gives_present hs rfl h rfl (if_pos hv) rfl
  · exact gives_present hs rfl h rfl rfl rfl
  · obtain ⟨ho, hh, hv⟩ := withOffset_fields r o
    obtain ⟨hh', ho', hv'⟩ := withHandle_fields r h
    exact ⟨ho, hh, hv, hh', ho', hv', withValid_fields r v⟩

end Sys2Proof.Machine
end

section
/-! O14: stores (R51, R64, R106, R188, R206, R259). -/

namespace Sys2Proof.Machine

/-! ### Local writes (R106, R188) -/

/-- A local write changes no register of any core. -/
theorem Dev.localWrite_regs {d e : Dev} {c : CoreId} {addr : Nat} {bs : List Byte} (h : d.localWrite c addr bs = some e)
    (o : CoreId) : (e.arch o).regs = (d.arch o).regs := by
  have written (p : CoreId) (m : LocalMem) : ((d.updCore p fun k => { k with mem := m }).arch o).regs = (d.arch o).regs := by
    rw [Dev.arch, Dev.core_updCore]
    split
    · next hp => rw [Dev.arch, Dev.core, Dev.core, hp]
    · rfl
  unfold Dev.localWrite at h
  split at h
  · obtain ⟨m, -, rfl⟩ := Option.map_eq_some_iff.1 h
    exact written _ m
  · obtain ⟨m, -, rfl⟩ := Option.map_eq_some_iff.1 h
    exact written _ m
  · obtain rfl := Option.some.inj h
    rw [Dev.arch, Dev.core_updArch]
    split
    · next hp => rw [Dev.arch, Dev.core, Dev.core, hp]
    · rfl
  · obtain rfl := Option.some.inj h
    rfl

/-- A write into a home bank puts its bytes there and leaves the near store. -/
theorem LocalMem.write_home {m m' : LocalMem} {off : Nat} {bs : List Byte} (h : m.write false off bs = some m') :
    m'.home = memWrite m.home off bs ∧ m'.near = m.near := by
  obtain ⟨_, -, rfl⟩ := Option.map_eq_some_iff.1 h
  exact ⟨rfl, rfl⟩

/-- A local write that lands in a home bank changes its owner's local memory and nothing else. -/
theorem Dev.localWrite_home {d e : Dev} {c o : CoreId} {addr off : Nat} {bs : List Byte} (hl : locate c addr = .home o off)
    (h : d.localWrite c addr bs = some e) :
    ∃ m, (d.core o).mem.write false off bs = some m ∧ e = d.updCore o fun k => { k with mem := m } := by
  unfold Dev.localWrite at h
  rw [hl] at h
  obtain ⟨m, hm, rfl⟩ := Option.map_eq_some_iff.1 h
  exact ⟨m, hm, rfl⟩

/-! ### The store -/

theorem exec_st (c : CoreId) (g : Common) (sR aR size : Nat) (postInc : Bool) (imm : Word) (s : State) :
    exec (.st c g sR aR size postInc imm) s = execSt c g sR aR size postInc imm s := rfl

/-- A store through a local handle writes the low bytes at the resolved address. -/
theorem st_local_gives {s : State} {c : CoreId} {g : Common} {w : At} {sR aR size : Nat} {postInc : Bool} {imm : Word}
    {res : Res} {d : Dev} (hs : clocked s) (hsize : size < 3) (h : s.dev.issues c g false [aId aR, sId sR] w)
    (hctl : isControl ((s.dev.arch c).regs.aGet aR) = false)
    (hres : (s.dev.arch c).resolve ((s.dev.arch c).regs.aGet aR) true [0, 1, 2, 3] (2 ^ size) imm.toNat (2 ^ size) = .ok res)
    (hd : (s.dev.cleared.issued c w).localWrite c res.addr (natLe ((s.dev.arch c).regs.sGet sR).toNat (2 ^ size)) = some d) :
    gives (.st c g sR aR size postInc imm) s (d.updArch c fun a => (a.touch res.handle).stepped postInc aR (2 ^ size) w.cyc) := by
  have hregs : (d.arch c).regs = (s.dev.arch c).regs := (Dev.localWrite_regs hd c).trans (Dev.issued_regs ..)
  refine gives_present (w' := w) hs (exec_st ..) h ?_ ?_ ?_
  · simp [hctl]
  · simp [hctl, hres, Nat.ne_of_lt hsize]
  · simp only [Dev.issued_regs, Dev.resolve_issued, Dev.arch_cleared, hctl, hres, hd, Bool.false_eq_true, if_false]
    refine Dev.updArch_congr ?_
    simp only [Arch.stepped, Arch.touch_regs, hregs]

/-- A store to a ring's read pointer through the control handle joins the message unit's queue (R259). -/
theorem st_control_gives {s : State} {c : CoreId} {g : Common} {w w' : At} {sR aR size : Nat} {postInc : Bool} {imm : Word}
    (hs : clocked s) (hsize : size < 3) (h : s.dev.issues c g false [aId aR, sId sR] w)
    (hctl : isControl ((s.dev.arch c).regs.aGet aR) = true)
    (hcheck : ctlCheck ((s.dev.arch c).regs.aGet aR) true imm.toNat (2 ^ size) = none) (hroom : s.dev.hasRoom c 2 w w') :
    gives (.st c g sR aR size postInc imm) s ((s.dev.cleared.issued c w').updArch c fun a => (a.accept 2 0
      (.rpStore ((aOffset (a.regs.aGet aR) + imm.toNat) % 2 ^ 32 / 64) ((a.regs.sGet sR).toNat % 4096)) w'.cyc).stepped
        postInc aR (2 ^ size) w'.cyc) := by
  refine gives_present (w' := w') hs (exec_st ..) h ?_ ?_ ?_
  · simp only [Dev.arch_cleared, hctl, hcheck, if_true]
    exact queueWait_hasRoom (d := s.dev.cleared) hroom
  · simp [hctl, hcheck, Nat.ne_of_lt hsize]
  · simp only [Dev.issued_regs, Dev.arch_cleared, hctl, if_true]
    refine Dev.updArch_congr ?_
    simp only [Arch.stepped, Arch.accept_regs, Dev.issued_regs, Dev.arch_cleared]

/-- Settles O14: the two ways of a store, and what a write into a home bank changes. -/
theorem stores : Obligations.Stores := by
  refine ⟨fun s c g w sR aR size postInc imm hs hsize h => ⟨fun res d hctl hres hd => st_local_gives hs hsize h hctl hres hd,
    fun w' hctl hcheck hroom => st_control_gives hs hsize h hctl hcheck hroom⟩, fun d e c o addr off bs hl h => ?_⟩
  obtain ⟨m, hm, rfl⟩ := Dev.localWrite_home hl h
  obtain ⟨hhome, hnear⟩ := LocalMem.write_home hm
  simp only [Dev.core_updCore, if_true]
  exact ⟨fun a => by rw [hhome, memGet_memWrite], hnear, trivial, fun x hx => if_neg hx, Dev.updCore_frame ..⟩

end Sys2Proof.Machine
end

section
/-! O16: GATE and SHIFT, and what a gate does to its core (R61, R67, R85, R86, R108 to R110, R206, R207, R209, R233, R364). -/

namespace Sys2Proof.Machine

/-! ### The instructions (R85, R86, R108 to R110) -/

theorem exec_gate (c : CoreId) (g : Common) (last : Bool) (s : State) : exec (.gate c g last) s = execGate c g last s := rfl

theorem exec_shift (c : CoreId) (g : Common) (gear : Nat) (carry : Bool) (entry : Nat) (s : State) :
    exec (.shift c g gear carry entry) s = execShift c g gear carry entry s := rfl

theorem arithWait_cleared (d : Dev) (c : CoreId) (w : At) : arithWait d.cleared c w = arithWait d c w := by
  unfold arithWait; rw [Dev.arch_cleared]

theorem sendWait_cleared (d : Dev) (c : CoreId) (w : At) : sendWait d.cleared c w = sendWait d c w := by
  unfold sendWait; rw [Dev.arch_cleared]

theorem Dev.holdFull_cleared (d : Dev) (c : CoreId) : d.cleared.holdFull c = d.holdFull c := by
  unfold Dev.holdFull
  simp only [Dev.core_cleared, Dev.ctx_cleared, Dev.arch_cleared]
  rfl

theorem gateWait_cleared (d : Dev) (c : CoreId) (w : At) : gateWait c d.cleared w = gateWait c d w := by
  unfold gateWait
  simp only [arithWait_cleared, sendWait_cleared, Dev.holdFull_cleared, Dev.arch_cleared]

/-- GATE is refused for nothing once its waits are over. -/
theorem gate_gives {s : State} {c : CoreId} {g : Common} {w w' : At} (hs : clocked s) (h : s.dev.issues c g true [] w)
    {last : Bool} (hw : gateWait c s.dev w = .ok w') :
    gives (.gate c g last) s ((s.dev.cleared.issued c w').firstCycle c fun d => d.gate c last) :=
  gives_present hs (exec_gate ..) h ((gateWait_cleared s.dev c w).trans hw) rfl (by dsimp only)

/-- A switch to another loaded gear, inside its code, with no held message left behind, is not refused (R110, R293). -/
theorem shiftCheck_none {k : Core} {gear entry : Nat} {carry : Bool} (hgear : gear ≠ k.arch.stat.gear)
    (hstate : (k.slot gear).state = 2) (hbroom : carry = false → k.arch.msg.broom = []) (hin : k.inCode gear entry = true) :
    shiftCheck k gear carry entry = none := by
  have hheld : (!carry && !k.arch.msg.broom.isEmpty) = false := by
    cases carry
    · rw [hbroom rfl]; rfl
    · rfl
  simp [shiftCheck, firstFail, hgear, hstate, hheld, hin]

theorem shift_gives {s : State} {c : CoreId} {g : Common} {w w1 w' : At} {gear entry : Nat} {carry : Bool} (hs : clocked s)
    (h : s.dev.issues c g true [] w) (hw1 : arithWait s.dev c w = .ok w1) (hw' : sendWait s.dev c w1 = .ok w')
    (hcheck : shiftCheck (s.dev.core c) gear carry entry = none) :
    gives (.shift c g gear carry entry) s ((s.dev.cleared.issued c w').firstCycle c fun d => d.shift c gear carry entry) := by
  refine gives_present (w' := w') hs (exec_shift ..) h ?_ hcheck (by dsimp only)
  simp only [arithWait_cleared, sendWait_cleared, hw1]
  exact hw'

/-! ### The handle table at a gate and at a commit (R206, R207, R209) -/

/-- A lookup in a map whose values are changed by key and value. -/
theorem nmGet_map_val {α : Type} (m : NMap α) (f : Nat × α → Nat × α) (hk : ∀ p, (f p).1 = p.1) {i : Nat} {v : α}
    (h : nmGet m i = some v) : nmGet (m.map f) i = some (f (i, v)).2 := by
  induction m with
  | nil => exact nomatch h
  | cons p m ih =>
    obtain ⟨k, x⟩ := p
    have hfk : (f (k, x)).1 = k := hk (k, x)
    rw [nmGet] at h
    rw [List.map_cons, nmGet, hfk]
    split at h
    · next hi => obtain rfl := Option.some.inj h; rw [if_pos hi, hi]
    · next hi => rw [if_neg hi, ih h]

/-- A dirty pair advances to the copy written in the step, and is clean again (R206). -/
theorem Arch.advanceHandles_get (a : Arch) {i : Nat} {h : Handle} (hi : nmGet a.handles i = some h) :
    nmGet a.advanceHandles.handles i = some
      (if h.valid = true ∧ h.mode = 1 ∧ h.dirty = true then { h with gen := (h.gen + 1) % (h.copiesM1 + 1), dirty := false } else h) := by
  unfold Arch.advanceHandles
  rw [nmGet_map_val _ _ (fun p => by split <;> rfl) hi]
  by_cases hc : h.valid = true ∧ h.mode = 1 ∧ h.dirty = true
  · simp [hc]
  · have hc' : (h.valid && h.mode = 1 && h.dirty) = false := by simpa [and_assoc] using hc
    simp only [hc', hc, Bool.false_eq_true, if_false]

/-- A commit takes the generation that the snapshot holds of the same entry (R207, R209). -/
theorem Arch.commitHandles_get (a snap : Arch) {i : Nat} {h : Handle} (hi : nmGet a.handles i = some h) :
    nmGet (a.commitHandles snap).handles i = some
      (if h.mode = 1 ∧ (snap.handle i).valid = true ∧ (snap.handle i).base = h.base ∧ (snap.handle i).length = h.length
          ∧ (snap.handle i).kind = h.kind ∧ (snap.handle i).mode = h.mode ∧ (snap.handle i).copiesM1 = h.copiesM1
        then { h with cgen := (snap.handle i).gen } else h) := by
  unfold Arch.commitHandles
  rw [nmGet_map_val _ _ (fun p => by dsimp only; split <;> rfl) hi]
  have hc : (h.mode = 1 && (snap.handle i).valid && h.sameEntry (snap.handle i)) = true ↔
      h.mode = 1 ∧ (snap.handle i).valid = true ∧ (snap.handle i).base = h.base ∧ (snap.handle i).length = h.length
        ∧ (snap.handle i).kind = h.kind ∧ (snap.handle i).mode = h.mode ∧ (snap.handle i).copiesM1 = h.copiesM1 := by
    simp [Handle.sameEntry, and_assoc]
  simp only [hc]
  split <;> rfl

/-- Settles O16: the two instructions once their waits are over, the fields of a core at its gate, and the handle table there and at a commit. -/
theorem gateAndShift : Obligations.GateAndShift := by
  refine ⟨fun s c g w w' hs h => ⟨fun last hw => gate_gives hs h hw, fun gear carry entry w1 hw1 hw' hgear hstate hbroom hin =>
    shift_gives hs h hw1 hw' (shiftCheck_none hgear hstate hbroom hin)⟩, fun k last => ?_⟩
  exact ⟨rfl, rfl, rfl, rfl, rfl, rfl, rfl, rfl, rfl, rfl, ⟨_, rfl, rfl, by simp [Arch.report], rfl, rfl, rfl⟩,
    fun i h hi => k.arch.advanceHandles_get hi, rfl, rfl, rfl, fun i h snap hi => k.arch.commitHandles_get snap hi⟩

end Sys2Proof.Machine
end

section
/-! O17: the tensor unit accepts its commands (R43, R93, R114 to R117, R119, R121, R122). -/

namespace Sys2Proof.Machine

theorem exec_accOpen (c : CoreId) (g : Common) (grp base rowsM1 init aBias : Nat) (s : State) :
    exec (.accOpen c g grp base rowsM1 init aBias) s = execAccOpen c g grp base rowsM1 init aBias s := rfl
theorem exec_accClose (c : CoreId) (g : Common) (grp : Nat) (s : State) :
    exec (.accClose c g grp) s = execAccClose c g grp s := rfl
theorem exec_tmul (c : CoreId) (g : Common) (f : TmulF) (s : State) : exec (.tmul c g f) s = execTmul c g f s := rfl
theorem exec_tmuls (c : CoreId) (g : Common) (f : TmulsF) (s : State) : exec (.tmuls c g f) s = execTmuls c g f s := rfl
theorem exec_accDrain (c : CoreId) (g : Common) (f : DrainF) (s : State) :
    exec (.accDrain c g f) s = execAccDrain c g f s := rfl

/-- The view of the B buffers after a TMUL, by its bmode (R93). -/
theorem Tensor.viewTmul_eq (t : Tensor) (f : TmulF) : t.viewTmul f = { t with
    bview := (if f.bmode = 1 then vSet t.bview t.viewActive ⟨true, f.fmtB, f.mx⟩
      else if f.bmode = 2 then vSet t.bview (1 - t.viewActive) ⟨true, f.fmtB, f.mx⟩ else t.bview)
    viewActive := (if f.bmode = 3 then 1 - t.viewActive else t.viewActive) } := by
  unfold Tensor.viewTmul
  split <;> simp_all

section
variable {s : State} {c : CoreId} {g : Common} {w w' : At} (hs : clocked s) (hsb : g.sb < 5) (hroom : s.dev.hasRoom c 0 w w')
include hs hsb hroom

theorem accOpen_gives {grp base rowsM1 init aBias : Nat} (hcheck : accOpenCheck (s.dev.arch c) grp base rowsM1 init aBias = none)
    (h : s.dev.issues c g false (if init = 1 then [aId aBias] else []) w) :
    gives (.accOpen c g grp base rowsM1 init aBias) s ((s.dev.cleared.issued c w').updArch c fun a =>
      { a.accept 0 g.sb (.accOpen grp base rowsM1 (if init = 1 then optRes (a.resolve (a.regs.aGet aBias) false [0, 1] 64 0 64)
          else none)) w'.cyc with
        tensor := { a.tensor with gview := vSet a.tensor.gview grp ⟨true, true, base, rowsM1, []⟩ } }) :=
  gives_queued (check := fun a => accOpenCheck a grp base rowsM1 init aBias) hs hsb hroom (exec_accOpen ..) h hcheck (by dsimp only [Arch.accept_tensor])

theorem accClose_gives {grp : Nat} (hopen : (grpOf (s.dev.arch c).tensor.gview grp).opened = true)
    (h : s.dev.issues c g false [] w) :
    gives (.accClose c g grp) s ((s.dev.cleared.issued c w').updArch c fun a =>
      { a.accept 0 g.sb (.accClose grp) w'.cyc with
        tensor := { a.tensor with gview := vSet a.tensor.gview grp { grpOf a.tensor.gview grp with opened := false } } }) :=
  gives_queued (check := fun a => whenBad (!(grpOf a.tensor.gview grp).opened) cBadArgument) hs hsb hroom (exec_accClose ..) h
    (by simp [whenBad, hopen]) (by dsimp only [Arch.accept_tensor])

theorem tmul_gives {f : TmulF} {ra : Res} (hcheck : tmulCheck (s.dev.arch c) f = none)
    (hra : (s.dev.arch c).resolve ((s.dev.arch c).regs.aGet f.aA) false [0, 1, 2] 16 0
      (f.rowsM1 * ((s.dev.arch c).regs.sGet f.sStride).toNat + aRowBytes f.fmtA) = .ok ra)
    (h : s.dev.issues c g false ([aId f.aA, sId f.sStride] ++ (if f.bmode = 1 ∨ f.bmode = 2 then [aId f.aB] else [])
      ++ (if f.mx then [aId f.aS] else [])) w) :
    gives (.tmul c g f) s ((s.dev.cleared.issued c w').updArch c fun a =>
      { a.accept 0 g.sb (.tmul f ra
          (if f.bmode = 1 ∨ f.bmode = 2 then optRes (a.resolve (a.regs.aGet f.aB) false [0, 1, 2] 64 0 (bTileBytes f.fmtB)) else none)
          (if f.mx then optRes (a.resolve (a.regs.aGet f.aS) false [0, 1] 1 0 (scaleBytes f.fmtA (f.rowsM1 + 1))) else none)
          (a.regs.sGet f.sStride).toNat) w'.cyc with
        tensor := a.tensor.viewTmul f }) := by
  refine gives_queued (check := fun a => tmulCheck a f) hs hsb hroom (exec_tmul ..) h hcheck (Dev.updArch_congr ?_)
  simp only [tmulRes, Dev.issued_regs, Dev.resolve_issued, Dev.arch_cleared, hra, Arch.accept_tensor]

theorem tmuls_gives {f : TmulsF} {ra : Res} (hcheck : tmulsCheck (s.dev.arch c) f = none)
    (hra : (s.dev.arch c).resolve ((s.dev.arch c).regs.aGet f.aA) false [0, 1, 2] 1 0 0 = .ok ra)
    (h : s.dev.issues c g false ([aId f.aA, aId f.aB, sId f.sStride] ++ (if f.mx then [aId f.aS] else [])) w) :
    gives (.tmuls c g f) s ((s.dev.cleared.issued c w').updArch c fun a =>
      { a.accept 0 g.sb (.tmuls f ra (optRes (a.resolve (a.regs.aGet f.aB) false [0, 1, 2] 1 0 0))
          (optRes (a.resolve (a.regs.aGet f.aB) true [0, 1, 2] 1 0 0))
          (if f.mx then optRes (a.resolve (a.regs.aGet f.aS) false [0, 1] 1 0 0) else none) (a.regs.sGet f.sStride).toNat) w'.cyc with
        tensor := { a.tensor with bview := Vector.replicate 2 ⟨false, 0, false⟩ } }) := by
  refine gives_queued (check := fun a => tmulsCheck a f) hs hsb hroom (exec_tmuls ..) h hcheck (Dev.updArch_congr ?_)
  simp only [Dev.issued_regs, Dev.resolve_issued, Dev.arch_cleared, hra, Arch.accept_tensor]

theorem accDrain_gives {f : DrainF} {rd : Res} (hcheck : drainCheck (s.dev.arch c) f = none)
    (hrd : (s.dev.arch c).resolve ((s.dev.arch c).regs.aGet f.aD) true [0, 1, 2] 1 0
      ((f.rowsM1 + 1) * outRowBytes f.fmtOut + if f.mx then (f.rowsM1 + 1) / 2 else 0) = .ok rd)
    (h : s.dev.issues c g false ([aId f.aD] ++ (if f.scaleMode ≠ 0 then [aId f.aScale] else []) ++ (if f.biasEn then [aId f.aBias] else [])) w) :
    gives (.accDrain c g f) s ((s.dev.cleared.issued c w').updArch c fun a =>
      { (a.accept 0 g.sb (.drain f rd
          (if f.scaleMode ≠ 0 then optRes (a.resolve (a.regs.aGet f.aScale) false [0, 1] 1 0
            (if f.scaleMode = 1 then 4 else if f.scaleMode = 2 then 4 * (f.rowsM1 + 1) else 64)) else none)
          (if f.biasEn then optRes (a.resolve (a.regs.aGet f.aBias) false [0, 1] 1 0 64) else none)
          (a.tensor.drains % 2 ^ 16)) w'.cyc).touch rd.handle with
        tensor := { a.tensor with drains := a.tensor.drains + 1 } }) := by
  refine gives_queued (check := fun a => drainCheck a f) hs hsb hroom (exec_accDrain ..) h hcheck (Dev.updArch_congr ?_)
  simp only [drainRes, Dev.issued_regs, Dev.resolve_issued, Dev.arch_cleared, hrd, Arch.accept_tensor, Arch.touch_tensor]

end

/-- Settles O17, one command at a time. -/
theorem tensorAccepts : Obligations.TensorAccepts := by
  intro s c g w w' hs hsb hroom
  refine ⟨fun grp base rowsM1 init aBias hcheck _ h => accOpen_gives hs hsb hroom hcheck h,
    fun grp hopen h => accClose_gives hs hsb hroom hopen h, fun f ra hcheck hra h => ?_,
    fun f ra hcheck hra h => tmuls_gives hs hsb hroom hcheck hra h,
    fun f rd hcheck hrd h => accDrain_gives hs hsb hroom hcheck hrd h⟩
  have := tmul_gives hs hsb hroom hcheck hra h
  simpa only [Tensor.viewTmul_eq] using this

end Sys2Proof.Machine
end

section
/-! O18: the vector, message and DMA units accept their commands (R43, R45, R50, R51, R123 to R125, R127, R129, R201, R206). -/

namespace Sys2Proof.Machine

/-! ### The commands -/

theorem exec_vop (c : CoreId) (g : Common) (f : VopF) (s : State) : exec (.vop c g f) s = execVop c g f s := rfl
theorem exec_vopLd (c : CoreId) (g : Common) (v aV : Nat) (postInc : Bool) (imm : Word) (s : State) :
    exec (.vopLd c g v aV postInc imm) s = execVopLd c g v aV postInc imm s := rfl
theorem exec_vopSt (c : CoreId) (g : Common) (v aV : Nat) (postInc : Bool) (imm : Word) (s : State) :
    exec (.vopSt c g v aV postInc imm) s = execVopSt c g v aV postInc imm s := rfl
theorem exec_send (c : CoreId) (g : Common) (f : SendF) (s : State) : exec (.send c g f) s = execSend c g f s := rfl
theorem exec_recvAck (c : CoreId) (g : Common) (queue nM1 : Nat) (s : State) :
    exec (.recvAck c g queue nM1) s = execRecvAck c g queue nM1 s := rfl
theorem exec_dmaIssue (c : CoreId) (g : Common) (put : Bool) (aDesc queue : Nat) (s : State) :
    exec (if put then .dmaPut c g aDesc queue else .dmaGet c g aDesc queue) s = s.onDev fun d => d.dmaIssue c g put aDesc queue := by
  cases put <;> rfl

theorem Dev.issued_gear (d : Dev) (c : CoreId) (w : At) : ((d.issued c w).arch c).stat.gear = (d.arch c).stat.gear := by
  rw [Dev.arch_issued]; rfl

section
variable {s : State} {c : CoreId} {g : Common} {w w' : At} (hs : clocked s) (hsb : g.sb < 5)
include hs hsb

theorem vop_gives {f : VopF} (hroom : s.dev.hasRoom c 1 w w') (hfn : vopReserved f.fn = false) (hvc : f.fn = 0x0B → f.vc < 7)
    (h : s.dev.issues c g false (if f.bsel then [sId f.sB] else []) w) :
    gives (.vop c g f) s (s.dev.cleared.accepted c w' 1 g.sb (.vop f ((s.dev.arch c).regs.sGet f.sB))) := by
  refine gives_present (w' := w') hs (exec_vop ..) h (queueWait_hasRoom (d := s.dev.cleared) hroom) (if_neg ?_) ?_
  · rintro (hsb' | hfn' | ⟨hfn', hvc'⟩)
    · exact absurd hsb (Nat.not_lt.2 hsb')
    · exact Bool.false_ne_true (hfn.symm.trans hfn')
    · exact absurd (hvc hfn') (Nat.not_lt.2 hvc')
  · dsimp only [Dev.accepted]
    exact Dev.updArch_congr (by simp only [Dev.issued_regs, Dev.arch_cleared])

theorem vopLd_gives {v aV : Nat} {postInc : Bool} {imm : Word} {r : Res} (hroom : s.dev.hasRoom c 1 w w')
    (h : s.dev.issues c g false [aId aV] w)
    (hr : (s.dev.arch c).resolve ((s.dev.arch c).regs.aGet aV) false [0, 1, 2, 3] 64 imm.toNat 256 = .ok r) :
    gives (.vopLd c g v aV postInc imm) s ((s.dev.cleared.issued c w').updArch c fun a =>
      (a.accept 1 g.sb (.vopLd v r) w'.cyc).stepped postInc aV 256 w'.cyc) := by
  refine gives_queued (check := fun a => resCode (a.resolve (a.regs.aGet aV) false [0, 1, 2, 3] 64 imm.toNat 256)) hs hsb hroom
    (exec_vopLd ..) h (by simp only [hr, resCode]) (Dev.updArch_congr ?_)
  simp only [Dev.issued_regs, Dev.resolve_issued, Dev.arch_cleared, hr, Arch.stepped, Arch.accept_regs]

theorem vopSt_gives {v aV : Nat} {postInc : Bool} {imm : Word} {r : Res} (hroom : s.dev.hasRoom c 1 w w')
    (h : s.dev.issues c g false [aId aV] w)
    (hr : (s.dev.arch c).resolve ((s.dev.arch c).regs.aGet aV) true [0, 1, 2, 3] 64 imm.toNat 256 = .ok r) :
    gives (.vopSt c g v aV postInc imm) s ((s.dev.cleared.issued c w').updArch c fun a =>
      ((a.accept 1 g.sb (.vopSt v r) w'.cyc).touch r.handle).stepped postInc aV 256 w'.cyc) := by
  refine gives_queued (check := fun a => resCode (a.resolve (a.regs.aGet aV) true [0, 1, 2, 3] 64 imm.toNat 256)) hs hsb hroom
    (exec_vopSt ..) h (by simp only [hr, resCode]) (Dev.updArch_congr ?_)
  simp only [Dev.issued_regs, Dev.resolve_issued, Dev.arch_cleared, hr, Arch.stepped, Arch.accept_regs, Arch.touch_regs]

theorem send_gives {f : SendF} (hroom : s.dev.hasRoom c 2 w w') (hcheck : sendCheck (s.dev.arch c) f = none)
    (h : s.dev.issues c g false ([sId f.sDest, sId f.sUser] ++ (if f.length ≤ 1 then [] else [aId f.aP])) w) :
    gives (.send c g f) s (s.dev.cleared.accepted c w' 2 g.sb (.send f ((s.dev.arch c).regs.sGet f.sDest)
      ((s.dev.arch c).regs.sGet f.sUser) (s.dev.arch c).stat.gear (if f.length ≤ 1 then none else
        optRes ((s.dev.arch c).resolve ((s.dev.arch c).regs.aGet f.aP) false [0, 1] 16 0 ((f.length - 1) * 16))))) := by
  refine gives_queued (check := fun a => sendCheck a f) hs hsb hroom (exec_send ..) h hcheck (Dev.updArch_congr ?_)
  simp only [Dev.issued_regs, Dev.issued_gear, Dev.resolve_issued, Dev.arch_cleared]

theorem recvAck_gives {queue nM1 : Nat} (hroom : s.dev.hasRoom c 2 w w') (h : s.dev.issues c g false [] w) :
    gives (.recvAck c g queue nM1) s (s.dev.cleared.accepted c w' 2 g.sb (.recvAck queue nM1)) :=
  gives_queued (check := fun _ => none) hs hsb hroom (exec_recvAck ..) h rfl (by dsimp only [Dev.accepted])

/-- A DMA command joins the engine's queue with its descriptor, whose read is listed, and both its local ends; the handle of a local destination is marked as written (R129, R201, R206). -/
theorem dma_gives {put : Bool} {aDesc queue : Nat} {r : Res} {bs : List Byte} (hroom : s.dev.hasRoom c 3 w w')
    (h : s.dev.issues c g false [aId aDesc] w)
    (hr : (s.dev.arch c).resolve ((s.dev.arch c).regs.aGet aDesc) false [0, 1] 32 0 32 = .ok r)
    (hv : r.bc = true → s.dev.verifyRoom c (blocksOf c r.addr 32) = true) (hbs : s.dev.localRead c r.addr 32 = some bs) :
    gives (if put then .dmaPut c g aDesc queue else .dmaGet c g aDesc queue) s
      (((s.dev.cleared.issued c w').lists c r.bc 4 g.sb (blocksOf c r.addr 32)).updArch c fun a =>
        if put = false ∧ (dmaDesc bs).dstSpace = 0 then
          (a.accept 3 g.sb (.dma put queue bs (a.dmaEnd (dmaDesc bs).srcH false) (a.dmaEnd (dmaDesc bs).dstH true)
            (dmaDesc bs).startOff) w'.cyc).touch (dmaDesc bs).dstH
        else a.accept 3 g.sb (.dma put queue bs (a.dmaEnd (dmaDesc bs).srcH false) (a.dmaEnd (dmaDesc bs).dstH true)
          (dmaDesc bs).startOff) w'.cyc) := by
  have hlisted : (r.bc && g.sb < 5 && !s.dev.cleared.verifyRoom c (blocksOf c r.addr 32)) = false := by
    cases hbc : r.bc
    · rfl
    · have : s.dev.cleared.verifyRoom c (blocksOf c r.addr 32) = true := hv hbc
      simp [this]
  have hread : (s.dev.cleared.issued c w').localRead c r.addr 32 = some bs := (Dev.localRead_issued ..).trans hbs
  refine gives_present (w' := w') hs (exec_dmaIssue ..) h ?_ ?_ ?_
  · simp only [Dev.arch_cleared, hr, hlisted, Bool.false_eq_true, if_false]
    exact queueWait_hasRoom (d := s.dev.cleared) hroom
  · simp only [Dev.arch_cleared, hr, resCode, Nat.not_le.2 hsb, if_false]
  · simp only [Dev.issued_regs, Dev.resolve_issued, Dev.arch_cleared, hr, hread]
    refine Dev.updArch_congr ?_
    simp

end

/-! ### Acceptance (R43, R45, R50) -/

theorem Arch.accept_queue (a : Arch) (unit sb : Nat) (cmd : UnitCmd) (t : Nat) (hu : unit < 4) :
    ∃ e : QEntry, (vGet (a.accept unit sb cmd t).units unit clearUnit).queue = (vGet a.units unit clearUnit).queue ++ [e]
      ∧ e.cmd = cmd ∧ e.sb = sb ∧ e.accepted = t ∧ e.started = false := by
  unfold Arch.accept
  dsimp only
  rw [vGet_vSet_same _ _ _ _ hu]
  exact ⟨_, rfl, rfl, rfl, rfl, rfl⟩

theorem Arch.accept_other (a : Arch) (unit sb : Nat) (cmd : UnitCmd) (t : Nat) {u : Nat} (hu : u ≠ unit) :
    vGet (a.accept unit sb cmd t).units u clearUnit = vGet a.units u clearUnit :=
  vGet_vSet_other _ _ _ _ _ hu

/-- A command that names a scoreboard bit is counted there (R50). -/
theorem Arch.accept_count (a : Arch) (unit sb : Nat) (cmd : UnitCmd) (t : Nat) {i : Nat} (hi : i < 16) :
    vGet (a.accept unit sb cmd t).board.count i 0
      = vGet a.board.count i 0 + if 0 < sb ∧ i = unit * 4 + sb - 1 then 1 else 0 := by
  unfold Arch.accept
  dsimp only
  split
  · next h => simp [h]
  · next h =>
    rw [vGet_vSet]
    by_cases hi' : i = unit * 4 + sb - 1
    · subst hi'; rw [if_pos ⟨rfl, hi⟩, if_pos ⟨Nat.pos_of_ne_zero h, rfl⟩]
    · rw [if_neg fun hn => hi' hn.1, if_neg fun hn => hi' hn.2, Nat.add_zero]

/-- Settles O18, one command at a time, and then acceptance itself. -/
theorem otherUnitsAccept : Obligations.OtherUnitsAccept := by
  refine ⟨fun s c g w w' hs hsb => ⟨fun f hroom hfn hvc h => vop_gives hs hsb hroom hfn hvc h,
    fun v aV postInc imm r hroom h hr => vopLd_gives hs hsb hroom h hr,
    fun v aV postInc imm r hroom h hr => vopSt_gives hs hsb hroom h hr,
    fun f hroom hcheck h => send_gives hs hsb hroom hcheck h, fun queue nM1 hroom h => recvAck_gives hs hsb hroom h,
    fun aDesc queue r bs put i hi hroom h hr hv hbs => ?_⟩, fun a unit sb cmd t hu => ?_⟩
  · subst hi
    exact dma_gives hs hsb hroom h hr hv hbs
  · exact ⟨a.accept_queue unit sb cmd t hu, fun u => a.accept_other unit sb cmd t, fun i => a.accept_count unit sb cmd t,
      rfl, rfl, rfl, rfl⟩

end Sys2Proof.Machine
end

section
/-! O19: the tensor unit (R55, R94, R98, R201, R202). The statement fails: it leaves open which command stands in the unit's queue, and a vector load there would have its register's cycle moved at its completion. With any other command at the head the statement's clauses hold. -/

namespace Sys2Proof.Machine

theorem exec_tensorCommandStart (c : CoreId) (s : State) : exec (.tensorCommandStart c) s = s.onDev fun d => d.tensorStart c := rfl

theorem exec_tensorCommandComplete (c : CoreId) (late : Nat) (s : State) : exec (.tensorCommandComplete c late) s = s.onDev fun d =>
    (if (d.arch c).overran late then d.bump 0x4100 8 1 else d).updArch c fun a => a.complete 0 late := rfl

/-! ### What the unit does with its own commands -/

/-- A command that waits at the head of the queue, and that nothing holds up, starts and has its effect. -/
theorem Dev.tensorStart_runs {d : Dev} {c : CoreId} {e : QEntry} {rest : List QEntry} {u : CmdUnit} {r : Started}
    (hu : vGet (d.arch c).units 0 clearUnit = u) (hq : u.queue = e :: rest) (hwaits : e.started = false)
    (hlive : (d.arch c).live = true) (hpast : (d.arch c).routerPast e = true) (hroom : d.verifyRoom c (d.cmdBlocks c e.cmd) = true)
    (hr : (d.listBlocks c 1 e.sb e.pc e.gear (d.cmdBlocks c e.cmd)).tensorRun c e (u.startOf e) = some r) :
    d.tensorStart c = r.dev.updArch c fun a => a.started 0 0 (u.startOf e) r.dur (e.late + r.late) r.tail := by
  unfold Dev.tensorStart
  simp only [hu, hq, hwaits, hlive, hpast, hroom, Bool.not_true, Bool.or_self, Bool.false_eq_true, if_false]
  unfold Dev.tensorRun at hr
  have hstart : max e.accepted u.lastEnd = u.startOf e := rfl
  rw [hstart]
  generalize d.listBlocks c 1 e.sb e.pc e.gear (d.cmdBlocks c e.cmd) = d' at hr ⊢
  generalize u.startOf e = start at hr ⊢
  cases hcmd : e.cmd <;> simp only [hcmd] at hr ⊢
  case accOpen => rw [hr]
  case accClose => obtain rfl := Option.some.inj hr; rfl
  case tmul => rw [hr]
  case drain => rw [hr]
  case tmuls =>
    split at hr
    · next hran => rw [hran, Option.some.inj hr]
    · exact nomatch hr
  all_goals exact nomatch hr

/-- A started command completes in cycle start + D + its late cycles, and leaves the registers unless it is a vector load. -/
theorem Arch.complete_tensor {a : Arch} {e : QEntry} {rest : List QEntry} {late : Nat}
    (hq : (vGet a.units 0 clearUnit).queue = e :: rest) (hstarted : e.started = true) (hcmd : ∀ v r, e.cmd ≠ .vopLd v r) :
    (vGet (a.complete 0 late).units 0 clearUnit).queue = rest
    ∧ (vGet (a.complete 0 late).units 0 clearUnit).lastEnd = e.start + e.dur + (e.late + late)
    ∧ (a.complete 0 late).regs = a.regs := by
  unfold Arch.complete Arch.finish
  simp only [hq, hstarted, Bool.not_true, Bool.false_eq_true, if_false, if_true]
  cases e.tail <;> cases e.cmd.arithmetic <;> simp

/-- The start of a tensor command, as O19 states it (R55, R94, R98, R201, R202). -/
theorem tensorCommandStart_gives {s : State} {c : CoreId} {e : QEntry} {rest : List QEntry} {u : CmdUnit} {r : Started}
    (hs : clocked s) (hu : vGet (s.dev.arch c).units 0 clearUnit = u) (hq : u.queue = e :: rest) (hwaits : e.started = false)
    (hlive : (s.dev.arch c).live = true) (hpast : (s.dev.arch c).routerPast e = true)
    (hroom : s.dev.verifyRoom c (s.dev.cmdBlocks c e.cmd) = true)
    (hr : (s.dev.cleared.listBlocks c 1 e.sb e.pc e.gear (s.dev.cmdBlocks c e.cmd)).tensorRun c e (u.startOf e) = some r) :
    gives (.tensorCommandStart c) s (r.dev.updArch c fun a => a.started 0 0 (u.startOf e) r.dur (e.late + r.late) r.tail) :=
  gives_of_onDev hs (exec_tensorCommandStart c s) (Dev.tensorStart_runs (d := s.dev.cleared) hu hq hwaits hlive hpast hroom hr)

/-- The completion of a command of the tensor unit that is no vector load, as O19 states it (R98). -/
theorem tensorCommandComplete_gives {s : State} {c : CoreId} {e : QEntry} {rest : List QEntry} {late : Nat} (hs : clocked s)
    (hq : (vGet (s.dev.arch c).units 0 clearUnit).queue = e :: rest) (hstarted : e.started = true)
    (hcmd : ∀ v r, e.cmd ≠ .vopLd v r) : ∃ t, exec (.tensorCommandComplete c late) s = .next t
      ∧ (vGet (t.dev.arch c).units 0 clearUnit).queue = rest
      ∧ (vGet (t.dev.arch c).units 0 clearUnit).lastEnd = e.start + e.dur + (e.late + late)
      ∧ (t.dev.arch c).regs = (s.dev.arch c).regs ∧ (t.dev.core c).mem = (s.dev.core c).mem ∧ sameCores s t c := by
  have hcore (x : CoreId) : (if (s.dev.cleared.arch c).overran late then s.dev.cleared.bump 0x4100 8 1 else s.dev.cleared).core x
      = s.dev.core x := by
    split
    · rw [Dev.core_bump]; rfl
    · rfl
  obtain ⟨hqueue, hend, hregs⟩ := Arch.complete_tensor (late := late) hq hstarted hcmd
  refine ⟨_, (exec_tensorCommandComplete c late s).trans (onDev_gives hs), ?_⟩
  generalize (if (s.dev.cleared.arch c).overran late then s.dev.cleared.bump 0x4100 8 1 else s.dev.cleared) = d at hcore ⊢
  simp only [sameCores, State.closing_core, Dev.arch, Dev.core_updArch, hcore, if_true]
  exact ⟨hqueue, hend, hregs, trivial, fun x hx => if_neg hx⟩

/-! ### The counterexample -/

/-- A vector load that has started, with no cycle of its own. -/
def startedLoad : QEntry := ⟨.vopLd 0 ⟨0, 0, false, 0, 0⟩, 0, 0, 0, 0, true, 0, 0, 0, false, 0, 0, 0, none⟩

/-- A tensor unit that holds that load. -/
def loadingUnit : CmdUnit := { clearUnit with queue := [startedLoad] }

/-- The state at reset, but with that unit at the core at the origin, whose vector register 0 is written in the load's last cycle. Instructions put loads into the vector unit's queue alone, but the statement speaks of every state. -/
def misplacedLoad : State :=
  { State.reset with dev := { State.reset.dev with cores := [(0, { clearCore with arch := { clearArch with
      regs := { clearRegs with vready := [(0, 0)] }, units := vSet clearArch.units 0 loadingUnit } })] } }

/-- Refutes O19: the completion, one cycle late, of a vector load at the head of the tensor unit's queue moves the cycle of its register, so that the registers are not as they were. -/
theorem not_tensorUnit : ¬ Obligations.TensorUnit := by
  intro h
  obtain ⟨-, hcomplete, -⟩ := h misplacedLoad ⟨0, 0⟩ startedLoad [] loadingUnit rfl rfl rfl
  obtain ⟨t, ht, -, -, hregs, -, -⟩ := hcomplete 1 rfl
  obtain rfl := Host.Outcome.next.inj (ht.symm.trans ((exec_tensorCommandComplete _ _ _).trans (onDev_gives rfl)))
  rw [State.closing_arch] at hregs
  have hready := congrArg Regs.vready hregs
  exact absurd hready (by decide)

end Sys2Proof.Machine
end

section
/-! O21: verdicts of the checker, block verification and reads of a last status (R67, R77, R201, R202, R359 to R364). -/

namespace Sys2Proof.Machine

/-! ### Verdicts (R359 to R364) -/

theorem exec_checkerVerdict (c : CoreId) (rows cols refRows refCols : NMap Int) (q : Int) (s : State) :
    exec (.checkerVerdict c rows cols refRows refCols q) s
      = s.onDev fun d => d.verdict c fun k => k.upset rows cols refRows refCols q := rfl

/-- The flags of status word 0 after the verdict on a command whose first failed check is `failed` (R361, R364). -/
def Verdict.flagged (v : Verdict) (flags : Vector Bool 6) (failed : Option Check) : Vector Bool 6 :=
  let flags := if v.inexact then vSet flags 4 true else flags
  let flags := if 0 < v.skips then vSet flags 5 true else flags
  match failed with
  | some f => vSet flags f.kind true
  | none => flags

/-- A core after the verdict on the oldest of its commands that await one, of which `checks` came out and `failed` is the first that fails. -/
def Arch.judge (a : Arch) (v : Verdict) (rest : List Verdict) (checks : List Check) (failed : Option Check) : Arch :=
  { a with
    stat := { a.stat with
      clean := a.stat.clean && failed.isNone
      suspects := if failed.isSome then ⟨cCheckMismatch, 4, v.ordinal, 0⟩ :: a.stat.suspects else a.stat.suspects }
    checker := { a.checker with
      flags := v.flagged a.checker.flags failed, pendingV := rest
      judged := (a.checker.judged.filter fun p => decide (a.stat.cyc < p.due)) ++ [v]
      failed := a.checker.failed + (if failed.isSome then 1 else 0)
      tensorJudged := a.checker.tensorJudged + (if v.tensor && !v.drain then 1 else 0)
      vectorJudged := a.checker.vectorJudged + (if !v.tensor || v.drain then 1 else 0)
      results := a.checker.results ++ [(v.ordinal, checks)]
      suspect := a.checker.suspect.or (failed.map fun f => ⟨v.ordinal, f⟩) } }

/-- The verdict is that change of its core; other cores stay. -/
theorem Dev.verdict_core {d : Dev} {c : CoreId} {changed : Check → Check} {v : Verdict} {rest : List Verdict} {failed : Option Check}
    (hp : (d.arch c).checker.pendingV = v :: rest) (hf : ((v.checks.map changed).find? fun r => !r.passes) = failed) (e : CoreId) :
    (d.verdict c changed).core e = if ckey e = ckey c then
      { d.core c with arch := (d.arch c).judge v rest (v.checks.map changed) failed } else d.core e := by
  unfold Dev.verdict Arch.judge Verdict.flagged
  simp only [hp, hf]
  cases failed with
  | none => cases hs : (d.arch c).checker.suspect <;> simp [Dev.arch]
  | some k => cases hs : (d.arch c).checker.suspect <;> by_cases he : ckey e = ckey c <;> simp [he, Dev.arch]

/-- When all checks pass, status, count of failed commands and suspect record stay. -/
theorem Arch.judge_passes (a : Arch) (v : Verdict) (rest : List Verdict) (checks : List Check) :
    (a.judge v rest checks none).stat = a.stat ∧ (a.judge v rest checks none).checker.failed = a.checker.failed
      ∧ (a.judge v rest checks none).checker.suspect = a.checker.suspect := by
  simp [Arch.judge]

/-- The first check that fails clears the clean flag, is counted, marks its kind and makes the suspect record where there is none. -/
theorem Arch.judge_fails (a : Arch) (v : Verdict) (rest : List Verdict) (checks : List Check) (k : Check) :
    (a.judge v rest checks (some k)).stat.clean = false
      ∧ (a.judge v rest checks (some k)).checker.failed = a.checker.failed + 1
      ∧ (k.kind < 6 → vGet (a.judge v rest checks (some k)).checker.flags k.kind false = true)
      ∧ (a.checker.suspect = none → (a.judge v rest checks (some k)).checker.suspect = some ⟨v.ordinal, k⟩)
      ∧ (a.checker.suspect ≠ none → (a.judge v rest checks (some k)).checker.suspect = a.checker.suspect) := by
  refine ⟨Bool.and_false _, rfl, vGet_vSet_same _ _ _ _, fun h => ?_, fun h => ?_⟩
  · simp [Arch.judge, h]
  · obtain ⟨r, hr⟩ := Option.ne_none_iff_exists'.1 h
    simp [Arch.judge, hr]

/-! ### Block verification (R201, R202) -/

theorem exec_verifyBlock (c : CoreId) (flips : NMap Nat) (s : State) :
    exec (.verifyBlock c flips) s = s.onDev fun d => d.verifyBlock c flips := rfl

/-- The device when the verifier of core c has taken a block from the set, which then holds `rest` (R201). -/
def Dev.takesBlock (d : Dev) (c : CoreId) (rest : List VerEnt) : Dev :=
  (d.updArch c fun a => { a with verify := rest }).bump 0x3000 0xB 1

@[simp] theorem Dev.core_takesBlock (d : Dev) (c e : CoreId) (rest : List VerEnt) : (d.takesBlock c rest).core e
    = if ckey e = ckey c then { d.core c with arch := { d.arch c with verify := rest } } else d.core e := by
  simp [Dev.takesBlock, Dev.arch]

theorem Dev.mem_takesBlock (d : Dev) (c o : CoreId) (rest : List VerEnt) : ((d.takesBlock c rest).core o).mem = (d.core o).mem := by
  rw [Dev.takesBlock, Dev.core_bump, Dev.mem_updArch]

/-- A block without a bad quarter is judged by its check word alone. -/
theorem Dev.verifyBlock_readable {d : Dev} {c : CoreId} {v : VerEnt} {rest : List VerEnt} {near : Bool}
    (hv : (d.arch c).verify = v :: rest) (hnear : near = decide (v.bank % 2 = 1))
    (hgood : ∀ q ∈ (if near then (d.core (coreOfKey (v.bank / 2))).mem.badNear else (d.core (coreOfKey (v.bank / 2))).mem.badHome),
      q / 256 ≠ v.blk) :
    d.verifyBlock c [] =
      if (d.core (coreOfKey (v.bank / 2))).mem.agrees near v.blk then (d.takesBlock c rest).updArch c fun a =>
        { a with verified := (v.bank, v.blk, d.writesOf (v.bank, v.blk)) :: a.verified }
      else
        let e := ((d.takesBlock c rest).bump 0x3000 0xC 1).stop c cBlockCheckFail v.unit v.sb v.pc v.gear 0 0
        if near then e.updCore c fun k => k.markSuspect 2 else e := by
  have hwrites : (d.takesBlock c rest).writesOf (v.bank, v.blk) = d.writesOf (v.bank, v.blk) := by
    unfold Dev.writesOf; rw [Dev.mem_takesBlock]
  have hfind : ((if near then (d.core (coreOfKey (v.bank / 2))).mem.badNear
      else (d.core (coreOfKey (v.bank / 2))).mem.badHome).find? fun q => q / 256 = v.blk) = none :=
    List.find?_eq_none.2 fun q hq => by simpa using hgood q hq
  subst hnear
  unfold Dev.takesBlock at hwrites ⊢
  unfold Dev.verifyBlock
  simp only [decide_eq_true_eq] at hfind ⊢
  simp only [hv, List.isEmpty_nil, if_true, Dev.core_bump, Dev.mem_updArch, hfind, hwrites]

/-- From device d to device e core c has stopped, with a code and a place in its exception registers; its registers, memory and verify set stay, and so do the other cores. -/
def stoppedWith (d e : Dev) (c : CoreId) (exc : LastStatus) (place : Nat) : Prop :=
  (e.arch c).verify = (d.arch c).verify ∧ (e.arch c).stat.run = .stopped ∧ (e.arch c).stat.clean = false
    ∧ (e.arch c).stat.exc = exc ∧ (e.arch c).stat.excWhere = place ∧ (e.arch c).verified = (d.arch c).verified
    ∧ (e.arch c).regs = (d.arch c).regs ∧ (e.core c).mem = (d.core c).mem ∧ ∀ x : CoreId, ckey x ≠ ckey c → e.core x = d.core x

theorem Dev.stop_stoppedWith (d : Dev) (c : CoreId) (code : Code) (unit sb pc gear d0 d1 : Nat) (h : (d.arch c).stat.run ≠ .stopped) :
    stoppedWith d (d.stop c code unit sb pc gear d0 d1) c ⟨code, unit, sb, 0⟩ (pc + 4096 * gear) := by
  have hc := Dev.stop_core d c c code unit sb pc gear d0 d1 h
  rw [if_pos rfl] at hc
  have ha : (d.stop c code unit sb pc gear d0 d1).arch c = _ := (congrArg Core.arch hc).trans (Core.reportStop_arch _)
  refine ⟨?_, ?_, ?_, ?_, ?_, ?_, ?_, ?_, fun x hx => ?_⟩
  case refine_8 => rw [hc, Core.reportStop_mem]
  case refine_9 => rw [Dev.stop_core d c x code unit sb pc gear d0 d1 h, if_neg hx]
  all_goals rw [ha]; rfl

/-- Saying of the suspect result where the bad block lay leaves all that (R384). -/
theorem stoppedWith.marked {d e : Dev} {c : CoreId} {exc : LastStatus} {place : Nat} (h : stoppedWith d e c exc place) (n : Nat) :
    stoppedWith d (e.updCore c fun k => k.markSuspect n) c exc place := by
  unfold stoppedWith at h ⊢
  simp only [Dev.arch_updCore, Dev.core_updCore, if_true]
  obtain ⟨hverify, hrun, hclean, hexc, hplace, hverified, hregs, hmem, hothers⟩ := h
  exact ⟨hverify, hrun, hclean, hexc, hplace, hverified, hregs, hmem, fun x hx => (if_neg hx).trans (hothers x hx)⟩

/-- A block that does not agree with its check word stops the core that listed it with BLOCK_CHECK_FAIL. -/
theorem Dev.verifyBlock_differs {d : Dev} {c : CoreId} {v : VerEnt} {rest : List VerEnt} {near : Bool}
    (hv : (d.arch c).verify = v :: rest) (hnear : near = decide (v.bank % 2 = 1))
    (hgood : ∀ q ∈ (if near then (d.core (coreOfKey (v.bank / 2))).mem.badNear else (d.core (coreOfKey (v.bank / 2))).mem.badHome),
      q / 256 ≠ v.blk)
    (hdiffers : (d.core (coreOfKey (v.bank / 2))).mem.agrees near v.blk = false) (hrun : (d.arch c).stat.run ≠ .stopped) :
    stoppedWith ((d.takesBlock c rest).bump 0x3000 0xC 1) (d.verifyBlock c []) c ⟨cBlockCheckFail, v.unit, v.sb, 0⟩
      (v.pc + 4096 * v.gear) := by
  have hlive : (((d.takesBlock c rest).bump 0x3000 0xC 1).arch c).stat.run ≠ .stopped := by
    rw [Dev.arch, Dev.core_bump, Dev.core_takesBlock, if_pos rfl]; exact hrun
  have hstop := Dev.stop_stoppedWith _ c cBlockCheckFail v.unit v.sb v.pc v.gear 0 0 hlive
  rw [Dev.verifyBlock_readable hv hnear hgood, hdiffers, if_neg Bool.false_ne_true]
  cases near
  · exact hstop
  · exact hstop.marked 2

/-! ### The three events -/

theorem exec_lastStatusRead (c : CoreId) (unit : Nat) (s : State) :
    exec (.lastStatusRead c unit) s = execLastStatusRead c unit s := rfl

theorem checkerVerdict_gives {s : State} {c : CoreId} {v : Verdict} {rest : List Verdict} {rows cols refRows refCols : NMap Int}
    {q : Int} {checks : List Check} {failed : Option Check} (hs : clocked s) (hp : (s.dev.arch c).checker.pendingV = v :: rest)
    (hchecks : checks = v.checks.map fun k => k.upset rows cols refRows refCols q) (hf : (checks.find? fun r => !r.passes) = failed) :
    ∃ t, exec (.checkerVerdict c rows cols refRows refCols q) s = .next t
      ∧ t.dev.arch c = (s.dev.arch c).judge v rest checks failed
      ∧ (t.dev.core c).mem = (s.dev.core c).mem ∧ sameCores s t c := by
  subst hchecks
  have hcore := Dev.verdict_core (d := s.dev.cleared) hp hf
  refine ⟨_, (exec_checkerVerdict ..).trans (onDev_gives hs), ?_⟩
  simp only [sameCores, Dev.arch, State.closing_core, hcore, if_true]
  exact ⟨rfl, rfl, fun e he => if_neg he⟩

/-- Settles O21: a verdict judges its command by the first check that fails, a block is judged by its check word, and a read of a last status gives its word. -/
theorem checkerAndStatus : Obligations.CheckerAndStatus := by
  intro s c hs
  refine ⟨fun v rest rows cols refRows refCols q checks hp hchecks => ?_, fun v rest near hv hnear hgood => ⟨fun hagrees => ?_,
    fun hdiffers hrun => ?_⟩, fun unit _ => gives_of_onDev hs (exec_lastStatusRead c unit s) rfl⟩
  · obtain ⟨t, ht, ha, hmem, hothers⟩ := checkerVerdict_gives hs hp hchecks rfl
    refine ⟨t, ht, by rw [ha]; rfl, by rw [ha]; rfl, by rw [ha]; rfl, by rw [ha]; rfl, fun hall => ?_, fun pre k post hsplit hpre hk => ?_,
      by rw [ha]; rfl, by rw [ha]; rfl, hmem, hothers⟩
    · have hnone : (checks.find? fun r => !r.passes) = none := List.find?_eq_none.2 fun k hk => by simp [hall k hk]
      rw [ha, hnone]
      exact Arch.judge_passes ..
    · have hsome : (checks.find? fun r => !r.passes) = some k :=
        List.find?_eq_some_iff_append.2 ⟨by simp [hk], pre, post, hsplit, fun p hp => by simp [hpre p hp]⟩
      rw [ha, hsome]
      exact Arch.judge_fails ..
  · exact gives_of_onDev hs (exec_verifyBlock c [] s)
      ((Dev.verifyBlock_readable (d := s.dev.cleared) hv hnear hgood).trans (if_pos hagrees))
  · have hstop := Dev.verifyBlock_differs (d := s.dev.cleared) hv hnear hgood hdiffers hrun
    refine ⟨_, (exec_verifyBlock c [] s).trans (onDev_gives hs), ?_⟩
    simp only [stoppedWith, sameCores, Dev.arch, State.closing_core, Dev.core_bump, Dev.core_takesBlock, if_true] at hstop ⊢
    obtain ⟨hverify, hstopped, hclean, hexc, hplace, hverified, hregs, hmem, hothers⟩ := hstop
    exact ⟨hverify, hstopped, hclean, hexc, hplace, hverified, hregs, hmem, fun x hx => (hothers x hx).trans (if_neg hx)⟩

end Sys2Proof.Machine
end

section
/-! O22: the small events of the near store and the hub (R71, R78, R188, R191, R193 to R195). -/

namespace Sys2Proof.Machine

theorem exec_hubStarvationGrant (loser : Loser) (s : State) :
    exec (.hubStarvationGrant loser) s = s.onDev fun d => d.lateFor loser.core loser.unit 1 := rfl
theorem exec_nearStarvationGrant (loser : Loser) (s : State) :
    exec (.nearStarvationGrant loser) s = s.onDev fun d => d.lateFor loser.core loser.unit 4 := rfl
theorem exec_nearRefresh (loser : Loser) (wait : Nat) (s : State) :
    exec (.nearRefresh loser wait) s = execNearRefresh loser wait s := rfl
theorem exec_eccWriteback (c : CoreId) (place row : Nat) (s : State) :
    exec (.eccWriteback c place row) s = execEccWriteback c place row s := rfl
theorem exec_nearRowMapped (c : CoreId) (lost : List Nat) (loser wait : Nat) (s : State) :
    exec (.nearRowMapped c lost loser wait) s = execNearRowMapped c lost loser wait s := rfl

/-! ### Late cycles (R58, R60, R61, R71) -/

/-- A wait of n cycles that are all late. -/
theorem CoreStat.waitFor_late (s : CoreStat) (n : Nat) :
    (s.now.waitFor (s.now.cyc + n) n).cyc = s.cyc + n ∧ (s.now.waitFor (s.now.cyc + n) n).late = n := by
  unfold At.waitFor
  split
  · next h =>
    obtain rfl : n = 0 := by simpa using h
    exact ⟨rfl, rfl⟩
  · exact ⟨rfl, by simp [CoreStat.now]⟩

/-- A stall of the scalar unit is of late cycles alone: the issue count stays. -/
theorem CoreStat.spent_late (s : CoreStat) (n : Nat) :
    (s.spent (s.now.waitFor (s.now.cyc + n) n) 0).cyc = s.cyc + n ∧ (s.spent (s.now.waitFor (s.now.cyc + n) n) 0).late = s.late + n
      ∧ (s.spent (s.now.waitFor (s.now.cyc + n) n) 0).issue = s.issue := by
  obtain ⟨hcyc, hlate⟩ := s.waitFor_late n
  simp [CoreStat.spent, hcyc, hlate]

theorem Dev.lateFor_scalar (d : Dev) (c : CoreId) (n : Nat) :
    ((d.lateFor c 0 n).arch c).stat.late = (d.arch c).stat.late + n
      ∧ ((d.lateFor c 0 n).arch c).stat.cyc = (d.arch c).stat.cyc + n
      ∧ ((d.lateFor c 0 n).arch c).stat.issue = (d.arch c).stat.issue
      ∧ ((d.lateFor c 0 n).arch c).regs = (d.arch c).regs ∧ ((d.lateFor c 0 n).core c).mem = (d.core c).mem := by
  obtain ⟨hcyc, hlate, hissue⟩ := (d.arch c).stat.spent_late n
  simp only [Dev.lateFor, Dev.stallLate, if_true, Dev.core_spend, Dev.arch_spend]
  exact ⟨hlate, hcyc, hissue, trivial, trivial⟩

theorem Dev.lateFor_unit (d : Dev) (c : CoreId) (unit n : Nat) (h : 0 < unit) :
    d.lateFor c unit n = d.updArch c fun a => a.updHead (unit - 1) fun e => { e with late := e.late + n } :=
  if_neg (Nat.ne_of_gt h)

/-! ### Corrected words (R188, R191) -/

@[simp] theorem Dev.slice_updSlice (d : Dev) (p q : Nat) (f : SliceSt → SliceSt) :
    (d.updSlice p f).slice q = if q = p then f (d.slice p) else d.slice q := by
  unfold Dev.updSlice Dev.slice
  rw [nmGet_nmSet]
  split <;> rfl

@[simp] theorem Dev.slice_bump (d : Dev) (i s n p : Nat) : (d.bump i s n).slice p = d.slice p := by unfold Dev.bump; split <;> rfl

theorem Dev.physKey_bump (d : Dev) (i s n : Nat) (c : CoreId) : (d.bump i s n).physKey c = d.physKey c := by
  unfold Dev.bump; split <;> rfl

theorem Dev.objD_updSlice (d : Dev) (p i u x : Nat) (f : SliceSt → SliceSt) : (d.updSlice p f).objD i u x = d.objD i u x := rfl

@[simp] theorem Dev.core_updSlice (d : Dev) (p : Nat) (f : SliceSt → SliceSt) (e : CoreId) : (d.updSlice p f).core e = d.core e := rfl

/-- That a row is to be mapped out changes no count of corrected errors. -/
theorem Dev.rowDue_corrected (d : Dev) (c : CoreId) (row p : Nat) : ((d.rowDue c row).slice p).corrected = (d.slice p).corrected := by
  unfold Dev.rowDue
  rw [Dev.slice_updSlice]
  split
  · next h => rw [h]
  · rfl

/-- A corrected word in a row of a slice is counted for the device and for the slice, and changes no core. -/
theorem Dev.rowError_counts (d : Dev) (c : CoreId) (row : Nat) :
    (d.rowError c row).objD 0x3000 8 0 = d.objD 0x3000 8 0 + 1
      ∧ ((d.rowError c row).slice (d.physKey c)).corrected = min (2 ^ 32 - 1) ((d.slice (d.physKey c)).corrected + 1)
      ∧ ∀ e, (d.rowError c row).core e = d.core e := by
  unfold Dev.rowError
  dsimp only
  split
  · refine ⟨d.objD_bump 0x3000 8 1, ?_, fun e => d.core_bump 0x3000 8 1 e⟩
    rw [Dev.rowDue_corrected, Dev.slice_updSlice, if_pos rfl, Dev.slice_bump]
  · refine ⟨d.objD_bump 0x3000 8 1, ?_, fun e => d.core_bump 0x3000 8 1 e⟩
    rw [Dev.slice_updSlice, if_pos rfl, Dev.slice_bump]

/-! ### Mapped rows (R195) -/

/-- A new record of the defect map leaves the list of mapped rows. -/
theorem Keep.enter_nearRows (k : Keep) (r : DefRec) : (k.enter r).nearRows = k.nearRows := by
  unfold Keep.enter
  dsimp only
  split_ifs <;> rfl

/-- With a spare row, a mapped row enters the list of mapped rows; cores and slices stay. -/
theorem Dev.mapRow_spare (d : Dev) (px py die row : Nat) (logical : Option CoreId) (h : d.keep.spareLeft px py die ≠ 0) :
    (d.mapRow px py die row logical).keep.nearRows = (py * 64 + px, die * 8192 + row) :: d.keep.nearRows
      ∧ (∀ e, (d.mapRow px py die row logical).core e = d.core e) ∧ ∀ p, (d.mapRow px py die row logical).slice p = d.slice p := by
  unfold Dev.mapRow
  rw [if_neg h]
  dsimp only
  obtain ⟨objs, hraised⟩ := Dev.raised_frame _ cNearRowMapped
  obtain ⟨objs', log, out, hrecord⟩ := Dev.record_frame _ cNearRowMapped 11 0 _ _ _ false 0 0
  rw [hrecord, hraised]
  exact ⟨Keep.enter_nearRows _ _, fun _ => rfl, fun _ => rfl⟩

@[simp] theorem State.closing_slice (s : State) (d : Dev) (p : Nat) : (s.closing d).dev.slice p = d.slice p := by
  obtain ⟨_, _, _, _, _, h⟩ := s.closing_dev d; rw [h]; rfl

@[simp] theorem Arch.updHead_regs (a : Arch) (unit : Nat) (f : QEntry → QEntry) : (a.updHead unit f).regs = a.regs := by
  unfold Arch.updHead; dsimp only; split <;> rfl

/-- The quarters that read uncorrectable once the row's own of a list have joined those that did. -/
theorem mem_joinedQuarters (bad lost : List Nat) (row q : Nat) :
    q ∈ bad ++ (lost.filter fun q => nearRow (16 * q) = row).filter (fun q => !bad.contains q)
      ↔ q ∈ bad ∨ (q ∈ lost ∧ nearRow (16 * q) = row) := by
  by_cases h : q ∈ bad <;> simp [h]

/-- The device with a row of a core's slice copied to a spare one: `rest` are still to be mapped out, and those of the quarters `lost` that lie in the row read uncorrectable. -/
def Dev.rowCopied (d : Dev) (c : CoreId) (row : Nat) (rest lost : List Nat) : Dev :=
  (d.updSlice (d.physKey c) fun x => { x with due := rest, rowErrs := x.rowErrs.filter fun e => e.1 != row }).updCore c fun k =>
    { k with mem := { k.mem with badNear := k.mem.badNear
        ++ (lost.filter fun q => nearRow (16 * q) = row).filter fun q => !k.mem.badNear.contains q } }

theorem Dev.rowCopied_due (d : Dev) (c : CoreId) (row : Nat) (rest lost : List Nat) :
    ((d.rowCopied c row rest lost).slice (d.physKey c)).due = rest := by
  have h := (Dev.slice_updSlice d (d.physKey c) (d.physKey c) fun x =>
    { x with due := rest, rowErrs := x.rowErrs.filter fun e => e.1 != row }).trans (if_pos rfl)
  exact (congrArg SliceSt.due h :)

theorem Dev.rowCopied_core (d : Dev) (c e : CoreId) (row : Nat) (rest lost : List Nat) :
    (d.rowCopied c row rest lost).core e = if ckey e = ckey c then { d.core c with mem := { (d.core c).mem with
      badNear := (d.core c).mem.badNear ++ (lost.filter fun q => nearRow (16 * q) = row).filter fun q => !(d.core c).mem.badNear.contains q } }
    else d.core e := by
  rw [Dev.rowCopied, Dev.core_updCore, Dev.core_updSlice, Dev.core_updSlice]

theorem nearRowMapped_gives {s : State} {c : CoreId} {row loser wait : Nat} {rest lost : List Nat} (hs : clocked s)
    (hdue : (s.dev.slice (s.dev.physKey c)).due = row :: rest) :
    gives (.nearRowMapped c lost loser wait) s (((s.dev.cleared.rowCopied c row rest lost).mapRow (s.dev.physCore c).1
      (s.dev.physCore c).2 (row / 8192) (row % 8192) (some c)).lateFor c loser wait) := by
  have hdue' : (s.dev.cleared.slice (s.dev.cleared.physKey c)).due = row :: rest := hdue
  refine gives_of_onDev hs (exec_nearRowMapped ..) ?_
  simp only [hdue']
  rfl

/-- The oldest row that is to be mapped out is mapped while a spare row lasts, and what read uncorrectable of it stays lost (R195). -/
theorem nearRowMapped_maps {s : State} {c : CoreId} {row wait : Nat} {rest lost : List Nat} (hs : clocked s)
    (hdue : (s.dev.slice (s.dev.physKey c)).due = row :: rest)
    (hspare : s.dev.keep.spareLeft (s.dev.physCore c).1 (s.dev.physCore c).2 (row / 8192) ≠ 0) :
    ∃ t, exec (.nearRowMapped c lost 1 wait) s = .next t
      ∧ t.nv.keep.nearRows = ((s.dev.physCore c).2 * 64 + (s.dev.physCore c).1, row) :: s.dev.keep.nearRows
      ∧ (t.dev.slice (s.dev.physKey c)).due = rest
      ∧ (∀ q, q ∈ (t.dev.core c).mem.badNear ↔ q ∈ (s.dev.core c).mem.badNear ∨ (q ∈ lost ∧ nearRow (16 * q) = row))
      ∧ (t.dev.arch c).regs = (s.dev.arch c).regs ∧ (t.dev.core c).mem.near = (s.dev.core c).mem.near ∧ sameCores s t c := by
  obtain ⟨hrows, hcore, hslice⟩ := Dev.mapRow_spare (s.dev.cleared.rowCopied c row rest lost) (s.dev.physCore c).1
    (s.dev.physCore c).2 (row / 8192) (row % 8192) (some c) hspare
  refine ⟨_, nearRowMapped_gives hs hdue, ?_⟩
  rw [Nat.div_add_mod'] at hrows
  rw [Dev.lateFor_unit _ _ _ _ Nat.one_pos]
  simp only [sameCores, Dev.arch, State.closing_core, State.closing_nv, State.closing_slice, Dev.core_updArch, hcore,
    Dev.rowCopied_core, Dev.core_cleared, if_true, Arch.updHead_regs]
  exact ⟨hrows, (congrArg SliceSt.due (hslice _)).trans (Dev.rowCopied_due s.dev.cleared ..), fun q => mem_joinedQuarters .., trivial,
    trivial, fun e he => by rw [if_neg he, if_neg he]⟩

/-- Settles O22: stalls, counts and the mapping of a row, one event at a time. -/
theorem nearStore : Obligations.NearStore := by
  intro s c hs
  refine ⟨fun unit => ⟨gives_of_onDev hs (exec_hubStarvationGrant _ s) rfl, gives_of_onDev hs (exec_nearStarvationGrant _ s) rfl,
    fun wait => gives_of_onDev hs (exec_nearRefresh _ wait s) rfl⟩, fun d n => ?_,
    fun row => ⟨gives_of_onDev hs (exec_eccWriteback c 0 row s) rfl, ?_, fun n => gives_of_onDev hs (exec_eccWriteback c (n + 2) row s) rfl⟩,
    fun row rest lost wait => nearRowMapped_maps hs⟩
  · obtain ⟨hlate, hcyc, hissue, hregs, hmem⟩ := d.lateFor_scalar c n
    exact ⟨hlate, hcyc, hissue, hregs, hmem, fun unit hunit _ => d.lateFor_unit c unit n hunit,
      fun e he => (Dev.core_spend ..).trans (if_neg he)⟩
  · obtain ⟨hcount, hcorrected, hcores⟩ := s.dev.cleared.rowError_counts c row
    have hgives : gives (.eccWriteback c 1 row) s (s.dev.cleared.rowError c row) := gives_of_onDev hs (exec_eccWriteback c 1 row s) rfl
    exact ⟨_, hgives, by rw [State.closing_objD]; exact hcount, by rw [State.closing_slice]; exact hcorrected,
      fun e => by rw [State.closing_core]; exact hcores e⟩

end Sys2Proof.Machine
end

section
/-! What a core makes of an instruction that it presents and does not issue: it passes it over, or refuses it (R75, R88 to R92, R108). -/

namespace Sys2Proof.Machine

section
variable {d : Dev} {c : CoreId} {g : Common} {n : Need} {b : Body} (hrun : (d.arch c).stat.run = .running)
  (hrouter : (d.arch c).routerBehind = false) (hcode : (d.core c).inCode (d.arch c).stat.gear (d.arch c).stat.pc = true)
include hrun hrouter hcode

/-- A reserved guard is looked at before anything else of the instruction. -/
theorem Dev.present_guardReserved (hres : guardReserved g = true) :
    d.present c g n b = d.refuse c g n.unit (d.arch c).stat.now cReservedNonzero := by
  unfold Dev.present
  simp only [Dev.arch] at *
  simp [hrun, hrouter, hcode, hres]

/-- A guard on an instruction that must have none is refused after a reserved one (R108). -/
theorem Dev.present_guarded (hres : guardReserved g = false) (hun : n.unguarded = true)
    (hg : ¬(g.guardIdx = 0 ∧ g.guardNeg = false)) :
    d.present c g n b = d.refuse c g n.unit (d.arch c).stat.now cBadArgument := by
  have hguarded : (n.unguarded && !(g.guardIdx = 0 && !g.guardNeg)) = true := by
    simpa [hun, imp_iff_not_or] using hg
  unfold Dev.present
  simp only [Dev.arch] at *
  simp only [hrun, hrouter, ne_eq, not_true_eq_false, if_false, hcode, Bool.not_true, Bool.false_eq_true, hres, hguarded, if_true]

/-- An instruction whose guard is false takes its issue cycle and is passed over (R90). -/
theorem Dev.present_guardFalse {w : At} (hres : guardReserved g = false) (hun : n.unguarded = false)
    (hw : (d.arch c).guardWait g = some w) (hg : (d.arch c).guardTrue g w.cyc = false) :
    d.present c g n b = d.issued c w := by
  unfold Dev.present
  simp only [Dev.arch] at *
  simp [hrun, hrouter, hcode, hres, hun, hw, hg, Dev.issued]

end

/-- An instruction that its core is to execute, whose wait ends and one of whose checks fails, is refused with that check's code. -/
theorem Dev.present_refused {d : Dev} {c : CoreId} {g : Common} {unit : Nat} {unguarded : Bool} {regs : List Nat} {b : Body}
    {w w' : At} {code : Code} (h : d.issues c g unguarded regs w) (hwait : b.wait d w = .ok w')
    (hcheck : b.check d w' = some code) : d.present c g ⟨unit, unguarded, regs⟩ b = d.refuse c g unit w' code := by
  obtain ⟨hrun, hrouter, hcode, hres, hun, w0, hw0, hg, rfl⟩ := h
  have hguarded : (unguarded && !(g.guardIdx = 0 && !g.guardNeg)) = false := by
    cases unguarded
    · rfl
    · obtain ⟨hidx, hneg⟩ := hun rfl
      simp [hidx, hneg]
  unfold Dev.present
  simp only [Dev.arch] at *
  simp only [hrun, hrouter, ne_eq, not_true_eq_false, if_false, hcode, Bool.not_true, Bool.false_eq_true, hres, hguarded, hw0, hg, hwait, hcheck]

/-- An instruction that its core is to execute, whose wait ends and one of whose checks fails, gives its refusal. -/
theorem gives_refused {s : State} {i : Instr} {c : CoreId} {g : Common} {unit : Nat} {unguarded : Bool} {regs : List Nat}
    {b : Body} {w w' : At} {code : Code} (hs : clocked s)
    (hi : exec i s = s.onDev fun d => d.present c g ⟨unit, unguarded, regs⟩ b) (h : s.dev.issues c g unguarded regs w)
    (hwait : b.wait s.dev.cleared w = .ok w') (hcheck : b.check s.dev.cleared w' = some code) :
    gives i s (s.dev.cleared.refuse c g unit w' code) :=
  gives_of_onDev hs hi (Dev.present_refused (d := s.dev.cleared) h hwait hcheck)

section
variable {s : State} {i : Instr} {c : CoreId} {g : Common} {w : At} {regs : List Nat} {check : Arch → Option Code}
  {f : Arch → Nat → Arch} (hs : clocked s)
  (hi : exec i s = s.onDev fun d => d.present c g ⟨0, false, regs⟩ (pureBody c check f)) (h : s.dev.issues c g false regs w)
include hs hi h

/-- An instruction that only changes its core's own state has that effect when its check passes. -/
theorem gives_pure {d : Dev} (hcheck : check (s.dev.arch c) = none)
    (heff : ((s.dev.cleared.issued c w).updArch c fun a => f a w.cyc) = d) : gives i s d :=
  gives_present hs hi h rfl hcheck heff

/-- An instruction that only changes its core's own state is refused, with unit 0, when its check fails. -/
theorem gives_pure_refused {code : Code} (hcheck : check (s.dev.arch c) = some code) :
    gives i s (s.dev.cleared.refuse c g 0 w code) :=
  gives_refused hs hi h rfl hcheck

end

/-! ### Scalar and predicate results (R47, R49, R96) -/

/-- A write to s0 is discarded, and s0 is never awaited. -/
@[simp] theorem Arch.putS_zero_regs (a : Arch) (v : Word) (t latency : Nat) : (a.putS 0 v t latency).regs = a.regs := rfl

@[simp] theorem Regs.sGet_zero (r : Regs) : r.sGet 0 = 0#32 := rfl

@[simp] theorem Regs.sGet_busy (r : Regs) (id nom act j : Nat) : (r.busy id nom act).sGet j = r.sGet j := by
  unfold Regs.busy; split <;> rfl

theorem Regs.sGet_sSet (r : Regs) {i : Nat} (v : Word) (hpos : 0 < i) (hi : i < 32) (j : Nat) :
    (r.sSet i v).sGet j = if j = i then v else r.sGet j := by
  rw [Regs.sSet, if_neg (Nat.ne_of_gt hpos)]
  unfold Regs.sGet
  dsimp only
  rw [vGet_vSet]
  by_cases hj : j = i
  · subst hj; simp [hi, Nat.ne_of_gt hpos]
  · simp [hj]

theorem Regs.sGet_sSet_other (r : Regs) {i j : Nat} (v : Word) (h : j ≠ i) : (r.sSet i v).sGet j = r.sGet j := by
  unfold Regs.sSet Regs.sGet
  by_cases hi : i = 0
  · rw [if_pos hi]
  · simp only [hi, if_false, vGet_vSet_other _ _ _ _ _ h]

theorem Arch.sGet_putS (a : Arch) {i : Nat} (v : Word) (t latency : Nat) (hpos : 0 < i) (hi : i < 32) (j : Nat) :
    (a.putS i v t latency).regs.sGet j = if j = i then v else a.regs.sGet j :=
  (Regs.sGet_busy ..).trans (a.regs.sGet_sSet v hpos hi j)

theorem Arch.sGet_putS_other (a : Arch) {i j : Nat} (v : Word) (t latency : Nat) (h : j ≠ i) :
    (a.putS i v t latency).regs.sGet j = a.regs.sGet j :=
  (Regs.sGet_busy ..).trans (a.regs.sGet_sSet_other v h)

/-- A register other than s0 and p0 is usable from the cycles it is marked with. -/
theorem Regs.ready_busy (r : Regs) {id : Nat} (nom act : Nat) (hs0 : id ≠ 0) (hp0 : id ≠ 32) :
    nmGet (r.busy id nom act).ready id = some (nom, act) := by
  rw [Regs.busy, if_neg (not_or.2 ⟨hs0, hp0⟩)]
  exact nmGet_nmSet_same ..

theorem Arch.ready_putS (a : Arch) {i : Nat} (v : Word) (t latency : Nat) (hpos : 0 < i) (hi : i < 32) :
    nmGet (a.putS i v t latency).regs.ready (sId i) = some (t + latency, t + latency) :=
  Regs.ready_busy _ _ _ (Nat.ne_of_gt hpos) (Nat.ne_of_lt hi)

@[simp] theorem Regs.p_busy (r : Regs) (id nom act : Nat) : (r.busy id nom act).p = r.p := by
  unfold Regs.busy; split <;> rfl

@[simp] theorem Regs.s_busy (r : Regs) (id nom act : Nat) : (r.busy id nom act).s = r.s := by
  unfold Regs.busy; split <;> rfl

/-- A predicate is written with latency 1, and no scalar register with it. -/
theorem Arch.putP_spec (a : Arch) {i : Nat} (v : Bool) (t : Nat) (hpos : 0 < i) (hi : i < 8) :
    (∀ j, vGet (a.putP i v t).regs.p j false = if j = i then v else vGet a.regs.p j false)
      ∧ nmGet (a.putP i v t).regs.ready (pId i) = some (t + 1, t + 1) ∧ (a.putP i v t).regs.s = a.regs.s := by
  refine ⟨fun j => ?_, ?_, Regs.s_busy ..⟩
  · rw [Arch.putP, Regs.p_busy, vGet_vSet]
    simp only [hi, and_true]
  · exact Regs.ready_busy _ _ _ (by unfold pId; omega) (by unfold pId; omega)

end Sys2Proof.Machine
end

section
/-! O6: guards and reserved opcodes (R90 to R92, R107, R108). -/

namespace Sys2Proof.Machine

theorem exec_reservedMajor (c : CoreId) (s : State) :
    exec (.reservedOpcode ⟨c, none⟩) s = s.onDev fun d => d.reservedOpcode c none := rfl

theorem exec_reservedAop (c : CoreId) (g : Common) (s : State) : exec (.reservedOpcode ⟨c, some g⟩) s
    = s.onDev fun d => d.present c g ⟨0, false, []⟩ ⟨noWait, fun _ _ => some cReservedNonzero, fun d _ => d⟩ := rfl

/-- A word with a reserved major opcode is refused in the cycle in which it is presented. -/
theorem Dev.reservedOpcode_major {d : Dev} {c : CoreId} (hrun : (d.arch c).stat.run = .running)
    (hrouter : (d.arch c).routerBehind = false) (hcode : (d.core c).inCode (d.arch c).stat.gear (d.arch c).stat.pc = true) :
    d.reservedOpcode c none = d.refuse c ⟨false, 0, 0⟩ 0 (d.arch c).stat.now cReservedNonzero := by
  unfold Dev.reservedOpcode
  simp [hrun, hrouter, hcode]

/-- Settles O6: the branches of presenting an instruction that come before its own wait, and the two kinds of reserved words. -/
theorem guardRules : Obligations.GuardRules := by
  refine ⟨fun d c g n b w hrun hrouter hcode hres hun hw hg => Dev.present_guardFalse hrun hrouter hcode hres hun hw hg,
    fun d c g n b hrun hrouter hcode => ⟨Dev.present_guardReserved hrun hrouter hcode,
      Dev.present_guarded hrun hrouter hcode⟩, fun s c hs => ⟨fun hrun hrouter hcode => ?_, fun g w h => ?_⟩⟩
  · exact gives_of_onDev hs (exec_reservedMajor c s) (Dev.reservedOpcode_major (d := s.dev.cleared) hrun hrouter hcode)
  · exact gives_refused hs (exec_reservedAop c g s) h rfl rfl

end Sys2Proof.Machine
end

section
/-! O8: NOP and PLOG (R49, R101, R104). -/

namespace Sys2Proof.Machine

theorem exec_nop (c : CoreId) (g : Common) (s : State) : exec (.nop c g) s = execNop c g s := rfl

theorem exec_plog (c : CoreId) (g : Common) (pD srcA srcB op : Nat) (inv : Bool) (s : State) :
    exec (.plog c g pD srcA srcB op inv) s = execPlog c g pD srcA srcB op inv s := rfl

/-! ### The bits of the predicate file (R49) -/

theorem Arch.predBit_zero (a : Arch) (t : Nat) : a.predBit 0 t = true := rfl

theorem Arch.predBit_predicate (a : Arch) {i : Nat} (t : Nat) (hpos : 0 < i) (hi : i < 8) :
    a.predBit i t = vGet a.regs.p i false := by
  rw [Arch.predBit, if_neg (Nat.ne_of_gt hpos), if_pos hi]

theorem Arch.predBit_scoreboard (a : Arch) {i : Nat} (t : Nat) (h8 : 8 ≤ i) (hi : i < 24) :
    a.predBit i t = a.board.reads (i - 8) t := by
  rw [Arch.predBit, if_neg (by omega), if_neg (by omega), if_pos hi]

theorem Arch.predBit_status (a : Arch) {i : Nat} (t : Nat) (h24 : 24 ≤ i) (hi : i < 28) :
    a.predBit i t = vGet a.stat.sp (i - 24) false := by
  rw [Arch.predBit, if_neg (by omega), if_neg (by omega), if_neg (by omega), if_pos hi]

/-- PLOG with sources and an operation that are not reserved, and a destination other than p0, has its effect. -/
theorem plog_gives {s : State} {c : CoreId} {g : Common} {w : At} {pD srcA srcB op : Nat} {inv : Bool} (hs : clocked s)
    (hpos : 0 < pD) (hA : srcA < 28) (hB : srcB < 28) (hop : op < 5)
    (h : s.dev.issues c g false (pId pD :: ([srcA, srcB].filter fun i => decide (i < 8)).map pId) w) :
    gives (.plog c g pD srcA srcB op inv) s ((s.dev.cleared.issued c w).updArch c fun a =>
      a.putP pD (xor inv (plogOp op (a.predBit srcA w.cyc) (a.predBit srcB w.cyc))) w.cyc) := by
  refine gives_pure hs (exec_plog ..) h ?_ rfl
  simp [firstFail, Nat.not_le.2 hA, Nat.not_le.2 hB, Nat.not_le.2 hop, Nat.ne_of_gt hpos]

/-- Settles O8: both instructions issue and have their effect; the operations and the bits are those of the definitions. -/
theorem nopAndPlog : Obligations.NopAndPlog := by
  intro s c g w hs
  refine ⟨fun h => gives_present hs (exec_nop ..) h rfl rfl rfl,
    fun pD srcA srcB op inv hpos hA hB hop h => plog_gives hs hpos hA hB hop h,
    fun x y => ⟨rfl, rfl, rfl, rfl, rfl⟩, fun a i t => ⟨?_, a.predBit_predicate t, a.predBit_scoreboard t, a.predBit_status t⟩⟩
  rintro rfl
  exact a.predBit_zero t

end Sys2Proof.Machine
end

section
/-! What the words of the scalar instructions decode to (R88, R89, R102, R103, R105). -/

namespace Sys2Proof

/-- A word whose guard and scoreboard fields are 0 has the common fields of an unguarded instruction. -/
theorem commonOf_eq_clear {w : Nat} (h : field w 57 49 = 0) : commonOf w = ⟨false, 0, 0⟩ := by
  simp only [field] at h
  have hneg : field w 57 57 = 0 := by unfold field; omega
  have hidx : field w 56 52 = 0 := by unfold field; omega
  have hsb : field w 51 49 = 0 := by unfold field; omega
  rw [commonOf, hneg, hidx, hsb]
  rfl

section
variable (c : CoreId) (late : Nat) {w : Nat}

theorem decodeWord_alu (h : field w 63 58 = 0x02) : decodeWord c late w
    = some (.alu c (commonOf w) (field w 48 44) (field w 43 39) (field w 38 34) (field w 33 29)) := by
  rw [decodeWord, h]; rfl

theorem decodeWord_alui (h : field w 63 58 = 0x03) : decodeWord c late w
    = some (.alui c (commonOf w) (field w 48 44) (field w 43 39) (field w 38 34) (BitVec.ofNat 32 (field w 31 0))) := by
  rw [decodeWord, h]; rfl

theorem decodeWord_cmp (h : field w 63 58 = 0x04) : decodeWord c late w
    = some (.cmp c (commonOf w) (field w 48 46) (field w 45 41) (field w 40 36) (field w 35 33)) := by
  rw [decodeWord, h]; rfl

theorem decodeWord_cmpi (h : field w 63 58 = 0x05) : decodeWord c late w
    = some (.cmpi c (commonOf w) (field w 48 46) (field w 45 41) (field w 35 33) (BitVec.ofNat 32 (field w 31 0))) := by
  rw [decodeWord, h]; rfl

theorem decodeWord_br (h : field w 63 58 = 0x08) : decodeWord c late w
    = some (.br c (commonOf w) (field w 48 44) (field w 11 0)) := by
  rw [decodeWord, h]; rfl

theorem decodeWord_brr (h : field w 63 58 = 0x09) : decodeWord c late w
    = some (.brr c (commonOf w) (field w 48 44) (field w 43 39)) := by
  rw [decodeWord, h]; rfl

end

/-- The immediate of a word is the one put there. -/
theorem imm_eq_of_field {n : Nat} {imm : Word} (h : n = imm.toNat) : BitVec.ofNat 32 n = imm := by
  rw [h, BitVec.ofNat_toNat, BitVec.setWidth_eq]

end Sys2Proof
end

section
/-! O9: ALU and ALUI (R102). -/

namespace Sys2Proof.Machine

theorem exec_alu (c : CoreId) (g : Common) (sD sA fn sB : Nat) (s : State) :
    exec (.alu c g sD sA fn sB) s = execAlu c g sD sA fn sB s := rfl

theorem exec_alui (c : CoreId) (g : Common) (sD sA fn : Nat) (imm : Word) (s : State) :
    exec (.alui c g sD sA fn imm) s = execAlui c g sD sA fn imm s := rfl

/-! ### The functions (R102) -/

/-- The upper half of a signed product fits in a word. -/
theorem toInt_mulHigh (a b : Word) : (BitVec.ofInt 32 (a.toInt * b.toInt / 2 ^ 32)).toInt = a.toInt * b.toInt / 2 ^ 32 := by
  have hlow : -2 ^ 62 ≤ a.toInt * b.toInt := BitVec.le_toInt_mul_toInt
  have hhigh : a.toInt * b.toInt ≤ 2 ^ 62 := BitVec.toInt_mul_toInt_le
  rw [BitVec.toInt_ofInt]
  apply Int.bmod_eq_of_le <;> omega

theorem aluFn_arithmetic (a b : Word) :
    (aluFn 0 a b).toNat = (a.toNat + b.toNat) % 2 ^ 32 ∧ (aluFn 1 a b).toNat = (a.toNat + (2 ^ 32 - b.toNat)) % 2 ^ 32
      ∧ (aluFn 8 a b).toNat = a.toNat * b.toNat % 2 ^ 32 ∧ (aluFn 9 a b).toInt = a.toInt * b.toInt / 2 ^ 32
      ∧ (aluFn 0xA a b).toNat = a.toNat * b.toNat / 2 ^ 32 := by
  refine ⟨BitVec.toNat_add .., ?_, BitVec.toNat_mul .., toInt_mulHigh a b, ?_⟩
  · exact (BitVec.toNat_sub ..).trans (by rw [Nat.add_comm])
  · refine (BitVec.toNat_ofNat ..).trans (Nat.mod_eq_of_lt ?_)
    rw [Nat.div_lt_iff_lt_mul (by decide)]
    exact Nat.mul_lt_mul'' a.isLt b.isLt

theorem aluFn_shifts (a b : Word) :
    (aluFn 5 a b).toNat = a.toNat * 2 ^ (b.toNat % 32) % 2 ^ 32 ∧ (aluFn 6 a b).toNat = a.toNat / 2 ^ (b.toNat % 32)
      ∧ (aluFn 7 a b).toInt = a.toInt / 2 ^ (b.toNat % 32) := by
  refine ⟨?_, ?_, ?_⟩
  · exact (BitVec.toNat_shiftLeft ..).trans (by rw [Nat.shiftLeft_eq])
  · exact (BitVec.toNat_ushiftRight ..).trans (Nat.shiftRight_eq_div_pow ..)
  · exact BitVec.toInt_sshiftRight.trans (by rw [Int.shiftRight_eq_div_pow]; norm_cast)

theorem aluFn_minMax (a b : Word) :
    (aluFn 0xB a b).toInt = min a.toInt b.toInt ∧ (aluFn 0xC a b).toInt = max a.toInt b.toInt
      ∧ (aluFn 0xD a b).toNat = min a.toNat b.toNat ∧ (aluFn 0xE a b).toNat = max a.toNat b.toNat := by
  simp only [aluFn, min_def, max_def, apply_ite BitVec.toInt, apply_ite BitVec.toNat, and_self]

theorem aluReserved_eq {fn : Nat} : aluReserved fn = decide (15 ≤ fn) := rfl

theorem aluLatency_eq (fn : Nat) : aluLatency fn = if fn = 8 ∨ fn = 9 ∨ fn = 10 then 3 else 1 := by
  unfold aluLatency
  exact if_congr (by omega) rfl rfl

/-! ### The instructions -/

theorem alu_gives {s : State} {c : CoreId} {g : Common} {w : At} {sD sA fn sB : Nat} (hs : clocked s)
    (h : s.dev.issues c g false [sId sA, sId sB, sId sD] w) :
    (fn < 15 → gives (.alu c g sD sA fn sB) s ((s.dev.cleared.issued c w).updArch c fun a =>
        a.putS sD (aluFn fn (a.regs.sGet sA) (a.regs.sGet sB)) w.cyc (aluLatency fn)))
      ∧ (15 ≤ fn → gives (.alu c g sD sA fn sB) s (s.dev.cleared.refuse c g 0 w cReservedNonzero)) :=
  ⟨fun hfn => gives_pure hs (exec_alu ..) h (if_neg (by simp [aluReserved_eq, hfn])) rfl,
    fun hfn => gives_pure_refused hs (exec_alu ..) h (if_pos (by simp [aluReserved_eq, hfn]))⟩

theorem alui_gives {s : State} {c : CoreId} {g : Common} {w : At} {sD sA fn : Nat} {imm : Word} (hs : clocked s)
    (h : s.dev.issues c g false [sId sA, sId sD] w) :
    (fn < 15 → gives (.alui c g sD sA fn imm) s ((s.dev.cleared.issued c w).updArch c fun a =>
        a.putS sD (aluFn fn (a.regs.sGet sA) imm) w.cyc (aluLatency fn)))
      ∧ (15 ≤ fn → gives (.alui c g sD sA fn imm) s (s.dev.cleared.refuse c g 0 w cReservedNonzero)) :=
  ⟨fun hfn => gives_pure hs (exec_alui ..) h (if_neg (by simp [aluReserved_eq, hfn])) rfl,
    fun hfn => gives_pure_refused hs (exec_alui ..) h (if_pos (by simp [aluReserved_eq, hfn]))⟩

theorem decodeWord_alu_word (c : CoreId) {sD sA fn sB : Nat} (hD : sD < 32) (hA : sA < 32) (hfn : fn < 32) (hB : sB < 32) :
    decodeWord c 0 (2 * 2 ^ 58 + sD * 2 ^ 44 + sA * 2 ^ 39 + fn * 2 ^ 34 + sB * 2 ^ 29) = some (.alu c ⟨false, 0, 0⟩ sD sA fn sB) := by
  rw [decodeWord_alu, commonOf_eq_clear]
  · congr 2 <;> (unfold field; omega)
  · unfold field; omega
  · unfold field; omega

theorem decodeWord_alui_word (c : CoreId) {sD sA fn : Nat} (imm : Word) (hD : sD < 32) (hA : sA < 32) (hfn : fn < 32) :
    decodeWord c 0 (3 * 2 ^ 58 + sD * 2 ^ 44 + sA * 2 ^ 39 + fn * 2 ^ 34 + imm.toNat) = some (.alui c ⟨false, 0, 0⟩ sD sA fn imm) := by
  have := imm.isLt
  rw [decodeWord_alui, commonOf_eq_clear, imm_eq_of_field]
  · congr 2 <;> (unfold field; omega)
  all_goals unfold field; omega

/-- Settles O9: the two instructions, the functions, what a write to a scalar register leaves, and the words. -/
theorem aluRule : Obligations.AluRule := by
  intro s c g w hs
  refine ⟨fun sD sA fn sB => alu_gives hs, fun sD sA fn imm => alui_gives hs, fun a b => ?_, fun a v t latency => ⟨rfl, rfl⟩,
    fun a i v t latency hpos hi => ⟨a.sGet_putS v t latency hpos hi, a.ready_putS v t latency hpos hi⟩, aluLatency_eq,
    fun sD sA fn sB => decodeWord_alu_word c, fun sD sA fn imm => decodeWord_alui_word c imm⟩
  obtain ⟨hadd, hsub, hmul, hhigh, hhighU⟩ := aluFn_arithmetic a b
  obtain ⟨hleft, hright, harith⟩ := aluFn_shifts a b
  exact ⟨hadd, hsub, rfl, rfl, rfl, hleft, hright, harith, hmul, hhigh, hhighU, aluFn_minMax a b⟩

end Sys2Proof.Machine
end

section
/-! O10: CMP and CMPI (R103). -/

namespace Sys2Proof.Machine

theorem exec_cmp (c : CoreId) (g : Common) (pD sA sB cond : Nat) (s : State) :
    exec (.cmp c g pD sA sB cond) s = execCmp c g pD sA sB cond s := rfl

theorem exec_cmpi (c : CoreId) (g : Common) (pD sA cond : Nat) (imm : Word) (s : State) :
    exec (.cmpi c g pD sA cond imm) s = execCmpi c g pD sA cond imm s := rfl

/-- The check of both instructions: a reserved condition first, then p0 as the destination. -/
theorem cmpCheck_eq (pD cond : Nat) :
    cmpCheck pD cond = if 6 ≤ cond then some cReservedNonzero else if pD = 0 then some cBadArgument else none := by
  simp only [cmpCheck, firstFail, decide_eq_true_eq]

/-- An instruction with that check, and an effect on its core alone, has its effect or is refused. -/
theorem gives_compared {s : State} {i : Instr} {c : CoreId} {g : Common} {w : At} {regs : List Nat} {pD cond : Nat}
    {f : Arch → Nat → Arch} {d : Dev} (hs : clocked s)
    (hi : exec i s = s.onDev fun d => d.present c g ⟨0, false, regs⟩ (pureBody c (fun _ => cmpCheck pD cond) f))
    (h : s.dev.issues c g false regs w) (heff : ((s.dev.cleared.issued c w).updArch c fun a => f a w.cyc) = d) :
    (0 < pD → cond < 6 → gives i s d)
      ∧ (pD = 0 → cond < 6 → gives i s (s.dev.cleared.refuse c g 0 w cBadArgument))
      ∧ (6 ≤ cond → gives i s (s.dev.cleared.refuse c g 0 w cReservedNonzero)) := by
  refine ⟨fun hpos hcond => gives_pure hs hi h ?_ heff, fun hzero hcond => gives_pure_refused hs hi h ?_,
    fun hcond => gives_pure_refused hs hi h ?_⟩
  · rw [cmpCheck_eq, if_neg (Nat.not_le.2 hcond), if_neg (Nat.ne_of_gt hpos)]
  · rw [cmpCheck_eq, if_neg (Nat.not_le.2 hcond), if_pos hzero]
  · rw [cmpCheck_eq, if_pos hcond]

theorem cmpCond_spec (a b : Word) : cmpCond 0 a b = decide (a = b) ∧ cmpCond 1 a b = decide (a ≠ b)
    ∧ cmpCond 2 a b = decide (a.toInt < b.toInt) ∧ cmpCond 3 a b = decide (a.toInt ≥ b.toInt)
    ∧ cmpCond 4 a b = decide (a.toNat < b.toNat) ∧ cmpCond 5 a b = decide (a.toNat ≥ b.toNat) :=
  ⟨beq_eq_decide .., by simp [cmpCond, bne, beq_eq_decide], rfl, rfl, rfl, rfl⟩

theorem decodeWord_cmp_word (c : CoreId) {pD sA sB cond : Nat} (hD : pD < 8) (hA : sA < 32) (hB : sB < 32) (hcond : cond < 8) :
    decodeWord c 0 (4 * 2 ^ 58 + pD * 2 ^ 46 + sA * 2 ^ 41 + sB * 2 ^ 36 + cond * 2 ^ 33) = some (.cmp c ⟨false, 0, 0⟩ pD sA sB cond) := by
  rw [decodeWord_cmp, commonOf_eq_clear]
  · congr 2 <;> (unfold field; omega)
  all_goals unfold field; omega

theorem decodeWord_cmpi_word (c : CoreId) {pD sA cond : Nat} (imm : Word) (hD : pD < 8) (hA : sA < 32) (hcond : cond < 8) :
    decodeWord c 0 (5 * 2 ^ 58 + pD * 2 ^ 46 + sA * 2 ^ 41 + cond * 2 ^ 33 + imm.toNat) = some (.cmpi c ⟨false, 0, 0⟩ pD sA cond imm) := by
  have := imm.isLt
  rw [decodeWord_cmpi, commonOf_eq_clear, imm_eq_of_field]
  · congr 2 <;> (unfold field; omega)
  all_goals unfold field; omega

/-- Settles O10: the two instructions, the conditions, what a write to a predicate leaves, and the words. -/
theorem comparisons : Obligations.Comparisons := by
  intro s c g w pD cond hs
  exact ⟨fun sA sB h => gives_compared hs (exec_cmp ..) h rfl, fun sA imm h => gives_compared hs (exec_cmpi ..) h rfl,
    cmpCond_spec, fun a i v t => a.putP_spec v t, fun sA sB => decodeWord_cmp_word c, fun sA imm => decodeWord_cmpi_word c imm⟩

end Sys2Proof.Machine
end

section
/-! O11: BR and BRR (R95, R105). -/

namespace Sys2Proof.Machine

theorem exec_br (c : CoreId) (g : Common) (sLink target : Nat) (s : State) :
    exec (.br c g sLink target) s = execBr c g sLink target s := rfl

theorem exec_brr (c : CoreId) (g : Common) (sLink sT : Nat) (s : State) :
    exec (.brr c g sLink sT) s = execBrr c g sLink sT s := rfl

/-! ### What taking a branch does (R95, R105) -/

/-- The core that branches spends the further issue cycles, links the program counter that it found and goes on at the target. -/
theorem Dev.arch_branch (d : Dev) (c : CoreId) (sLink target extra t : Nat) : (d.branch c sLink target extra t).arch c
    = { (d.arch c).putS sLink (BitVec.ofNat 32 (d.arch c).stat.pc) t 1 with
        stat := { ((d.spend c (d.arch c).stat.now extra).arch c).stat with pc := target } } := by
  rw [Dev.branch, Dev.arch_updArch, Dev.arch_spend]
  rfl

theorem Dev.branch_regs (d : Dev) (c : CoreId) (sLink target extra t : Nat) : ((d.branch c sLink target extra t).arch c).regs
    = ((d.arch c).putS sLink (BitVec.ofNat 32 (d.arch c).stat.pc) t 1).regs := by
  rw [Dev.arch_branch]

theorem Dev.branch_stat (d : Dev) (c : CoreId) (sLink target extra t : Nat) :
    ((d.branch c sLink target extra t).arch c).stat.pc = target
      ∧ ((d.branch c sLink target extra t).arch c).stat.cyc = (d.arch c).stat.cyc + extra
      ∧ ((d.branch c sLink target extra t).arch c).stat.issue = (d.arch c).stat.issue + extra := by
  rw [Dev.arch_branch, Dev.arch_spend]
  exact ⟨rfl, rfl, by simp [CoreStat.withhold, CoreStat.spent, CoreStat.now]⟩

theorem Dev.core_branch_other (d : Dev) {c e : CoreId} (sLink target extra t : Nat) (he : ckey e ≠ ckey c) :
    (d.branch c sLink target extra t).core e = d.core e := by
  rw [Dev.branch, Dev.core_updArch, if_neg he, Dev.core_spend, if_neg he]

theorem Dev.branch_mem (d : Dev) (c : CoreId) (sLink target extra t : Nat) :
    ((d.branch c sLink target extra t).core c).mem = (d.core c).mem := by
  rw [Dev.branch, Dev.mem_updArch, Dev.core_spend, if_pos rfl]

/-! ### The instructions -/

theorem br_gives {s : State} {c : CoreId} {g : Common} {w : At} {sLink target : Nat} (hs : clocked s)
    (h : s.dev.issues c g false [sId sLink] w) :
    ((s.dev.core c).inCode (s.dev.arch c).stat.gear target = true →
        gives (.br c g sLink target) s ((s.dev.cleared.issued c w).branch c sLink target 1 w.cyc))
      ∧ ((s.dev.core c).inCode (s.dev.arch c).stat.gear target = false →
        gives (.br c g sLink target) s (s.dev.cleared.refuse c g 0 w cBounds)) :=
  ⟨fun hin => gives_present hs (exec_br ..) h rfl (if_pos hin) rfl,
    fun hout => gives_refused hs (exec_br ..) h rfl (if_neg (Bool.eq_false_iff.1 hout))⟩

theorem brr_gives {s : State} {c : CoreId} {g : Common} {w : At} {sLink sT v : Nat} (hs : clocked s)
    (h : s.dev.issues c g false [sId sT, sId sLink] w) (hv : ((s.dev.arch c).regs.sGet sT).toNat = v) :
    (v < 4096 → (s.dev.core c).inCode (s.dev.arch c).stat.gear v = true →
        gives (.brr c g sLink sT) s ((s.dev.cleared.issued c w).branch c sLink v 2 w.cyc))
      ∧ (v < 4096 → (s.dev.core c).inCode (s.dev.arch c).stat.gear v = false →
        gives (.brr c g sLink sT) s (s.dev.cleared.refuse c g 0 w cBounds))
      ∧ (4096 ≤ v → gives (.brr c g sLink sT) s (s.dev.cleared.refuse c g 0 w cBadArgument)) := by
  subst hv
  refine ⟨fun hlow hin => gives_present (w' := w) hs (exec_brr ..) h rfl ?_ ?_,
    fun hlow hout => gives_refused hs (exec_brr ..) h rfl ?_, fun hhigh => gives_refused hs (exec_brr ..) h rfl ?_⟩
  · exact (if_neg (mt of_decide_eq_true (Nat.not_le.2 hlow))).trans (if_neg (by simp [hin]))
  · simp only [Dev.issued_regs, Dev.arch_cleared, Nat.mod_eq_of_lt hlow]
  · exact (if_neg (mt of_decide_eq_true (Nat.not_le.2 hlow))).trans (if_pos (by simp [hout]))
  · exact if_pos (decide_eq_true hhigh)

/-! ### The words -/

theorem decodeWord_br_word (c : CoreId) {sLink target : Nat} (hlink : sLink < 32) (htarget : target < 4096) :
    decodeWord c 0 (8 * 2 ^ 58 + sLink * 2 ^ 44 + target) = some (.br c ⟨false, 0, 0⟩ sLink target) := by
  rw [decodeWord_br, commonOf_eq_clear]
  · congr 2 <;> (unfold field; omega)
  all_goals unfold field; omega

theorem decodeWord_brr_word (c : CoreId) {sLink sT : Nat} (hlink : sLink < 32) (hT : sT < 32) :
    decodeWord c 0 (9 * 2 ^ 58 + sLink * 2 ^ 44 + sT * 2 ^ 39) = some (.brr c ⟨false, 0, 0⟩ sLink sT) := by
  rw [decodeWord_brr, commonOf_eq_clear]
  · congr 2 <;> (unfold field; omega)
  all_goals unfold field; omega

/-- Settles O11: the two instructions with their bounds, what a branch changes and leaves, and the words. -/
theorem branches : Obligations.Branches := by
  intro s c g w sLink hs
  refine ⟨fun target => br_gives hs, fun sT v => brr_gives hs, fun d target extra t => ?_, by rw [Dev.arch_issued]; rfl,
    fun target => decodeWord_br_word c, fun sT => decodeWord_brr_word c⟩
  obtain ⟨hpc, hcyc, hissue⟩ := d.branch_stat c sLink target extra t
  rw [Dev.branch_regs]
  refine ⟨hpc, hcyc, hissue, fun hpos hlt => ?_, ?_, fun j => Arch.sGet_putS_other _ _ _ _, d.branch_mem c sLink target extra t,
    fun e => d.core_branch_other sLink target extra t⟩
  · rw [Arch.sGet_putS _ _ _ _ hpos hlt, if_pos rfl]
  · rintro rfl
    exact Arch.putS_zero_regs ..

end Sys2Proof.Machine
end

section
/-! O15: STEER, CHK.READ, WAITQ and DMA.WAIT (R111, R112, R128, R130). -/

namespace Sys2Proof.Machine

theorem exec_steer (c : CoreId) (g : Common) (sTok port : Nat) (s : State) :
    exec (.steer c g sTok port) s = execSteer c g sTok port s := rfl

theorem exec_chkRead (c : CoreId) (g : Common) (sD sel : Nat) (s : State) :
    exec (.chkRead c g sD sel) s = execChkRead c g sD sel s := rfl

theorem exec_waitq (c : CoreId) (g : Common) (sD mode : Nat) (poll : Bool) (qmask : Nat) (s : State) :
    exec (.waitq c g sD mode poll qmask) s = execWaitq c g sD mode poll qmask s := rfl

theorem exec_dmaWait (c : CoreId) (g : Common) (sD qmask : Nat) (s : State) :
    exec (.dmaWait c g sD qmask) s = execDmaWait c g sD qmask s := rfl

theorem Dev.issued_msg (d : Dev) (c : CoreId) (w : At) : ((d.issued c w).arch c).msg = (d.arch c).msg := by
  rw [Dev.arch_issued]; rfl

theorem Dev.issued_dma (d : Dev) (c : CoreId) (w : At) : ((d.issued c w).arch c).dma = (d.arch c).dma := by
  rw [Dev.arch_issued]; rfl

/-! ### Waits for what is past (R58 to R60) -/

/-- A wait until a cycle that has passed adds nothing. -/
theorem At.waitFor_past {w : At} {t : Nat} (lateMax : Nat) (h : t ≤ w.cyc) : w.waitFor t lateMax = w := if_pos h

theorem At.waitUnit_past {w : At} {t : Nat} (unit chain mark : Nat) (h : t ≤ w.cyc) : w.waitUnit unit t chain mark = w := if_pos h

theorem At.waitVerdicts_past (w : At) (l : List Verdict) (h : ∀ v ∈ l, v.due ≤ w.cyc) : w.waitVerdicts l = w := by
  unfold At.waitVerdicts
  induction l with
  | nil => rfl
  | cons v l ih =>
    rw [List.foldl_cons, At.waitUnit_past _ _ _ (h v List.mem_cons_self)]
    exact ih fun x hx => h x (List.mem_cons_of_mem v hx)

/-- The largest of numbers none of which exceeds a bound does not exceed it. -/
theorem foldl_max_le {b : Nat} (l : List Nat) (h : ∀ x ∈ l, x ≤ b) : l.foldl max 0 ≤ b := by
  rw [List.foldl_eq_foldr]
  exact List.max_le_of_forall_le l b h

/-! ### The instructions -/

section
variable {s : State} {c : CoreId} {g : Common} {w : At} (hs : clocked s)
include hs

/-- STEER hands its token to a pairing buffer with room (R111, R230). -/
theorem steer_gives {sTok port : Nat} (hport : port < 5) (h : s.dev.issues c g false [sId sTok] w)
    (hroom : pairFill (vGet (s.dev.arch c).router.pairing port []) < 4) :
    gives (.steer c g sTok port) s ((s.dev.cleared.issued c w).updArch c fun a => { a with router := { a.router with
      pairing := vSet a.router.pairing port (pairToken (vGet a.router.pairing port []) (a.regs.sGet sTok)) } }) :=
  gives_present hs (exec_steer ..) h (if_neg fun hfull => Nat.not_le.2 hroom hfull.2) (if_neg (Nat.not_le.2 hport)) rfl

/-- CHK.READ with no verdict outstanding does not wait (R112, R364). -/
theorem chkRead_gives {sD sel : Nat} (hsel : sel < 4) (h : s.dev.issues c g false [sId sD] w)
    (hpending : (s.dev.arch c).checker.pendingV = []) (hjudged : ∀ v ∈ (s.dev.arch c).checker.judged, v.due ≤ w.cyc) :
    gives (.chkRead c g sD sel) s ((s.dev.cleared.issued c w).updArch c fun a =>
      a.putS sD (BitVec.ofNat 32 (a.checkerWord sel)) w.cyc 2) := by
  refine gives_present (w' := w) hs (exec_chkRead ..) h ?_ (if_neg (Nat.not_le.2 hsel)) rfl
  have hpast : w.waitVerdicts ((s.dev.arch c).checker.judged.filter fun v => decide (v.due < w.cyc + 32)) = w :=
    w.waitVerdicts_past _ fun v hv => hjudged v (List.mem_of_mem_filter hv)
  simp [Nat.not_le.2 hsel, hpending, hpast]

/-- WAITQ with a ring ready writes its number and rotates past it (R128). -/
theorem waitq_ready_gives {sD mode qmask q : Nat} {poll : Bool} (hmask : qmask ≠ 0) (h : s.dev.issues c g false [sId sD] w)
    (hq : (s.dev.arch c).msg.choose mode qmask = some q) :
    gives (.waitq c g sD mode poll qmask) s ((s.dev.cleared.issued c w).updArch c fun a =>
      { a.putS sD (BitVec.ofNat 32 q) w.cyc 2 with msg := { a.msg with rot := (q + 1) % 16 } }) := by
  refine gives_present (w' := w) hs (exec_waitq ..) h ?_ (if_neg hmask) ?_
  · simp [hq]
  · dsimp only
    refine Dev.updArch_congr ?_
    simp only [Dev.issued_msg, Dev.arch_cleared, hq]

/-- WAITQ with poll and no ring ready does not wait (R128). -/
theorem waitq_poll_gives {sD mode qmask : Nat} (hmask : qmask ≠ 0) (h : s.dev.issues c g false [sId sD] w)
    (hnone : (s.dev.arch c).msg.choose mode qmask = none) :
    gives (.waitq c g sD mode true qmask) s ((s.dev.cleared.issued c w).updArch c fun a =>
      a.putS sD 0xFFFFFFFF#32 w.cyc 2) := by
  refine gives_present (w' := w) hs (exec_waitq ..) h ?_ (if_neg hmask) ?_
  · simp
  · dsimp only
    refine Dev.updArch_congr ?_
    simp only [Dev.issued_msg, Dev.arch_cleared, hnone]

end

/-! ### DMA.WAIT (R130) -/

/-- Changing listed elements of a vector once and for all. -/
theorem vGet_foldl_vSet {α : Type} {n : Nat} {f : α → α} (hf : ∀ x, f (f x) = f x) (d : α) (l : List Nat) (v : Vector α n)
    (q : Nat) : vGet (l.foldl (fun v q => vSet v q (f (vGet v q d))) v) q d
      = if q ∈ l ∧ q < n then f (vGet v q d) else vGet v q d := by
  induction l generalizing v with
  | nil => simp
  | cons p l ih =>
    rw [List.foldl_cons, ih, vGet_vSet]
    by_cases hq : q = p
    · subst hq
      by_cases hn : q < n <;> simp [hn, hf]
    · simp [hq]

/-- The DMA engine when the wait codes of the queues of a mask have been read. -/
def DmaEng.acknowledged (e : DmaEng) (mask : Nat) : DmaEng :=
  { e with queues := (maskQueues mask).foldl (fun v q => vSet v q { vGet v q clearDmaQ with waitCode := 0 }) e.queues }

theorem DmaEng.acknowledged_queue (e : DmaEng) (mask q : Nat) : vGet (e.acknowledged mask).queues q clearDmaQ
    = if q < 8 ∧ bit mask q = true then { vGet e.queues q clearDmaQ with waitCode := 0 } else vGet e.queues q clearDmaQ := by
  rw [DmaEng.acknowledged, vGet_foldl_vSet (f := fun x : DmaQ => { x with waitCode := 0 }) fun _ => rfl]
  refine if_congr ?_ rfl rfl
  simp only [maskQueues, List.mem_filter, List.mem_range]
  tauto

/-- DMA.WAIT with no DMA command queued writes the wait code and clears those that it read. -/
theorem dmaWait_gives {s : State} {c : CoreId} {g : Common} {w : At} {sD qmask : Nat} (hs : clocked s) (hmask : qmask ≠ 0)
    (h : s.dev.issues c g false [sId sD] w) (hqueue : (vGet (s.dev.arch c).units 3 clearUnit).queue = [])
    (hend : ∀ q, q < 8 → (vGet (s.dev.arch c).dma.queues q clearDmaQ).lastEnd ≤ w.cyc) :
    gives (.dmaWait c g sD qmask) s ((s.dev.cleared.issued c w).updArch c fun a =>
      { a.putS sD (BitVec.ofNat 32 (a.dma.waitCode qmask)) w.cyc 1 with dma := a.dma.acknowledged qmask }) := by
  refine gives_present (w' := w) hs (exec_dmaWait ..) h ?_ (if_neg hmask) rfl
  have hpast : ((maskQueues qmask).map fun q => (vGet (s.dev.arch c).dma.queues q clearDmaQ).lastEnd).foldl max 0 ≤ w.cyc := by
    refine foldl_max_le _ fun x hx => ?_
    obtain ⟨q, hq, rfl⟩ := List.mem_map.1 hx
    exact hend q (List.mem_range.1 (List.mem_of_mem_filter hq))
  simp only [Dev.arch_cleared, hqueue, List.any_nil, Bool.false_eq_true, if_false, At.waitFor_past _ hpast]

/-- Settles O15, one instruction at a time. -/
theorem scalarQueues : Obligations.ScalarQueues := by
  intro s c g w sD hs
  refine ⟨fun sTok port hport h hroom => steer_gives hs hport h hroom,
    fun sel hsel h hpending hjudged => chkRead_gives hs hsel h hpending hjudged,
    fun mode poll qmask q hmask h hq => waitq_ready_gives hs hmask h hq,
    fun mode qmask hmask h hnone => waitq_poll_gives hs hmask h hnone, fun qmask hmask h hqueue hend => ?_⟩
  refine ⟨_, dmaWait_gives hs hmask h hqueue hend, ?_⟩
  simp only [State.closing_arch, State.closing_core, Dev.arch_updArch, Dev.mem_updArch, Dev.issued_mem, Dev.issued_dma,
    Dev.arch_cleared, Dev.core_cleared, DmaEng.acknowledged_queue]
  refine ⟨fun hpos hlt => ?_, fun j hj => ?_, fun q hq => ?_, fun q => ?_, trivial, fun e he => ?_⟩
  · exact (Arch.sGet_putS _ _ _ _ hpos hlt sD).trans (if_pos rfl)
  · exact (Arch.sGet_putS_other _ _ _ _ hj).trans (by rw [Dev.issued_regs]; rfl)
  · by_cases hb : bit qmask q = true <;> simp [hb, hq]
  · split <;> rfl
  · rw [Dev.core_updArch, if_neg he, Dev.core_issued, if_neg he, Dev.core_cleared]

end Sys2Proof.Machine
end

section
/-! O60: words of the instruction set (R89, R91, R102, R106 to R109, R129). -/

namespace Sys2Proof

/-- Settles O60 by evaluating each word. -/
theorem decodedWords : Obligations.DecodedWords := fun _ => ⟨rfl, rfl, rfl, rfl, rfl, rfl⟩

end Sys2Proof
end

section
/-! What listing blocks, starting and finishing leave of a core (R50, R98, R201). -/

namespace Sys2Proof.Machine

/-! ### Listed blocks (R201) -/

@[simp] theorem Dev.arch_listBlocks (d : Dev) (c : CoreId) (unit sb pc gear : Nat) (bl : List (Nat × Nat)) :
    (d.listBlocks c unit sb pc gear bl).arch c = { d.arch c with
      verify := (d.arch c).verify ++ (d.newBlocks c bl).map fun b => ⟨b.1, b.2, unit, sb, pc, gear⟩ } :=
  Dev.arch_updArch ..

@[simp] theorem Dev.mem_listBlocks (d : Dev) (c o : CoreId) (unit sb pc gear : Nat) (bl : List (Nat × Nat)) :
    ((d.listBlocks c unit sb pc gear bl).core o).mem = (d.core o).mem :=
  Dev.mem_updArch ..

theorem Dev.core_listBlocks_other (d : Dev) {c e : CoreId} (unit sb pc gear : Nat) (bl : List (Nat × Nat)) (he : ckey e ≠ ckey c) :
    (d.listBlocks c unit sb pc gear bl).core e = d.core e :=
  (Dev.core_updArch ..).trans (if_neg he)

theorem Dev.localRead_listBlocks (d : Dev) (c : CoreId) (unit sb pc gear : Nat) (bl : List (Nat × Nat)) (addr n : Nat) :
    (d.listBlocks c unit sb pc gear bl).localRead c addr n = d.localRead c addr n := by
  unfold Dev.localRead
  simp only [Dev.mem_listBlocks, Dev.arch_listBlocks]

theorem Dev.ctxOf_listBlocks (d : Dev) (c : CoreId) (unit sb pc gear : Nat) (bl : List (Nat × Nat)) :
    (d.listBlocks c unit sb pc gear bl).ctxOf c = d.ctxOf c := by
  have hctx : ((d.listBlocks c unit sb pc gear bl).core c).ctx = (d.core c).ctx := by
    rw [Dev.listBlocks, Dev.core_updArch, if_pos rfl]
  unfold Dev.ctxOf
  rw [hctx]
  rfl

/-! ### The head of a queue (R45, R50, R98) -/

theorem Arch.updHead_eq {a : Arch} {unit : Nat} {e : QEntry} {rest : List QEntry} (f : QEntry → QEntry)
    (hq : (vGet a.units unit clearUnit).queue = e :: rest) :
    a.updHead unit f = { a with units := vSet a.units unit { vGet a.units unit clearUnit with queue := f e :: rest } } := by
  unfold Arch.updHead
  simp only [hq]

/-- A command that completes leaves its unit's queue in its cycle, and of its core changes the unit and the scoreboard alone. -/
theorem Arch.finish_spec {a : Arch} {unit : Nat} {e : QEntry} {rest : List QEntry} (fin nom : Nat) (hunit : unit < 4)
    (hq : (vGet a.units unit clearUnit).queue = e :: rest) :
    (vGet (a.finish unit fin nom).units unit clearUnit).queue = rest
      ∧ (vGet (a.finish unit fin nom).units unit clearUnit).lastEnd = fin
      ∧ ∃ units board, a.finish unit fin nom = { a with units := units, board := board } := by
  unfold Arch.finish
  simp only [hq, vGet_vSet_same _ _ _ _ hunit]
  exact ⟨trivial, trivial, _, _, rfl⟩

end Sys2Proof.Machine
end

section
/-! O20: the vector unit (R99, R123, R124, R201, R202, R362). -/

namespace Sys2Proof.Machine

theorem exec_vectorCommandStart (c : CoreId) (s : State) : exec (.vectorCommandStart c) s = s.onDev fun d => d.vectorStart c := rfl

theorem exec_vectorCommandComplete (c : CoreId) (late : Nat) (s : State) :
    exec (.vectorCommandComplete c late) s = s.onDev fun d => d.updArch c fun a => a.complete 1 late := rfl

theorem Regs.vRead_vWrite (r : Regs) (i j : Nat) (x : Vector Word 64) :
    (r.vWrite i x).vRead j = if j = i ∧ i < 32 then x else r.vRead j :=
  vGet_vSet ..

/-- The first cycle after the start of the command before (R99). -/
def CmdUnit.after (u : CmdUnit) : Nat := if u.lastStart = 0 ∧ u.lastEnd = 0 then 0 else u.lastStart + 1

/-! ### Starts (R99, R123, R124) -/

/-- No load in progress writes a register that the command reads. -/
theorem UnitCmd.needs_none {cmd : UnitCmd} {l : List QEntry} (h : ∀ p ∈ l, p.started = true → cmd.needs p.cmd = false) :
    (l.any fun p => p.started && cmd.needs p.cmd) = false := by
  simpa using h

section
variable {d : Dev} {c : CoreId} {u : CmdUnit} {i : Nat} {e : QEntry} (hu : vGet (d.arch c).units 1 clearUnit = u)
  (hfirst : firstWaiting u.queue = some (i, e)) (hlive : (d.arch c).live = true) (hpast : (d.arch c).routerPast e = true)
  (hneeds : ∀ p ∈ u.queue, p.started = true → e.cmd.needs p.cmd = false)
  (hroom : d.verifyRoom c (d.cmdBlocks c e.cmd) = true)

include hu hfirst hlive hpast hneeds hroom

/-- A VOP writes its result, ready L cycles after its start, and is counted for the checker. -/
theorem Dev.vectorStart_vop {f : VopF} {x : Word} {start : Nat} {out : Vector Word 64} (hcmd : e.cmd = .vop f x)
    (hstart : start = max (max e.accepted u.after) ((d.arch c).regs.vReadyAt (vopReads f)))
    (hout : out = vopResult f (Dev.runDrain.actTableOf (d.ctxOf c).image.act) ((d.arch c).regs.vRead f.va)
      (if f.bsel then Vector.replicate 64 x else (d.arch c).regs.vRead f.vb) ((d.arch c).regs.vRead f.vc)) :
    d.vectorStart c = (d.listBlocks c 2 e.sb e.pc e.gear (d.cmdBlocks c e.cmd)).updArch c fun a =>
      { a.started 1 i start (vopLatency f.fn) e.late none with
        regs := { a.regs.vWrite f.vd out with vready := nmSet (a.regs.vWrite f.vd out).vready f.vd (start + vopLatency f.fn) }
        checker := { a.checker with vops := a.checker.vops + 1, lanes := a.checker.lanes ++ [vopChecks a.checker.vops out] } } := by
  subst hstart hout
  unfold Dev.vectorStart
  simp only [hu, hfirst, hlive, hpast, UnitCmd.needs_none hneeds, hroom, Bool.not_true, Bool.or_self, Bool.false_eq_true, if_false,
    Dev.ctxOf_listBlocks]
  simp only [hcmd]
  refine Dev.updArch_congr ?_
  simp only [Dev.arch_listBlocks]
  rfl

/-- A load writes the words of its address to its register. -/
theorem Dev.vectorStart_vopLd {v : Nat} {r : Res} {bs : List Byte} (hcmd : e.cmd = .vopLd v r)
    (hbs : d.localRead c r.addr 256 = some bs) :
    ∃ start latency, d.vectorStart c = (d.listBlocks c 2 e.sb e.pc e.gear (d.cmdBlocks c e.cmd)).updArch c fun a =>
      { a.started 1 i start latency e.late none with
        regs := { a.regs.vWrite v (Vector.ofFn fun l : Fin 64 => f32At bs l.val) with
          vready := nmSet a.regs.vready v (start + latency) } } := by
  unfold Dev.vectorStart
  simp only [hu, hfirst, hlive, hpast, UnitCmd.needs_none hneeds, hroom, Bool.not_true, Bool.or_self, Bool.false_eq_true, if_false,
    Dev.localRead_listBlocks]
  simp only [hcmd, hbs]
  exact ⟨_, _, rfl⟩

/-- A store writes its register's words to its address. -/
theorem Dev.vectorStart_vopSt {v : Nat} {r : Res} {d' : Dev} (hcmd : e.cmd = .vopSt v r)
    (hwrite : (d.listBlocks c 2 e.sb e.pc e.gear (d.cmdBlocks c e.cmd)).localWrite c r.addr
      (((d.arch c).regs.vRead v).toList.flatMap fun w => natLe w.toNat 4) = some d') :
    d.vectorStart c = d'.updArch c fun a =>
      a.started 1 i (max (max e.accepted u.after) ((d.arch c).regs.vReadyAt [v])) (if r.kind = 2 then 16 else 1) e.late none := by
  rw [hcmd] at hwrite
  unfold Dev.vectorStart
  simp only [hu, hfirst, hlive, hpast, UnitCmd.needs_none hneeds, hroom, Bool.not_true, Bool.or_self, Bool.false_eq_true, if_false]
  simp only [hcmd, hwrite]
  rfl

end

/-! ### Completion (R98, R99) -/

/-- When the vector registers have been written, once a command with nominal completion `nominal` has completed, its own late cycles after it: a load's register waits for these (R99). -/
def UnitCmd.readyAfter (cmd : UnitCmd) (vready : NMap Nat) (nominal own : Nat) : NMap Nat :=
  match cmd with
  | .vopLd v _ => if nmGet vready v = some nominal then nmSet vready v (nominal + own) else vready
  | _ => vready

theorem UnitCmd.readyAfter_other {cmd : UnitCmd} (vready : NMap Nat) (nominal own : Nat) (h : ∀ v r, cmd ≠ .vopLd v r) :
    cmd.readyAfter vready nominal own = vready := by
  cases cmd with
  | vopLd v r => exact absurd rfl (h v r)
  | _ => rfl

theorem UnitCmd.readyAfter_load {v : Nat} {r : Res} {vready : NMap Nat} {nominal : Nat} (own : Nat)
    (h : nmGet vready v = some nominal) :
    nmGet ((UnitCmd.vopLd v r).readyAfter vready nominal own) v = some (nominal + own) := by
  rw [UnitCmd.readyAfter, if_pos h, nmGet_nmSet_same]

/-- A started command at the head of the vector unit's queue completes after its predecessor and leaves the queue. -/
theorem Arch.complete_vector {a : Arch} {u : CmdUnit} {e : QEntry} {rest : List QEntry} (late : Nat)
    (hu : vGet a.units 1 clearUnit = u) (hq : u.queue = e :: rest) (hstarted : e.started = true) :
    (vGet (a.complete 1 late).units 1 clearUnit).queue = rest
      ∧ (vGet (a.complete 1 late).units 1 clearUnit).lastEnd = max (e.start + e.dur) u.lastEnd + (e.late + late)
      ∧ (a.complete 1 late).regs
        = { a.regs with vready := e.cmd.readyAfter a.regs.vready (e.start + e.dur) (e.late + late) } := by
  obtain ⟨hqueue, hend, units, board, hfinish⟩ := Arch.finish_spec (max (e.start + e.dur) u.lastEnd + (e.late + late))
    (max (e.start + e.dur) u.nomEnd) (show 1 < 4 by decide) ((congrArg CmdUnit.queue hu).trans hq)
  rw [hfinish] at hqueue hend
  unfold Arch.complete
  simp only [hu, hq, hstarted, Bool.not_true, Bool.false_eq_true, if_false, one_ne_zero, hfinish]
  cases e.cmd with
  | vopLd v r =>
    simp only [UnitCmd.arithmetic, UnitCmd.readyAfter, Bool.false_eq_true, if_false]
    by_cases hready : nmGet a.regs.vready v = some (e.start + e.dur)
    · simp only [hready, if_true]
      cases e.tail <;> exact ⟨hqueue, hend, rfl⟩
    · simp only [hready, if_false]
      cases e.tail <;> exact ⟨hqueue, hend, rfl⟩
  | _ => cases e.tail <;> exact ⟨hqueue, hend, rfl⟩

/-- Settles O20: the three commands of the unit at their start, and the completion of the one at the head. -/
theorem vectorUnit : Obligations.VectorUnit := by
  intro s c u after hs hu hafter
  obtain rfl : after = u.after := hafter
  refine ⟨fun i e hfirst hlive hpast hneeds hroom => ⟨fun f x start out hcmd hstart hout => ?_, fun v r bs hcmd hbs => ?_,
    fun v r d hcmd hwrite => ?_⟩, fun e rest late hq hstarted => ?_⟩
  · exact gives_of_onDev hs (exec_vectorCommandStart c s)
      (Dev.vectorStart_vop (d := s.dev.cleared) hu hfirst hlive hpast hneeds hroom hcmd hstart hout)
  · obtain ⟨start, latency, hstart⟩ :=
      Dev.vectorStart_vopLd (d := s.dev.cleared) hu hfirst hlive hpast hneeds hroom hcmd hbs
    refine ⟨_, gives_of_onDev hs (exec_vectorCommandStart c s) hstart, ?_⟩
    simp only [sameCores, State.closing_arch, State.closing_core, Dev.arch_updArch, Dev.mem_updArch, Dev.mem_listBlocks,
      Dev.arch_listBlocks]
    refine ⟨fun hv => ?_, fun j hj => ?_, rfl, fun x hx => ?_⟩
    · exact (Regs.vRead_vWrite ..).trans (if_pos ⟨rfl, hv⟩)
    · exact (Regs.vRead_vWrite ..).trans (if_neg fun h => hj h.1)
    · rw [Dev.core_updArch, if_neg hx, Dev.core_listBlocks_other _ _ _ _ _ _ hx, Dev.core_cleared]
  · exact gives_of_onDev hs (exec_vectorCommandStart c s)
      (Dev.vectorStart_vopSt (d := s.dev.cleared) hu hfirst hlive hpast hneeds hroom hcmd hwrite)
  · obtain ⟨hqueue, hend, hregs⟩ := Arch.complete_vector late hu hq hstarted
    refine ⟨_, (exec_vectorCommandComplete c late s).trans (onDev_gives hs), ?_⟩
    simp only [sameCores, State.closing_arch, State.closing_core, Dev.arch_updArch, Dev.mem_updArch, Dev.arch_cleared, hregs]
    refine ⟨hqueue, hend, trivial, fun v r hcmd hready => ?_, fun hcmd => UnitCmd.readyAfter_other _ _ _ hcmd, rfl, fun x hx => ?_⟩
    · rw [hcmd]
      exact UnitCmd.readyAfter_load _ hready
    · rw [Dev.core_updArch, if_neg hx, Dev.core_cleared]

end Sys2Proof.Machine
end

section
/-! O23: the message unit (R98, R125 to R127, R259, R260, R262 to R264). -/

namespace Sys2Proof.Machine

theorem exec_sendStart (c : CoreId) (s : State) : exec (.sendStart c) s = s.onDev fun d => d.sendStart c 0 := rfl

theorem exec_recvAckStart (c : CoreId) (s : State) : exec (.recvAckStart c) s = s.onDev fun d => d.passStart c false := rfl

theorem exec_rpStoreStart (c : CoreId) (s : State) : exec (.rpStoreStart c) s = s.onDev fun d => d.passStart c true := rfl

theorem exec_messageCommandComplete (c : CoreId) (s : State) :
    exec (.messageCommandComplete c) s = s.onDev fun d => d.messageComplete c := rfl

/-! ### Sending (R236, R262, R264, R342) -/

/-- A core looked up by its key. -/
theorem Dev.core_of_key (d : Dev) (c x : CoreId) : d.core x = if ckey x = ckey c then d.core c else d.core x := by
  split
  · next h => rw [Dev.core, Dev.core, h]
  · rfl

/-- Sending a message changes of every core at most the sender's tag, its count of messages sent and its multicast messages that await completion. -/
theorem Dev.sendMsg_core (d : Dev) (c : CoreId) (m : Msg) (dev x y : Nat) (mcast : Bool) (x1 y1 : Nat) :
    ∃ tag sentIn wait, ∀ o, (d.sendMsg c m dev x y mcast x1 y1).core o = if ckey o = ckey c then
      { d.core c with arch := { d.arch c with msg := { (d.arch c).msg with tag := tag, sentIn := sentIn, mcastWait := wait } } }
    else d.core o := by
  unfold Dev.sendMsg
  dsimp only
  split
  · refine ⟨((d.arch c).msg.tag + 1) % 256, (d.arch c).msg.sentIn + (if mcast then (x1 + 1 - x) * (y1 + 1 - y) else 1),
      if mcast then (d.arch c).msg.mcastWait ++ [(d.arch c).msg.tag] else (d.arch c).msg.mcastWait, fun o => ?_⟩
    simp only [Dev.inject, Dev.core_putPackets, Dev.updMsg, Dev.core_updArch, Dev.core_bump, Dev.arch_bump]
    rfl
  · refine ⟨(d.arch c).msg.tag, (d.arch c).msg.sentIn, (d.arch c).msg.mcastWait, fun o => ?_⟩
    refine Eq.trans ?_ (d.core_of_key c o)
    split
    · exact Dev.core_bump ..
    · exact Dev.core_bump ..

/-- Reading a message's payload changes at most the sender's verify set. -/
theorem Dev.sendBody_core {d d' : Dev} {c : CoreId} {e : QEntry} {f : SendF} {payload : Option Res} {body : List QWord}
    (h : d.sendBody c e f payload = some (d', body)) :
    ∃ verify, ∀ o, d'.core o = if ckey o = ckey c then { d.core c with arch := { d.arch c with verify := verify } } else d.core o := by
  unfold Dev.sendBody at h
  split at h
  · obtain ⟨rfl, -⟩ := Prod.mk.inj (Option.some.inj h)
    exact ⟨(d.arch c).verify, fun o => d.core_of_key c o⟩
  · obtain ⟨bs, -, hbs⟩ := Option.map_eq_some_iff.1 h
    obtain ⟨rfl, -⟩ := Prod.mk.inj hbs
    exact ⟨_, fun o => Dev.core_updArch ..⟩

/-- A core whose message unit starts the SEND at the head of its queue, which takes its credits and a sequence number (R262). -/
def Arch.sends (a : Arch) (f : SendF) (dest : Word) (start : Nat) : Arch :=
  let a := a.updHead 2 fun x => { x with
    started := true, creditWait := false, start := start, dur := 3 + f.length + ceilDiv f.length 16 }
  { a with msg := a.msg.updChan dest f.queue fun k => { k with credits := k.credits - f.length, seq := (k.seq + 1) % 2 ^ 32 } }

theorem Arch.sends_spec {a : Arch} {e : QEntry} {rest : List QEntry} (f : SendF) (dest : Word) (start : Nat)
    (hq : (vGet a.units 2 clearUnit).queue = e :: rest) :
    (a.sends f dest start).msg = (a.msg.updChan dest f.queue fun k =>
        { k with credits := k.credits - f.length, seq := (k.seq + 1) % 2 ^ 32 })
      ∧ (vGet (a.sends f dest start).units 2 clearUnit).queue = { e with
          started := true, creditWait := false, start := start, dur := 3 + f.length + ceilDiv f.length 16 } :: rest
      ∧ (a.sends f dest start).regs = a.regs := by
  unfold Arch.sends
  dsimp only
  rw [Arch.updHead_eq _ hq]
  exact ⟨rfl, congrArg CmdUnit.queue (vGet_vSet_same _ _ _ _ (by decide)), rfl⟩

/-- A SEND without ORDER whose checks find a channel with the credits starts and sends its message there (R264). -/
theorem Dev.sendStart_sends {d d' : Dev} {c : CoreId} {e : QEntry} {rest : List QEntry} {u : CmdUnit} {f : SendF} {dest user : Word}
    {gear : Nat} {payload : Option Res} {k : Chan} {body : List QWord} (hu : vGet (d.arch c).units 2 clearUnit = u)
    (hq : u.queue = e :: rest) (hcmd : e.cmd = .send f dest user gear payload) (hwaits : e.started = false)
    (hlive : (d.arch c).live = true) (horder : f.order = false) (hroom : d.verifyRoom c (d.cmdBlocks c e.cmd) = true)
    (hcheck : sendStartCheck d c f dest user gear = .sends k) (hbody : d.sendBody c e f payload = some (d', body)) :
    ∃ m n x1 y1, d.sendStart c 0 = ((d'.updArch c fun a => a.sends f dest (u.startOf e)).bump 0x4300 7 n).sendMsg c m
      k.dstDev k.dstX k.dstY k.mcast x1 y1 := by
  unfold Dev.sendStart
  simp only [hu, hq, hlive, hwaits, hroom, Bool.not_true, Bool.false_and, Bool.or_self, Bool.false_eq_true, if_false, Nat.zero_max]
  simp only [hcmd]
  unfold Dev.trySend
  simp only [horder, Bool.false_and, Bool.false_eq_true, if_false, hcheck, hbody]
  exact ⟨_, _, _, _, rfl⟩

theorem sendStartCheck_cleared (d : Dev) (c : CoreId) (f : SendF) (dest user : Word) (gear : Nat) :
    sendStartCheck d.cleared c f dest user gear = sendStartCheck d c f dest user gear := rfl

/-! ### Passing messages (R127, R259, R260) -/

/-- A RECV.ACK or a read-pointer store, as the command of the unit's timer names it, that finds enough messages starts. -/
theorem Dev.passStart_starts {d : Dev} {c : CoreId} {e : QEntry} {rest : List QEntry} {u : CmdUnit} {q : Nat} {l : List RingRec}
    {isStore : Bool} (hu : vGet (d.arch c).units 2 clearUnit = u) (hq : u.queue = e :: rest)
    (hcmd : (isStore = false ∧ ∃ n, e.cmd = .recvAck q n) ∨ (isStore = true ∧ ∃ v, e.cmd = .rpStore q v))
    (hwaits : e.started = false) (hlive : (d.arch c).live = true) (hpasses : ((d.arch c).msg.ring q).passes e.cmd = some l) :
    d.passStart c isStore = d.updArch c fun a => a.updHead 2 fun x =>
      { x with started := true, start := u.startOf e, dur := 2 + l.length } := by
  unfold Dev.passStart
  rcases hcmd with ⟨rfl, n, hcmd⟩ | ⟨rfl, v, hcmd⟩
  all_goals
    rw [hcmd] at hpasses
    simp only [hu, hq, hcmd, UnitCmd.ringOf, hlive, hwaits, hpasses, Bool.not_true, Bool.not_false, Bool.or_self,
      Bool.false_eq_true, if_false]
    rfl

/-- The rings when a command of the message unit completes in a step: a RECV.ACK or a read-pointer store passes its messages (R260). -/
def MsgUnit.completes (m : MsgUnit) (step : Nat) (cmd : UnitCmd) : MsgUnit :=
  match (m.ring cmd.ringOf).passes cmd with
  | some l => m.updRing cmd.ringOf fun r => r.passed' step l
  | none => m

theorem MsgUnit.completes_ring {m : MsgUnit} (step : Nat) {cmd : UnitCmd} {q : Nat} {l : List RingRec}
    (hcmd : (∃ n, cmd = .recvAck q n) ∨ (∃ v, cmd = .rpStore q v)) (hq : q < 16) (hl : (m.ring q).passes cmd = some l) :
    (m.completes step cmd).ring q = (m.ring q).passed' step l := by
  have hring : cmd.ringOf = q := by rcases hcmd with ⟨n, rfl⟩ | ⟨v, rfl⟩ <;> rfl
  unfold MsgUnit.completes
  rw [hring, hl]
  exact vGet_vSet_same _ _ _ _ hq

/-- A started command that waits for no credit completes in its cycle. -/
theorem Dev.messageComplete_eq {d : Dev} {c : CoreId} {e : QEntry} {rest : List QEntry}
    (hq : (vGet (d.arch c).units 2 clearUnit).queue = e :: rest) (hstarted : e.started = true) (hcredit : e.creditWait = false) :
    d.messageComplete c = d.updArch c fun a =>
      ({ a with msg := a.msg.completes a.stat.stepNo e.cmd } : Arch).finish 2 (e.start + e.dur) 0 := by
  unfold Dev.messageComplete
  simp only [hq, hstarted, hcredit, Bool.not_true, Bool.or_self, Bool.false_eq_true, if_false]
  refine Dev.updArch_congr ?_
  unfold MsgUnit.completes
  cases e.cmd with
  | recvAck q n => cases hl : ((d.arch c).msg.ring q).passes (.recvAck q n) <;> simp only [UnitCmd.ringOf, hl]
  | rpStore q v => cases hl : ((d.arch c).msg.ring q).passes (.rpStore q v) <;> simp only [UnitCmd.ringOf, hl]
  | _ => rfl

/-- Settles O23: the three starts, and the completion of the command at the head. -/
theorem messageUnit : Obligations.MessageUnit := by
  intro s c e rest u hs hu hq
  have hhead : (vGet (s.dev.arch c).units 2 clearUnit).queue = e :: rest := (congrArg CmdUnit.queue hu).trans hq
  refine ⟨fun f dest user gear payload k d body hcmd hwaits hlive horder hroom hcheck hbody => ?_,
    fun q n l hcmd hwaits hlive hpasses => ?_, fun q v l hcmd hwaits hlive hpasses => ?_, fun hstarted hcredit => ?_⟩
  · obtain ⟨m, n, x1, y1, hsend⟩ := Dev.sendStart_sends (d := s.dev.cleared) hu hq hcmd hwaits hlive horder hroom
      ((sendStartCheck_cleared ..).trans hcheck) hbody
    obtain ⟨verify, hread⟩ := Dev.sendBody_core hbody
    obtain ⟨tag, sentIn, wait, hcore⟩ := Dev.sendMsg_core ((d.updArch c fun a => a.sends f dest (u.startOf e)).bump 0x4300 7 n) c m
      k.dstDev k.dstX k.dstY k.mcast x1 y1
    obtain ⟨hmsg, hqueue, hregs⟩ := Arch.sends_spec (a := { s.dev.arch c with verify := verify }) f dest (u.startOf e) hhead
    refine ⟨_, gives_of_onDev hs (exec_sendStart c s) hsend, ?_⟩
    simp only [sameCores, State.closing_core, Dev.arch, hcore, Dev.core_bump, Dev.core_updArch, hread, if_true]
    exact ⟨congrArg MsgUnit.chans hmsg, hqueue, hregs, rfl, fun o ho => by simp only [ho, if_false]; rfl⟩
  · exact gives_of_onDev hs (exec_recvAckStart c s)
      (Dev.passStart_starts (d := s.dev.cleared) hu hq (.inl ⟨rfl, n, hcmd⟩) hwaits hlive hpasses)
  · exact gives_of_onDev hs (exec_rpStoreStart c s)
      (Dev.passStart_starts (d := s.dev.cleared) hu hq (.inr ⟨rfl, v, hcmd⟩) hwaits hlive hpasses)
  · obtain ⟨hqueue, hend, units, board, hfinish⟩ := Arch.finish_spec
      (a := { s.dev.arch c with msg := (s.dev.arch c).msg.completes (s.dev.arch c).stat.stepNo e.cmd }) (e.start + e.dur) 0
      (by decide) hhead
    rw [hfinish] at hqueue hend
    refine ⟨_, gives_of_onDev hs (exec_messageCommandComplete c s)
      (Dev.messageComplete_eq (d := s.dev.cleared) hhead hstarted hcredit), ?_⟩
    simp only [sameCores, State.closing_arch, State.closing_core, Dev.arch_updArch, Dev.mem_updArch, Dev.arch_cleared, hfinish]
    exact ⟨hqueue, hend, fun q l => MsgUnit.completes_ring _, trivial, rfl, fun o ho => by rw [Dev.core_updArch, if_neg ho, Dev.core_cleared]⟩

end Sys2Proof.Machine
end

section
/-! O24: messages, completions, credits and reduction results arrive (R163, R241, R250, R256, R262). -/

namespace Sys2Proof.Machine

theorem exec_messageFirstPacket (c : CoreId) (h : PktHead) (units : List QWord) (s : State) :
    exec (.messageFirstPacket c h units) s = s.onDev fun d => d.firstPacket c (pktOf h units) := rfl

theorem exec_messagePacket (c : CoreId) (h : PktHead) (units : List QWord) (s : State) :
    exec (.messagePacket c h units) s = s.onDev fun d => d.laterPacket c (pktOf h units) := rfl

theorem exec_multicastCompletion (c : CoreId) (tag : Nat) (s : State) :
    exec (.multicastCompletion c tag) s = execMulticastCompletion c tag s := rfl

theorem exec_creditReturn (c : CoreId) (srcX srcY srcDev queue inc : Nat) (closed : Bool) (units at_ : Nat) (s : State) :
    exec (.creditReturn c srcX srcY srcDev queue inc closed units at_) s
      = execCreditReturn c srcX srcY srcDev queue inc closed units at_ s := rfl

theorem exec_reduceRootWrite (c : CoreId) (s : State) : exec (.reduceRootWrite c) s = execReduceRootWrite c s := rfl

/-! ### What waited at its source goes on: of the cores only message tags change (R235, R242, R382) -/

/-- From one device to another no core's state changes but for its next message tag. -/
def onlyTags (d e : Dev) : Prop := ∀ o, ∃ tag, e.arch o = { d.arch o with msg := { (d.arch o).msg with tag := tag } }

theorem onlyTags.of_core {d e : Dev} (h : ∀ o, e.core o = d.core o) : onlyTags d e :=
  fun o => ⟨(d.arch o).msg.tag, congrArg Core.arch (h o)⟩

theorem onlyTags.trans {d e f : Dev} (h : onlyTags d e) (g : onlyTags e f) : onlyTags d f := fun o => by
  obtain ⟨_, he⟩ := h o
  obtain ⟨tag, hf⟩ := g o
  exact ⟨tag, by rw [hf, he]⟩

theorem onlyTags.foldl {α : Type} {f : Dev → α → Dev} (h : ∀ d x, onlyTags d (f d x)) (l : List α) (d : Dev) :
    onlyTags d (l.foldl f d) := by
  induction l generalizing d with
  | nil => exact .of_core fun _ => rfl
  | cons x l ih => exact (h d x).trans (ih (f d x))

/-- A core's state looked up after a change of one core. -/
theorem Dev.arch_updArch_ite (d : Dev) (c o : CoreId) (f : Arch → Arch) :
    (d.updArch c f).arch o = if ckey o = ckey c then f (d.arch c) else d.arch o := by
  simp only [Dev.arch, Dev.core_updArch]
  split <;> rfl

theorem Dev.updMsg_tag_onlyTags (d : Dev) (c : CoreId) (tag : Nat) : onlyTags d (d.updMsg c fun u => { u with tag := tag }) :=
  fun o => by
    rw [Dev.updMsg, Dev.arch_updArch_ite]
    split
    · next h => exact ⟨tag, by rw [Dev.arch, Dev.arch, d.core_of_key c o, if_pos h]⟩
    · exact ⟨(d.arch o).msg.tag, rfl⟩

theorem Dev.sendHeld_onlyTags (d : Dev) (x y : Nat) (m : Msg) : onlyTags d (d.sendHeld x y m) := by
  unfold Dev.sendHeld
  dsimp only
  split
  · exact .of_core fun _ => Dev.core_putPackets ..
  · exact (d.updMsg_tag_onlyTags _ _).trans (.of_core fun _ => Dev.core_putPackets ..)

theorem Dev.flushHeld_onlyTags (d : Dev) (n : Nat) : onlyTags d (d.flushHeld n) := by
  unfold Dev.flushHeld
  dsimp only
  refine onlyTags.trans (.of_core fun _ => ?_) (onlyTags.foldl (fun e (h : HeldMsg) => e.sendHeld_onlyTags h.dstX h.dstY h.msg) _ _)
  split <;> rfl

theorem Dev.flushAll_onlyTags (d : Dev) : onlyTags d d.flushAll := onlyTags.foldl Dev.flushHeld_onlyTags _ d

/-! ### Delivery (R241, R242, R261) -/

@[simp] theorem Dev.arch_landed (d : Dev) (c e : CoreId) (h : PktHead) : (d.landed c h).arch e = d.arch e :=
  congrArg Core.arch (Dev.core_landed ..)

/-- A packet that may be delivered acts once it has landed; what then goes on changes of its core at most the next message tag. -/
theorem delivery_gives {s : State} {i : Instr} {c : CoreId} {p : Packet} {f : Dev → Dev} {a : Arch} (hs : clocked s)
    (hi : exec i s = s.onDev fun d => d.deliver c p f) (hland : s.dev.mayLand c p = true)
    (hf : (f (s.dev.cleared.landed c p.head)).arch c = a) :
    ∃ t tag, exec i s = .next t ∧ t.dev.arch c = { a with msg := { a.msg with tag := tag } } := by
  obtain ⟨tag, hflush⟩ := (f (s.dev.cleared.landed c p.head)).flushAll_onlyTags c
  exact ⟨_, tag, gives_of_onDev hs hi (if_pos hland), by rw [State.closing_arch, hflush, hf]⟩

theorem Dev.creditLands_onlyTags (d : Dev) (c : CoreId) (src : Sender) (queue inc : Nat) (closed : Bool) (units : Nat) :
    onlyTags d (d.creditLands c src queue inc closed units) := by
  unfold Dev.creditLands
  dsimp only
  split
  · exact onlyTags.trans (.of_core fun _ => Dev.core_landed ..) (Dev.flushAll_onlyTags _)
  · exact .of_core fun _ => rfl

/-! ### Placing a message (R250 to R252) -/

/-- A local write changes of a core's state at most its accumulator memory. -/
theorem Dev.localWrite_arch {d e : Dev} {c : CoreId} {addr : Nat} {bs : List Byte} (h : d.localWrite c addr bs = some e)
    (o : CoreId) : ∃ tensor, e.arch o = { d.arch o with tensor := tensor } := by
  have written (p : CoreId) (m : LocalMem) : (d.updCore p fun k => { k with mem := m }).arch o = d.arch o := by
    rw [Dev.arch, Dev.core_updCore, Dev.arch, d.core_of_key p o]
    split <;> rfl
  unfold Dev.localWrite at h
  split at h
  · obtain ⟨m, -, rfl⟩ := Option.map_eq_some_iff.1 h
    exact ⟨_, written _ m⟩
  · obtain ⟨m, -, rfl⟩ := Option.map_eq_some_iff.1 h
    exact ⟨_, written _ m⟩
  · obtain rfl := Option.some.inj h
    rw [Dev.arch_updArch_ite, Dev.arch, Dev.arch, d.core_of_key c o]
    split <;> exact ⟨_, rfl⟩
  · obtain rfl := Option.some.inj h
    exact ⟨_, rfl⟩

/-- Units written into a ring's storage change of a core's state at most its accumulator memory. -/
theorem Dev.writeUnits_arch (d : Dev) (c : CoreId) (base pos : Nat) (us : List QWord) (o : CoreId) :
    ∃ tensor, (d.writeUnits c base pos us).arch o = { d.arch o with tensor := tensor } := by
  unfold Dev.writeUnits
  cases h : d.localWrite c (base + 16 * pos) (us.flatMap qBytes) with
  | none => exact ⟨_, rfl⟩
  | some e => exact Dev.localWrite_arch h o

theorem Dev.arch_updMsg (d : Dev) (c : CoreId) (f : MsgUnit → MsgUnit) :
    (d.updMsg c f).arch c = { d.arch c with msg := f (d.arch c).msg } :=
  Dev.arch_updArch ..

/-- A message counted as done changes of its core at most that count (R604). -/
theorem Dev.countDone_arch (d : Dev) (c : CoreId) (src : Sender) :
    ∃ n, (d.countDone c src).arch c = { d.arch c with msg := { (d.arch c).msg with doneIn := n } } := by
  unfold Dev.countDone
  split
  · exact ⟨_, Dev.arch_updMsg ..⟩
  · exact ⟨_, rfl⟩

/-- Awaiting a message's later packets changes of its core at most the list of such messages. -/
theorem Dev.expect_arch (d : Dev) (c : CoreId) (p : Packet) (h : MsgHdr) (us : List QWord) (place : Option (Nat × Nat)) (sink : Nat) :
    ∃ l, (d.expect c p h us place sink).arch c = { d.arch c with msg := { (d.arch c).msg with partials := l } } := by
  unfold Dev.expect
  split
  · exact ⟨_, rfl⟩
  · exact ⟨_, Dev.arch_updMsg ..⟩

/-- Noting that a released message has arrived changes no core (R375, R483). -/
@[simp] theorem Dev.core_notePlaced (d : Dev) (c e : CoreId) (h : MsgHdr) : (d.notePlaced c h).core e = d.core e := by
  unfold Dev.notePlaced
  split <;> rfl

/-- A message unit that has placed a message in its ring (R250). -/
def MsgUnit.places (u : MsgUnit) (h : MsgHdr) (mcast complete : Bool) : MsgUnit :=
  u.updRing h.queue fun r => (r.place h mcast complete).1

theorem MsgUnit.places_ring (u : MsgUnit) (h : MsgHdr) (mcast complete : Bool) (hq : h.queue < 16) :
    (u.places h mcast complete).ring h.queue = ((u.ring h.queue).place h mcast complete).1 :=
  vGet_vSet_same _ _ _ _ hq

/-- Placing a message changes of its core the ring, the count of messages done and at most accumulator memory. -/
theorem Dev.placeMsg_arch (d : Dev) (c : CoreId) (h : MsgHdr) (us : List QWord) (mcast complete : Bool) :
    ∃ tensor n, (d.placeMsg c h us mcast complete).1.arch c = { d.arch c with
      tensor := tensor, msg := { (d.arch c).msg.places h mcast complete with doneIn := n } } := by
  have counted (e : Dev) (base pos : Nat) {tensor : Tensor} (he : e.arch c = { d.arch c with
      tensor := tensor, msg := (d.arch c).msg.places h mcast complete }) :
      ∃ tensor n, (((e.writeUnits c base pos us).bump 0x4300 2 1).countDone c (MsgHdr_src h)).arch c = { d.arch c with
        tensor := tensor, msg := { (d.arch c).msg.places h mcast complete with doneIn := n } } := by
    obtain ⟨tensor, hwrite⟩ := e.writeUnits_arch c base pos us c
    obtain ⟨n, hdone⟩ := ((e.writeUnits c base pos us).bump 0x4300 2 1).countDone_arch c (MsgHdr_src h)
    exact ⟨tensor, n, by rw [hdone, Dev.arch_bump, hwrite, he]⟩
  have hring := d.arch_updMsg c fun u => u.updRing h.queue fun _ => (((d.arch c).msg.ring h.queue).place h mcast complete).1
  unfold Dev.placeMsg
  dsimp only
  split
  · exact counted _ _ _ hring
  · obtain ⟨tensor, hpad⟩ := Dev.writeUnits_arch _ c ((d.arch c).msg.ring h.queue).base ((d.arch c).msg.ring h.queue).wp
      [hdrWord ⟨0, 0, false, ((d.arch c).msg.ring h.queue).padFor h.length, 0, 0, 0, 0, 0, 0, 0#32⟩] c
    exact counted _ _ _ ((Dev.arch_bump ..).trans (hpad.trans (by rw [hring]; rfl)))

/-- A first packet that is not poisoned, of the gear in force and past the checks of R256, places its message. -/
theorem Dev.firstArrives_places {d : Dev} {c : CoreId} {p : Packet} {h : MsgHdr} (hhdr : hdrOf (p.units.headD 0#128) = h)
    (hpoison : p.head.poison = 0) (hgear : h.gear = (d.arch c).stat.gear)
    (hcheck : deliveryCheck (d.core c) (d.arch c).stat.gear h = .place) :
    ∃ tensor n l, (d.firstArrives c p).arch c = { d.arch c with
      tensor := tensor, msg := { (d.arch c).msg.places h p.head.mcast p.head.last with doneIn := n, partials := l } } := by
  have hnoted : (d.notePlaced c h).arch c = d.arch c := congrArg Core.arch (Dev.core_notePlaced ..)
  obtain ⟨tensor, n, hplace⟩ := (d.notePlaced c h).placeMsg_arch c h p.units p.head.mcast p.head.last
  unfold Dev.firstArrives
  rw [Dev.arch] at hgear hcheck
  simp only [hhdr, Dev.core_notePlaced, hpoison, hgear, hcheck, ne_eq, not_true_eq_false, if_false]
  refine ⟨tensor, n, (Dev.expect_arch ..).imp fun l hexpect => hexpect.trans ?_⟩
  rw [hplace, hnoted]

/-! ### Later packets (R250, R256) -/

/-- A change of a message unit after units have been written for it. -/
theorem Dev.updMsg_writeUnits_arch (d : Dev) (c : CoreId) (base pos : Nat) (us : List QWord) (f : MsgUnit → MsgUnit) :
    ∃ tensor, ((d.writeUnits c base pos us).updMsg c f).arch c = { d.arch c with tensor := tensor, msg := f (d.arch c).msg } := by
  obtain ⟨tensor, hwrite⟩ := d.writeUnits_arch c base pos us c
  exact ⟨tensor, by rw [Dev.arch_updMsg, hwrite]⟩

/-- A ring with the record of the message at a position complete (R250). -/
def Ring.completed (r : Ring) (pos : Nat) : Ring :=
  { r with recs := r.recs.map fun y => if y.pos = pos && !y.pad then { y with complete := true } else y }

/-- A message whose packets a core awaits is the one that a packet belongs to (R235). -/
def Partial.isOf (x : Partial) (h : PktHead) : Bool := x.src = ⟨h.srcX, h.srcY, h.srcDev⟩ && x.tag = h.msgTag

/-- The last packet of a placed message, not poisoned, makes its record complete; it is awaited no longer. -/
theorem Dev.laterArrives_completes {d : Dev} {c : CoreId} {p : Packet} {x : Partial} {q pos : Nat}
    (hfind : (d.arch c).msg.partials.find? (fun y => y.isOf p.head) = some x) (hpoison : p.head.poison = 0)
    (hlast : p.head.last = true) (hsink : x.sink = 1) (hplace : x.place = some (q, pos)) :
    ∃ tensor, (d.laterArrives c p).arch c = { d.arch c with
      tensor := tensor
      msg := { (d.arch c).msg.updRing q fun r => r.completed pos with
        partials := (d.arch c).msg.partials.filter fun y => !y.isOf p.head } } := by
  unfold Partial.isOf at *
  unfold Dev.laterArrives
  simp only [hfind, hpoison, hlast, hsink, hplace, ne_eq, not_true_eq_false, false_and, if_false, if_true]
  refine (Dev.updMsg_writeUnits_arch ..).imp fun tensor hdone => hdone.trans ?_
  rw [Dev.arch_updMsg]
  rfl

/-! ### Credit returns (R262) -/

theorem MsgUnit.credited_chans (u : MsgUnit) (src : Sender) (queue inc units : Nat) :
    (u.credited src queue inc units false).chans = u.chans.map fun k =>
      if k.isFor src queue inc then { k with credits := k.credits + units } else k := by
  simp only [MsgUnit.credited, Bool.or_false]

/-- A credit return that closes nothing, at a core whose message unit has no command, adds its units to its channels. -/
theorem Dev.creditReturn_arch {d : Dev} {c : CoreId} (src : Sender) (queue inc units at_ : Nat)
    (hidle : (vGet (d.arch c).units 2 clearUnit).queue = []) :
    (d.creditReturn c src queue inc false units at_).arch c
      = { d.arch c with msg := (d.arch c).msg.credited src queue inc units false } := by
  have hcredit := d.arch_updMsg c fun u => u.credited src queue inc units false
  unfold Dev.creditReturn
  simp only [Bool.false_and, Bool.false_eq_true, if_false, hcredit, hidle]

/-! ### The statement -/

/-- Settles O24, one command at a time: a delivery acts on its core, and of what waited for it and goes on only the next
message tag shows there. -/
theorem arrivals : Obligations.Arrivals := by
  intro s c hs
  refine ⟨fun h units m hm hpoison hgear hq hland hcheck => ?_, fun h units x q pos hpoison hlast hsink hplace hq hland hfind => ?_,
    fun tag p hp => ?_, fun srcX srcY srcDev queue inc units at_ hx hidle => ?_, fun row es hwait => ?_⟩
  · obtain ⟨tensor, n, l, hplaced⟩ := Dev.firstArrives_places (d := s.dev.cleared.landed c h) (p := pktOf h units) hm.symm hpoison
      (by rw [Dev.arch_landed]; exact hgear) (by rw [Dev.arch_landed, Dev.core_landed]; exact hcheck)
    rw [Dev.arch_landed] at hplaced
    obtain ⟨t, tag, ht, harch⟩ := delivery_gives hs (exec_messageFirstPacket c h units s) hland hplaced
    refine ⟨t, ht, ?_⟩
    rw [harch]
    exact ⟨MsgUnit.places_ring _ _ _ _ hq, rfl, rfl⟩
  · obtain ⟨tensor, hdone⟩ := Dev.laterArrives_completes (d := s.dev.cleared.landed c h) (p := pktOf h units)
      (by rw [Dev.arch_landed]; exact hfind) hpoison hlast hsink hplace
    rw [Dev.arch_landed] at hdone
    obtain ⟨t, tag, ht, harch⟩ := delivery_gives hs (exec_messagePacket c h units s) hland hdone
    refine ⟨t, ht, ?_⟩
    rw [harch]
    exact ⟨congrArg Ring.recs (vGet_vSet_same _ _ _ _ hq), rfl, rfl, rfl⟩
  · obtain ⟨tag', hflush⟩ := ((s.dev.cleared.landed c p.head).updMsg c fun u =>
      { u with mcastWait := u.mcastWait.erase tag }).flushAll_onlyTags c
    rw [Dev.arch_updMsg, Dev.arch_landed] at hflush
    have hdue : s.dev.cleared.completionFor c tag = some p := hp
    refine ⟨_, gives_of_onDev hs (exec_multicastCompletion c tag s) (by rw [hdue]), ?_⟩
    rw [State.closing_arch, hflush]
    exact ⟨rfl, rfl, rfl⟩
  · obtain ⟨tag, hlands⟩ := s.dev.cleared.creditLands_onlyTags c ⟨srcX, srcY, srcDev⟩ queue inc false units c
    have hreturn := Dev.creditReturn_arch (d := s.dev.cleared.creditLands c ⟨srcX, srcY, srcDev⟩ queue inc false units) (c := c)
      ⟨srcX, srcY, srcDev⟩ queue inc units at_ (by rw [hlands]; exact hidle)
    rw [hlands] at hreturn
    refine ⟨_, gives_of_onDev hs (exec_creditReturn ..) (if_neg hx), ?_⟩
    rw [State.closing_arch, hreturn]
    exact ⟨MsgUnit.credited_chans .., rfl, rfl⟩
  · refine gives_of_onDev hs (exec_reduceRootWrite c s) ?_
    simp only [Dev.arch_cleared, hwait]

end Sys2Proof.Machine
end

section
/-! O34: the ends of scans, of copies of contents and of drains (R190, R199, R265, R301, R347). -/

namespace Sys2Proof.Machine

theorem exec_scanOutComplete (n num : Nat) (s : State) : exec (.scanOutComplete n num) s = s.onDev fun d => d.scanOut n num := rfl

theorem exec_contentsCopyComplete (n : Nat) (s : State) :
    exec (.contentsCopyComplete n) s = s.onDev fun d => d.contentsCopied n := rfl

theorem exec_drainComplete (n : Nat) (s : State) : exec (.drainComplete n) s = s.onDev fun d => d.drainDone n := rfl

/-! ### Maps filled from a list -/

theorem ckey_injective {c e : CoreId} (hc : c.x < 64) (he : e.x < 64) (h : ckey c = ckey e) : c = e := by
  obtain ⟨cx, cy⟩ := c
  obtain ⟨ex, ey⟩ := e
  simp only [ckey] at h hc he
  simp only [CoreId.mk.injEq]
  omega

/-- A key that a list fills in a map holds a value that all its entries for that key agree on. -/
theorem nmGet_foldl_nmSet {α β : Type} (key : α → Nat) (f : α → β) {k : Nat} {v : β} (l : List α) (m : NMap β)
    (hval : ∀ a ∈ l, key a = k → f a = v) (hk : (∃ a ∈ l, key a = k) ∨ nmGet m k = some v) :
    nmGet (l.foldl (fun m a => nmSet m (key a) (f a)) m) k = some v := by
  induction l generalizing m with
  | nil => simpa using hk
  | cons a l ih =>
    refine ih _ (fun b hb => hval b (List.mem_cons_of_mem _ hb)) ?_
    by_cases ha : k = key a
    · right
      rw [nmGet_nmSet, if_pos ha, hval a List.mem_cons_self ha.symm]
    · rw [nmGet_nmSet, if_neg ha]
      simpa [Ne.symm ha] using hk

/-! ### Run-time records of regions (R339) -/

/-- A change of one region's record leaves those of the others. -/
theorem Ctx.rt?_updRt_other (x : Ctx) {num q : Nat} (f : RegionRt → RegionRt) (hf : ∀ r, (f r).num = r.num) (hq : q ≠ num) :
    (x.updRt num f).rt? q = x.rt? q := by
  simp only [Ctx.rt?, Ctx.updRt]
  induction x.regions with
  | nil => rfl
  | cons r l ih =>
    simp only [List.map_cons, List.find?_cons, ih]
    by_cases hr : r.num = num
    · simp [hr, hf, hq.symm]
    · simp [hr]

/-! ### Scan-out (R301) -/

theorem Dev.recordOf_of_gate {d : Dev} {n : Nat} (c : CoreId) (h : (d.ctx n).midStep = false) :
    d.recordOf n c = (d.core c).record n c false := by
  simp [Dev.recordOf, h]

@[simp] theorem Dev.core_scanCore (d : Dev) (n : Nat) (c e : CoreId) : (d.scanCore n c).core e = d.core e :=
  Dev.core_bump ..

@[simp] theorem Dev.ctx_scanCore (d : Dev) (n : Nat) (c : CoreId) : (d.scanCore n c).ctx n
    = { d.ctx n with saved := nmSet (d.ctx n).saved (ckey c) (d.recordOf n c) } := by
  simp [Dev.scanCore]

@[simp] theorem Dev.core_scanCores (n : Nat) (cores : List CoreId) (d : Dev) (e : CoreId) :
    (cores.foldl (fun d c => d.scanCore n c) d).core e = d.core e := by
  induction cores generalizing d with
  | nil => rfl
  | cons c cores ih => exact (ih _).trans (d.core_scanCore n c e)

/-- The scan of cores at a gate adds their records to the save area of their context, and changes nothing else of it. -/
theorem Dev.ctx_scanCores (n : Nat) (cores : List CoreId) (d : Dev) (hmid : (d.ctx n).midStep = false) :
    (cores.foldl (fun d c => d.scanCore n c) d).ctx n = { d.ctx n with
      saved := cores.foldl (fun l c => nmSet l (ckey c) ((d.core c).record n c false)) (d.ctx n).saved } := by
  induction cores generalizing d with
  | nil => rfl
  | cons c cores ih =>
    rw [List.foldl_cons, ih (d.scanCore n c) (by simpa using hmid)]
    simp [d.recordOf_of_gate c hmid]

/-- The record of a region that has been scanned out at its last commit. -/
def RegionRt.scannedAtGate (t : RegionRt) : RegionRt := { t with scanned := true, shadowed := true }

/-- While another region of the context is to be scanned, the scan of a region at a gate records its cores and marks it. -/
theorem Dev.scanOut_at_gate {d : Dev} {n num : Nat} {r : RegionRt} (hrt : (d.ctx n).rt? num = some r) (hready : d.scanReady n r = true)
    (hmid : (d.ctx n).midStep = false) (hload : (d.ctx n).gearLoad.busy = false)
    (hother : ((d.ctx n).regions.any fun t => t.num != num && !t.scanned) = true) :
    d.scanOut n num = (((d.ctx n).coresIn num).foldl (fun d c => d.scanCore n c) d).updRt n num RegionRt.scannedAtGate := by
  have hdrop : d.dropGearLoad n = d := by simp [Dev.dropGearLoad, hload]
  have hscan := Dev.ctx_scanCores n ((d.ctx n).coresIn num) d hmid
  obtain ⟨t, ht, hleft⟩ := List.any_eq_true.1 hother
  simp only [Bool.and_eq_true, bne_iff_ne, Bool.not_eq_true'] at hleft
  obtain ⟨hnum, hunscanned⟩ := hleft
  unfold Dev.scanOut
  simp only [hrt, hready, hmid, hdrop, hscan, Bool.false_and, Bool.false_eq_true, if_false, Bool.not_true, Bool.not_false]
  refine if_neg fun hall => ?_
  simp only [Dev.updRt, Dev.ctx_updCtx, if_true, hscan] at hall
  exact Bool.eq_false_iff.1 hunscanned (List.all_eq_true.1 hall t (List.mem_map.2 ⟨t, ht, if_neg hnum⟩))

/-- Such a scan leaves of its context all but the records in the save area and the mark of the region. -/
theorem Dev.ctx_scanOut_at_gate {d : Dev} {n num : Nat} {r : RegionRt} (hrt : (d.ctx n).rt? num = some r)
    (hready : d.scanReady n r = true) (hmid : (d.ctx n).midStep = false) (hload : (d.ctx n).gearLoad.busy = false)
    (hother : ((d.ctx n).regions.any fun t => t.num != num && !t.scanned) = true) :
    (d.scanOut n num).ctx n = { d.ctx n with
      saved := ((d.ctx n).coresIn num).foldl (fun l c => nmSet l (ckey c) ((d.core c).record n c false)) (d.ctx n).saved }.updRt
        num RegionRt.scannedAtGate := by
  rw [Dev.scanOut_at_gate hrt hready hmid hload hother, Dev.updRt, Dev.ctx_updCtx, if_pos rfl, Dev.ctx_scanCores n _ d hmid]

/-- A region parked at a commit is scanned out (R301). -/
theorem scanOutComplete_records {s : State} {n num : Nat} {r : RegionRt} (hs : clocked s) (hrt : (s.dev.ctx n).rt? num = some r)
    (hready : s.dev.scanReady n r = true) (hmid : (s.dev.ctx n).midStep = false) (hload : (s.dev.ctx n).gearLoad.busy = false)
    (hx : ∀ c ∈ (s.dev.ctx n).coresIn num, c.x < 64)
    (hother : ((s.dev.ctx n).regions.any fun t => t.num != num && !t.scanned) = true) :
    ∃ t, exec (.scanOutComplete n num) s = .next t
      ∧ (∀ c ∈ (s.dev.ctx n).coresIn num, nmGet (t.dev.ctx n).saved (ckey c) = some ((s.dev.core c).record n c false))
      ∧ (∀ q, q ≠ num → (t.dev.ctx n).rt? q = (s.dev.ctx n).rt? q) ∧ (t.dev.ctx n).state = (s.dev.ctx n).state
      ∧ ∀ c, t.dev.core c = s.dev.core c := by
  have hscan := Dev.scanOut_at_gate (d := s.dev.cleared) hrt hready hmid hload hother
  obtain ⟨op, hctx⟩ := s.closing_ctx (s.dev.cleared.scanOut n num) n
  rw [Dev.ctx_scanOut_at_gate (d := s.dev.cleared) hrt hready hmid hload hother] at hctx
  refine ⟨_, (exec_scanOutComplete n num s).trans (onDev_gives hs), fun c hc => ?_, fun q hq => ?_, ?_, fun c => ?_⟩
  · rw [hctx]
    exact nmGet_foldl_nmSet ckey (fun c => (s.dev.core c).record n c false) _ _
      (fun e he hkey => by rw [ckey_injective (hx e he) (hx c hc) hkey]) (.inl ⟨c, hc, rfl⟩)
  · rw [hctx]
    exact Ctx.rt?_updRt_other _ _ (fun _ => rfl) hq
  · rw [hctx]; rfl
  · rw [State.closing_core, hscan]
    exact Dev.core_scanCores ..

/-! ### Copied contents (R190, R199) -/

theorem Dev.contentsCopied_of_copying {d : Dev} {n : Nat} (h : (d.ctx n).copying = true) :
    d.contentsCopied n = (d.contentsLeave n).cellsFreed := by
  simp [Dev.contentsCopied, h]

/-! ### The end of draining (R265, R332, R347) -/

/-- Freeing hold space takes only granules from a context. -/
theorem Dev.ctx_holdFree (d : Dev) (n : Nat) :
    ∃ stays, (d.holdFree n).ctx n = { d.ctx n with dmaHold := (d.ctx n).dmaHold.filter stays } := by
  exact ⟨_, (Dev.ctx_updCtx ..).trans (if_pos rfl)⟩

/-- Without released traffic, and with every payload in the input log acknowledged or for an expelled device, a context has drained. -/
theorem Dev.drained_holdFree {d : Dev} {n : Nat} (hmsg : ∀ h ∈ (d.ctx n).msgHold, h.released = false ∨ h.placedIn.isSome = true)
    (hdma : ∀ h ∈ (d.ctx n).dmaHold, h.released = false)
    (hlog : ∀ e ∈ d.inlog, e.ctx = n → e.acked = false → d.expelled e.dev = true) : (d.holdFree n).drained n = true := by
  obtain ⟨stays, hctx⟩ := d.ctx_holdFree n
  have hsettled : ∀ e ∈ d.inlog, (e.ctx != n || e.acked || d.expelled e.dev) = true := by
    intro e he
    by_cases hn : e.ctx = n
    · cases ha : e.acked with
      | true => simp
      | false => simp [hlog e he hn ha]
    · simp [hn]
  simp only [Dev.drained, hctx, Bool.and_eq_true, List.all_eq_true]
  exact ⟨⟨fun h hh => by simpa using hmsg h hh, fun h hh => by simpa using hdma h (List.mem_of_mem_filter hh)⟩, hsettled⟩

@[simp] theorem Dev.ctx_sendMgmt (d : Dev) (dev kind srcCtx dstCtx step relIdx m : Nat) (p : LinkPay) :
    (d.sendMgmt dev kind srcCtx dstCtx step relIdx p).ctx m = d.ctx m := by
  obtain ⟨_, _, _, h⟩ := d.sendMgmt_frame dev kind srcCtx dstCtx step relIdx p
  rw [h]; rfl

/-- Residency frames leave of a context all but the devices that are to acknowledge them (R441). -/
theorem Dev.ctx_residency (d : Dev) (n : Nat) (here : Bool) :
    ∃ l, (d.residency n here).ctx n = { d.ctx n with unacked := l } := by
  have hsend : ∀ (l : List (Nat × Nat)) (e : Dev),
      (l.foldl (fun d p => d.sendMgmt p.1 7 n p.2 0 0 (.residency here)) e).ctx n = e.ctx n := by
    intro l
    induction l with
    | nil => exact fun _ => rfl
    | cons p l ih => exact fun e => (ih _).trans (e.ctx_sendMgmt ..)
  exact ⟨_, (hsend _ _).trans ((Dev.ctx_updCtx ..).trans (if_pos rfl))⟩

@[simp] theorem Dev.ctx_clockRise (d : Dev) (n : Nat) : d.clockRise.ctx n = d.ctx n := by
  unfold Dev.clockRise; split <;> rfl

@[simp] theorem Dev.state_toState (d : Dev) (n : Nat) (st : CtxState) : ((d.toState n st).ctx n).state = st := by
  unfold Dev.toState
  dsimp only
  split
  · simp
  · obtain ⟨l, h⟩ := Dev.ctx_residency _ n st.holds
    rw [Dev.ctx_clockRise, h]; simp

/-- The device on which cells are freed at the end of a drain holds the context LOADED, without regions and held traffic. -/
theorem Dev.drainDone_loads {d : Dev} {n : Nat} (hst : (d.ctx n).state = .draining) (hdone : (d.holdFree n).drained n = true) :
    ∃ e : Dev, d.drainDone n = e.cellsFreed.schedule ∧ (e.ctx n).state = .loaded ∧ (e.ctx n).regions = []
      ∧ (e.ctx n).entered = false ∧ (e.ctx n).msgHold = [] ∧ (e.ctx n).dmaHold = [] := by
  obtain ⟨stays, hctx⟩ := d.ctx_holdFree n
  have hgoes : ¬(((d.holdFree n).ctx n).state != .draining || !(d.holdFree n).drained n) = true := by
    simp [hctx, hst, hdone]
  refine ⟨_, if_neg hgoes, ?_⟩
  simp

/-! ### The statement -/

/-- Settles O34: the records of the scanned cores come from the save area that the scan fills, the copied contents and their cells are
what leaving makes of them, and the end of a drain is read off the context that it hands to the cells' next owners. -/
theorem contextEnds : Obligations.ContextEnds := by
  intro s n hs
  refine ⟨fun num r => scanOutComplete_records hs, fun hcopy => ?_, fun hst hmsg hdma hlog => ?_⟩
  · exact gives_of_onDev hs (exec_contentsCopyComplete n s) (Dev.contentsCopied_of_copying hcopy)
  · obtain ⟨d, hd, hloaded⟩ := Dev.drainDone_loads (d := s.dev.cleared) hst (Dev.drained_holdFree hmsg hdma hlog)
    exact ⟨d, gives_of_onDev hs (exec_drainComplete n s) hd, hloaded⟩

end Sys2Proof.Machine
end

section
/-! O27: one step cycle of a switch program (R215 to R220, R222, R233). -/

namespace Sys2Proof.Machine

theorem exec_switchEntryExecute (c : CoreId) (s : State) :
    exec (.switchEntryExecute c) s = s.onDev fun d => d.switchCycle c := rfl

/-! ### The entry of a step cycle (R217, R219, R220) -/

section
variable {d e : Dev} {c : CoreId} {out : List Nat} {inj ej steerIn steerDl rep : Nat}

theorem Dev.routeCycle_holds (h : d.coreHold c out steerIn = true) : d.routeCycle c out ej steerIn steerDl = d.holdCycle c :=
  if_pos h

/-- With no condition of the hold table met, its inject beat read and no conflict with its core, a router runs the entry. -/
theorem Dev.routeCycle_passes (hhold : d.coreHold c out steerIn = false) (hdue : ∀ x ∈ (d.arch c).router.due, x.data.isSome = true)
    (hfree : (d.arch c).router.conflict c ((d.runRoute c out ej steerIn steerDl).arch c).router = false) :
    d.routeCycle c out ej steerIn steerDl = (d.runRoute c out ej steerIn steerDl).updCore c Core.routerPassed := by
  have hread : ((d.arch c).router.due.any fun x => x.data.isNone) = false := by
    cases hx : (d.arch c).router.due with
    | none => rfl
    | some x => simpa [Option.isNone_eq_false_iff] using hdue x hx
  unfold Dev.routeCycle
  simp only [hhold, hread, hfree, Bool.false_eq_true, if_false]

/-- A router has work when its core runs or is at a gate and the issue count has reached its next step cycle. -/
theorem Arch.routerDue {a : Arch} (hrun : a.stat.run = .running ∨ a.stat.run = .atGate) (hwork : a.router.cycle ≤ a.stat.issue) :
    (!(a.stat.run = .running || a.stat.run = .atGate) || decide (a.stat.issue < a.router.cycle)) = false := by
  rcases hrun with h | h <;> simpa [h] using hwork

/-- A router with work asks for the reads of its inject streams, and executes the ROUTE that it stands at unless one of them stops its core. -/
theorem Dev.switchCycle_routes (hrun : (d.arch c).stat.run = .running ∨ (d.arch c).stat.run = .atGate)
    (hwork : (d.arch c).router.cycle ≤ (d.arch c).stat.issue) (hend : (d.arch c).router.atEnd = false)
    (he : e = (d.updCore c (Core.askReads 4)).serveReads c) (hlive : (e.arch c).stat.run ≠ .stopped)
    (hentry : ((e.core c).slot (d.arch c).stat.gear).sw (d.arch c).router.sw = .route out inj ej steerIn steerDl rep) :
    d.switchCycle c = e.routeCycle c out ej steerIn steerDl := by
  subst he
  unfold Dev.switchCycle
  simp only [Arch.routerDue hrun hwork, hend, Bool.false_eq_true, if_false, hentry]
  exact if_neg hlive

/-- At END a step cycle only zeroes the counts of steered streams. -/
theorem Dev.switchCycle_atEnd (hrun : (d.arch c).stat.run = .running ∨ (d.arch c).stat.run = .atGate)
    (hwork : (d.arch c).router.cycle ≤ (d.arch c).stat.issue) (hend : (d.arch c).router.atEnd = true) :
    d.switchCycle c = (d.zeroCounts c).updCore c Core.routerPassed := by
  unfold Dev.switchCycle
  simp only [Arch.routerDue hrun hwork, hend, Bool.false_eq_true, if_false, if_true]

end

/-! ### A core hold (R219) -/

/-- The commands in progress in the tensor and the vector unit do not advance. -/
theorem Arch.held_queue (a : Arch) {u : Nat} (hu : u < 2) : (vGet a.held.units u clearUnit).queue
    = (vGet a.units u clearUnit).queue.map fun e => if e.started then { e with dur := e.dur + 1 } else e := by
  have h4 : u < 4 := by omega
  have h1 : u ≤ 1 := by omega
  simp [Arch.held, vGet, h4, h1]

/-- The counts of a core after one late cycle. -/
def Dev.lateOnce (d : Dev) (c : CoreId) : CoreStat :=
  let w := (d.arch c).stat.now.waitFor ((d.arch c).stat.cyc + 1) 1
  ((d.arch c).stat.spent w 0).withhold (d.hold c w.cyc)

theorem Dev.lateOnce_counts (d : Dev) (c : CoreId) :
    (d.lateOnce c).late = (d.arch c).stat.late + 1 ∧ (d.lateOnce c).cyc = (d.arch c).stat.cyc + 1 := by
  obtain ⟨hcyc, hlate, -⟩ := (d.arch c).stat.spent_late 1
  exact ⟨hlate, hcyc⟩

/-- A wait of the router costs its core one late cycle, and changes nothing else. -/
theorem Dev.core_routerWaits (d : Dev) (c e : CoreId) : (d.routerWaits c).core e
    = if ckey e = ckey c then { d.core c with arch := { d.arch c with stat := d.lateOnce c } } else d.core e := by
  rw [Dev.routerWaits, Dev.core_bump, Dev.stallLate, Dev.core_spend, Dev.arch_spend]
  rfl

/-- A core hold costs it a late cycle and holds its commands in progress. -/
theorem Dev.core_holdCycle (d : Dev) (c e : CoreId) : (d.holdCycle c).core e = if ckey e = ckey c then
    { d.core c with arch := { (d.arch c).held with stat := (d.updArch c Arch.held).lateOnce c } } else d.core e := by
  rw [Dev.holdCycle, Dev.core_routerWaits, Dev.arch_updArch, Dev.core_updArch, Dev.core_updArch, if_pos rfl]
  split <;> rfl

/-! ### The program moves on (R215, R216) -/

section
variable {s : Slot} {i : Nat}

theorem Router.goTo_route {out : List Nat} {inj ej steerIn steerDl rep : Nat} (fuel : Nat) (r : Router)
    (h : s.sw i = .route out inj ej steerIn steerDl rep) :
    r.goTo s (fuel + 1) i = { r with sw := i, atEnd := false, left := some rep } := by
  rw [Router.goTo, h]

theorem Router.goTo_stop (fuel : Nat) (r : Router) (h : s.sw i = .stop) :
    r.goTo s (fuel + 1) i = { r with sw := i, atEnd := true, left := none } := by
  rw [Router.goTo, h]

/-- A LOOP that its router reaches branches, with all its further branches left. -/
theorem Router.goTo_loop {target countM1 ctr : Nat} (fuel : Nat) (r : Router) (h : s.sw i = .loop target countM1 ctr)
    (hctr : vGet r.ctrs ctr 0 = 0) :
    r.goTo s (fuel + 1) i = Router.goTo s fuel target { r with ctrs := vSet r.ctrs ctr (countM1 + 1) } := by
  rw [Router.goTo, h]
  simp [hctr]

theorem Router.goTo_cycle (fuel : Nat) (i : Nat) (r : Router) : (r.goTo s fuel i).cycle = r.cycle := by
  induction fuel generalizing i r with
  | zero => rfl
  | succ fuel ih =>
    rw [Router.goTo]
    split
    · rfl
    · rfl
    · dsimp only
      rw [apply_ite Router.cycle, ih, ih]
      exact ite_self _

theorem Router.onward_cycle (r : Router) : (r.onward s).cycle = r.cycle := by
  unfold Router.onward
  split
  · rfl
  · split
    · rfl
    · exact Router.goTo_cycle ..

theorem Router.onward_atEnd {r : Router} (h : r.atEnd = true) : r.onward s = r := if_pos h

theorem Router.onward_repeats {r : Router} {n : Nat} (h : r.atEnd = false) (hleft : r.left = some (n + 1)) :
    r.onward s = { r with left := some n } := by
  simp [Router.onward, h, hleft]

/-- With its repeats spent an entry gives way to the next. -/
theorem Router.onward_next {r : Router} (h : r.atEnd = false) (hleft : r.left = some 0) :
    r.onward s = r.goTo s swFuel (r.sw + 1) := by
  simp [Router.onward, h, hleft]

end

/-- A router after a step cycle in which its program has not moved on: counted, its reads done, its waiting tokens and beats older. -/
def Router.aged (r : Router) : Router :=
  { r with
    cycle := r.cycle + 1, reads := r.reads.filter fun x => decide (r.cycle < x.cycle)
    pairing := r.pairing.map (List.map fun e => { e with age := e.age + 1 }) }

/-- A router that has passed a step cycle is one step of its program on. -/
theorem Core.routerPassed_router (k : Core) :
    k.routerPassed.arch.router = k.arch.router.aged.onward (k.slot k.arch.stat.gear) := rfl

/-- With its repeats spent its program moves to the next entry, with fuel for two moves at least. -/
theorem Core.routerPassed_next {k : Core} (hend : k.arch.router.atEnd = false) (hleft : k.arch.router.left = some 0) :
    k.routerPassed.arch.router = k.arch.router.aged.goTo (k.slot k.arch.stat.gear) (1048574 + 1 + 1) (k.arch.router.sw + 1) :=
  k.routerPassed_router.trans (Router.onward_next (r := k.arch.router.aged) hend hleft)

/-- Settles O27: the entry's execution case by case, the hold's core from `Dev.core_holdCycle`, the program's move by the entry it comes to. -/
theorem switchEntries : Obligations.SwitchEntries := by
  refine ⟨fun s c a hs ha hrun hwork => ?_, fun k => ?_⟩
  · subst ha
    refine ⟨fun d out inj ej steerIn steerDl rep hend hd hlive hentry => ?_, fun hend => ?_, fun d => ?_⟩
    · have hroutes : s.dev.cleared.switchCycle c = d.routeCycle c out ej steerIn steerDl :=
        Dev.switchCycle_routes hrun hwork hend hd hlive hentry
      exact ⟨fun hhold hdue hfree => gives_of_onDev hs (exec_switchEntryExecute c s)
          (hroutes.trans (Dev.routeCycle_passes hhold hdue hfree)),
        fun hhold => gives_of_onDev hs (exec_switchEntryExecute c s) (hroutes.trans (Dev.routeCycle_holds hhold))⟩
    · exact gives_of_onDev hs (exec_switchEntryExecute c s) (Dev.switchCycle_atEnd (d := s.dev.cleared) hrun hwork hend)
    · have hc : (d.holdCycle c).core c = _ := (d.core_holdCycle c c).trans (if_pos rfl)
      obtain ⟨hlate, hcyc⟩ := (d.updArch c Arch.held).lateOnce_counts c
      rw [Dev.arch_updArch] at hlate hcyc
      have ha : (d.holdCycle c).arch c = _ := congrArg Core.arch hc
      rw [ha, hc]
      exact ⟨hlate, hcyc, fun u hu => Arch.held_queue _ hu, rfl, rfl, rfl, fun e he => (d.core_holdCycle c e).trans (if_neg he)⟩
  · refine ⟨?_, fun hend => ?_, fun n hend hleft => ?_, fun out inj ej si sd rep hend hleft hnext => ?_, fun hend hleft hnext => ?_,
      fun target n ctr out inj ej si sd rep hend hleft hctr hnext hzero htarget => ?_, rfl, rfl, rfl⟩
    · rw [Core.routerPassed_router, Router.onward_cycle]; rfl
    · rw [Core.routerPassed_router, Router.onward_atEnd (r := k.arch.router.aged) hend]; exact ⟨rfl, hend⟩
    · rw [Core.routerPassed_router, Router.onward_repeats (r := k.arch.router.aged) hend hleft]; exact ⟨rfl, rfl⟩
    · rw [Core.routerPassed_next hend hleft, Router.goTo_route _ _ hnext]; exact ⟨rfl, rfl, rfl⟩
    · rw [Core.routerPassed_next hend hleft, Router.goTo_stop _ _ hnext]
    · rw [Core.routerPassed_next hend hleft, Router.goTo_loop (r := k.arch.router.aged) _ hnext hzero, Router.goTo_route _ _ htarget]
      exact ⟨rfl, vGet_vSet_same _ _ _ _ hctr⟩

end Sys2Proof.Machine
end

section
/-! O28: beats arrive, and tokens that wait too long stop the core (R218, R225, R232). -/

namespace Sys2Proof.Machine

theorem exec_beatArrival (c : CoreId) (port : Nat) (ecc : Ecc) (s : State) :
    exec (.beatArrival c port ecc) s = execBeatArrival c port ecc s := rfl

theorem exec_steerSkew (c : CoreId) (s : State) : exec (.steerSkew c) s = s.onDev fun d =>
    if (d.arch c).live && (d.arch c).router.overdue then (d.bump 0x4200 0xC 1).routerStop c cSteerSkew else d := rfl

/-! ### Beats (R218, R225) -/

/-- The mark that error correction leaves on a beat. -/
def Beat.marked (b : Beat) (ecc : Ecc) : Beat := if ecc = .uncorrectable then { b with poisoned := true } else b

/-- What error correction finds in a beat is counted. -/
def Dev.countBeat (d : Dev) : Ecc → Dev
  | .clean => d
  | .corrected => d.bump 0x4200 6 1
  | .uncorrectable => d.bump 0x4200 7 1

theorem Dev.core_countBeat (d : Dev) (ecc : Ecc) (e : CoreId) : (d.countBeat ecc).core e = d.core e := by
  cases ecc
  · rfl
  · exact Dev.core_bump ..
  · exact Dev.core_bump ..

/-- A beat has come over the link to an input port, and `rest` of those on their way stay on the links. -/
def Arch.receives (port : Nat) (b : Beat) (rest : List (Nat × Beat)) (a : Arch) : Arch :=
  { a with router := { a.router with flying := rest, inq := vSet a.router.inq port (vGet a.router.inq port [] ++ [b]) } }

/-- A beat that finds a place in its port's queue joins it. -/
theorem beatArrival_gives {s : State} {c : CoreId} {port : Nat} {b : Beat} {rest : List (Nat × Beat)} (hs : clocked s) (hport : port < 4)
    (hfly : takeFlying port (s.dev.arch c).router.flying = some (b, rest))
    (hroom : (vGet (s.dev.arch c).router.inq port []).length < 8) (ecc : Ecc) :
    gives (.beatArrival c port ecc) s ((s.dev.cleared.countBeat ecc).updArch c (Arch.receives port (b.marked ecc) rest)) := by
  have hfits : ¬(4 ≤ port ∨ 8 ≤ (vGet (s.dev.arch c).router.inq port []).length) := by omega
  have hqueue : vGet ((s.dev.cleared.countBeat ecc).arch c).router.inq port [] = vGet (s.dev.arch c).router.inq port [] := by
    simp [Dev.arch, Dev.core_countBeat]
  refine gives_of_onDev hs (exec_beatArrival c port ecc s) ?_
  simp only [Dev.arch_cleared, hfly]
  refine (if_neg hfits).trans (Eq.trans ?_ (Dev.updArch_congr (f := fun a => { a with router := { a.router with
    flying := rest, inq := vSet a.router.inq port (vGet (s.dev.arch c).router.inq port [] ++ [b.marked ecc]) } }) ?_))
  · cases ecc <;> rfl
  · rw [Arch.receives, hqueue]

/-! ### Steering skew (R232) -/

theorem Dev.stop_programError (d : Dev) (c : CoreId) (code : Code) (unit sb pc gear d0 d1 : Nat) (h : (d.arch c).stat.run ≠ .stopped) :
    ((d.stop c code unit sb pc gear d0 d1).arch c).stat.programError = decide (stopKind code = 1) := by
  have hc := Dev.stop_core d c c code unit sb pc gear d0 d1 h
  rw [if_pos rfl] at hc
  have ha : (d.stop c code unit sb pc gear d0 d1).arch c = _ := (congrArg Core.arch hc).trans (Core.reportStop_arch _)
  rw [ha]; rfl

theorem Arch.run_of_live {a : Arch} (h : a.live = true) : a.stat.run ≠ .stopped := by
  intro hrun
  simp [Arch.live, hrun] at h

/-- A live core with an overdue token or beat stops, as its router asks. -/
theorem steerSkew_gives {s : State} {c : CoreId} (hs : clocked s) (hlive : (s.dev.arch c).live = true)
    (hover : (s.dev.arch c).router.overdue = true) :
    gives (.steerSkew c) s ((s.dev.cleared.bump 0x4200 0xC 1).routerStop c cSteerSkew) := by
  refine gives_of_onDev hs (exec_steerSkew c s) (if_pos ?_)
  simp [hlive, hover]

/-- Settles O28: the queues and the links are read off the router that receives the beat, the stop off `Dev.stop_stoppedWith`. -/
theorem beatsAndSkew : Obligations.BeatsAndSkew := by
  intro s c hs
  refine ⟨fun port b rest hport hfly hroom ecc => ⟨_, beatArrival_gives hs hport hfly hroom ecc, ?_⟩,
    fun hlive hover => ⟨_, steerSkew_gives hs hlive hover, ?_⟩⟩
  · have harch : ((s.dev.cleared.countBeat ecc).updArch c (Arch.receives port (b.marked ecc) rest)).arch c
        = (s.dev.arch c).receives port (b.marked ecc) rest := by
      rw [Dev.arch_updArch, Dev.arch, Dev.core_countBeat]; rfl
    simp only [State.closing_arch, State.closing_core, harch, sameCores]
    refine ⟨vGet_vSet_same _ _ _ _ hport, rfl, fun q hq => vGet_vSet_other _ _ _ _ _ hq, rfl, rfl, ?_, fun e he => ?_⟩
    · rw [Dev.mem_updArch, Dev.core_countBeat]; rfl
    · rw [Dev.core_updArch, if_neg he, Dev.core_countBeat]; rfl
  · have hrun : ((s.dev.cleared.bump 0x4200 0xC 1).arch c).stat.run ≠ .stopped := by
      rw [Dev.arch_bump]; exact Arch.run_of_live hlive
    obtain ⟨-, hstopped, -, hexc, -, -, hregs, hmem, hothers⟩ := Dev.stop_stoppedWith _ c cSteerSkew 6 0
      (((s.dev.cleared.bump 0x4200 0xC 1).arch c).stat.lastPc) (((s.dev.cleared.bump 0x4200 0xC 1).arch c).stat.gear) 0 0 hrun
    simp only [Dev.arch_bump, Dev.core_bump] at hregs hmem hothers
    simp only [State.closing_arch, State.closing_core, sameCores, Dev.routerStop]
    exact ⟨hstopped, congrArg LastStatus.code hexc, congrArg LastStatus.unit hexc, Dev.stop_programError _ _ _ _ _ _ _ _ _ hrun,
      hregs, hmem, hothers⟩

end Sys2Proof.Machine
end

section
/-! O37: moves of contents, parks that come too late, and fences (R245, R404 to R407, R419). -/

namespace Sys2Proof.Machine

theorem exec_contentsMove (lostBlocks : List (CoreId × Bool × Nat)) (lostShadows : List Nat) (s : State) :
    exec (.contentsMove lostBlocks lostShadows) s = s.onDev fun d => d.contentsMove lostBlocks lostShadows := rfl

theorem exec_moveComplete (s : State) : exec .moveComplete s = s.onDev fun d => d.moveComplete := rfl

theorem exec_parkWaitTimeout (n num : Nat) (s : State) :
    exec (.parkWaitTimeout n num) s = s.onDev fun d => d.parkTimeout n num := rfl

theorem exec_fenceCmd (value : Nat) (s : State) :
    exec (.fenceCmd value) s = s.onDev fun d => d.fenceCmd (bits value 7 0) (bits value 15 8) := rfl

/-- What no step of a fold changes, the fold does not change. -/
theorem foldl_unchanged {α β σ : Type} (g : σ → β) {f : σ → α → σ} (h : ∀ d x, g (f d x) = g d) (l : List α) (d : σ) :
    g (l.foldl f d) = g d := by
  induction l generalizing d with
  | nil => rfl
  | cons x l ih => exact (ih _).trans (h d x)

/-! ### Demotion of near-homed pages moves bytes (R320, R405) -/

/-- From device d to device e the moves stay, and every core keeps its registers, units and queues. -/
def keepsArchs (d e : Dev) : Prop := e.moves = d.moves ∧ ∀ o, e.arch o = d.arch o

section
variable {d e : Dev}

theorem keepsArchs.rfl : keepsArchs d d := ⟨.refl _, fun _ => .refl _⟩

theorem keepsArchs.foldl {α : Type} {f : Dev → α → Dev} (h : keepsArchs d e) (hf : ∀ d x, keepsArchs d (f d x)) (l : List α) :
    keepsArchs d (l.foldl f e) :=
  ⟨(foldl_unchanged Dev.moves (fun d x => (hf d x).1) l e).trans h.1,
    fun o => (foldl_unchanged (Dev.arch · o) (fun d x => (hf d x).2 o) l e).trans (h.2 o)⟩

theorem keepsArchs.bump (h : keepsArchs d e) (i s n : Nat) : keepsArchs d (e.bump i s n) :=
  ⟨by rw [Dev.bump_frame]; exact h.1, fun o => (Dev.arch_bump ..).trans (h.2 o)⟩

theorem keepsArchs.updCtx (h : keepsArchs d e) (n : Nat) (f : Ctx → Ctx) : keepsArchs d (e.updCtx n f) := h

theorem keepsArchs.defect (h : keepsArchs d e) (kind : Nat) (code : Code) (place logical detail : Nat) :
    keepsArchs d (e.defect kind code place logical detail) := h

theorem keepsArchs.withKeep (h : keepsArchs d e) (k : Keep) : keepsArchs d { e with keep := k } := h

theorem keepsArchs.updMem (h : keepsArchs d e) (c : CoreId) (f : LocalMem → LocalMem) :
    keepsArchs d (e.updCore c fun k => { k with mem := f k.mem }) := by
  refine ⟨h.1, fun o => Eq.trans ?_ (h.2 o)⟩
  unfold Dev.arch
  rw [Dev.core_updCore]
  split
  · next hkey => rw [Dev.core_of_key e c o, if_pos hkey]
  · rfl

theorem keepsArchs.writePlace (h : keepsArchs d e) (p : PagePlace) (bs : List Byte) (n : Nat) : keepsArchs d (e.writePlace p bs n) := by
  cases p with
  | tier2 pa =>
    unfold Dev.writePlace Dev.writeT2
    refine keepsArchs.bump ?_ ..
    exact h
  | near c off => exact h.updMem c fun m => (m.write true off bs).getD m
  | peer dev addr => exact h
  | host window offset => exact h

theorem keepsArchs.placeBad (h : keepsArchs d e) (l : Leaf) (bad : List Nat) : keepsArchs d (e.placeBad l bad) := by
  refine h.foldl (fun d i => ?_) bad
  split
  · exact .rfl
  · exact keepsArchs.rfl.updMem _ fun m => { m with badNear := m.badNear ++ _ }
  · exact .rfl

theorem keepsArchs.giveFrames (h : keepsArchs d e) (n f k : Nat) : keepsArchs d (e.giveFrames n f k) :=
  keepsArchs.updCtx (h.foldl (f := Dev.freeFrame) (fun _ _ => keepsArchs.rfl) _) ..

theorem keepsArchs.movePart (h : keepsArchs d e) (n page home target : Nat) (remote : List Byte) :
    keepsArchs d (e.movePart n page home target remote) := by
  unfold Dev.movePart
  split
  · exact h
  · dsimp only
    split
    · exact ((h.writePlace ..).placeBad ..).updCtx ..
    · refine keepsArchs.giveFrames ?_ ..
      split
      · exact ((h.writePlace ..).placeBad ..).updCtx ..
      · refine keepsArchs.defect (keepsArchs.bump (keepsArchs.withKeep ?_ _) ..) ..
        exact ((h.writePlace ..).placeBad ..).updCtx ..

theorem keepsArchs.demote (h : keepsArchs d e) (n : Nat) (f : CoreId → Bool) : keepsArchs d (e.demote n f) := by
  refine h.foldl (fun d p => ?_) _
  split
  · exact .rfl
  · next g _ =>
    have hfree : keepsArchs d ((d.invalidate n p).takeFrames n g 1) := by
      unfold Dev.takeFrames Dev.invalidate
      refine keepsArchs.updCtx ?_ ..
      exact keepsArchs.rfl.bump ..
    exact (hfree.movePart ..).bump ..

end

/-! ### The copies of a move (R405 to R407) -/

/-- The move that is ready starts its copies once the near-homed pages of its cells have been demoted. -/
theorem Dev.contentsMove_starts {d : Dev} {m : Move} (hdrain : d.epochDrain = 0) (hready : (d.moves.find? fun m => d.moveReady m) = some m) :
    (d.contentsMove [] []).moves = d.moves.map (fun k => if k = m then { k with copying := true } else k)
      ∧ ∀ o, (d.contentsMove [] []).arch o = d.arch o := by
  unfold Dev.contentsMove
  simp only [hdrain, if_true, hready, List.foldl_nil]
  exact ⟨congrArg _ (keepsArchs.rfl.foldl (fun _ _ => keepsArchs.rfl.demote ..) _).1,
    (keepsArchs.rfl.foldl (fun _ _ => keepsArchs.rfl.demote ..) _).2⟩

@[simp] theorem State.closing_moves (s : State) (d : Dev) : (s.closing d).dev.moves = d.moves := by
  obtain ⟨_, _, _, _, _, h⟩ := s.closing_dev d; rw [h]

theorem Dev.groom_bump (d : Dev) (i s n : Nat) : (d.bump i s n).groom = d.groom := by rw [Dev.bump_frame]

theorem Dev.groom_reload (d : Dev) (c : CoreId) : (d.reload c).groom = d.groom := by
  unfold Dev.reload
  split
  · rfl
  · exact Dev.groom_bump ..

theorem Dev.groom_testPower (d : Dev) (n : Nat) (on : Bool) : (d.testPower n on).groom = d.groom := by
  refine foldl_unchanged Dev.groom (fun d k => ?_) _ d
  rfl

theorem Dev.groom_followPower (d old : Dev) (moved : List (Nat × Nat)) : (d.followPower old moved).groom = d.groom := by
  refine (foldl_unchanged Dev.groom (fun d c => ?_) ..).trans (foldl_unchanged Dev.groom (fun d c => Dev.groom_testPower ..) ..)
  refine foldl_unchanged Dev.groom (fun d p => ?_) ..
  rfl

theorem Dev.groom_flipTo (d : Dev) (maps : Vector Nat 32) : (d.flipTo maps).groom = d.groom := by unfold Dev.flipTo; rfl

/-- New row maps leave the groomer's state. -/
theorem Dev.groom_setRows (d : Dev) (rows : List (Nat × Nat)) (stay : Nat × Nat → Bool) : (d.setRows rows stay).groom = d.groom := by
  unfold Dev.setRows Dev.moved
  dsimp only
  rw [foldl_unchanged Dev.groom Dev.groom_reload, Dev.groom_followPower, Dev.groom_flipTo]
  refine foldl_unchanged Dev.groom (fun d p => ?_) rows d
  refine foldl_unchanged Dev.groom (fun d q => ?_) _ d
  rfl

/-- Counting a region's pause leaves the test under way. -/
theorem Dev.test_addPause (d : Dev) (q : Nat × Nat) : (d.addPause q).groom.test = d.groom.test := by
  unfold Dev.addPause
  split
  · rfl
  · rfl

/-- A finished move for a fence changes its rows' maps, and its regions go on. -/
theorem Dev.moveComplete_fence {d : Dev} {m : Move} (hdrain : d.epochDrain = 0) (hcopy : (d.moves.find? fun m => m.copying) = some m)
    (hpurpose : m.purpose = 0) :
    d.moveComplete = ((d.moveRegions m).foldl (fun (d : Dev) q => d.parkOrBegin q.1 q.2)
      ({ d with moves := d.moves.erase m }.setRows m.rows fun _ => false)).cellsFreed := by
  unfold Dev.moveComplete
  simp only [hdrain, if_true, hcopy, hpurpose]
  congr 2
  split <;> rfl

/-- A finished move of the groomer counts its regions' pauses besides; without a test under way that is all. -/
theorem Dev.moveComplete_groomer {d : Dev} {m : Move} (hdrain : d.epochDrain = 0) (hcopy : (d.moves.find? fun m => m.copying) = some m)
    (hpurpose : m.purpose ≠ 0) (htest : d.groom.test = none) :
    d.moveComplete = ((d.moveRegions m).foldl (fun (d : Dev) q => d.parkOrBegin q.1 q.2)
      ((d.moveRegions m).foldl Dev.addPause ({ d with moves := d.moves.erase m }.setRows m.rows fun _ => false))).cellsFreed := by
  have hnone : ((d.moveRegions m).foldl Dev.addPause ({ d with moves := d.moves.erase m }.setRows m.rows fun _ => false)).groom.test = none := by
    rw [foldl_unchanged (fun d : Dev => d.groom.test) Dev.test_addPause, Dev.groom_setRows]
    exact htest
  unfold Dev.moveComplete
  simp only [hdrain, if_true, hcopy, if_neg hpurpose, hnone]

/-! ### A region that does not park in time (R405) -/

/-- A move for a fence stops the context in mid-step. -/
theorem Dev.parkTimeout_fence {d : Dev} {n num : Nat} {r : RegionRt} {m : Move} (hrt : (d.ctx n).rt? num = some r) (hparked : r.parked = false)
    (hmove : (d.moves.find? fun m => !m.copying && (d.moveRegions m).contains (n, num)) = some m)
    (hpurpose : m.purpose = 0) (hmid : (d.ctx n).midStep = false) : d.parkTimeout n num = d.midStop n := by
  unfold Dev.parkTimeout
  simp only [hrt, Option.all_some, hparked, Bool.false_eq_true, if_false, hmove, hpurpose, hmid, if_true]

/-- The groomer gives up its move and puts off the test of a cell of its sweep. -/
theorem Dev.parkTimeout_groomer {d : Dev} {n num : Nat} {r : RegionRt} {m : Move} {t : GroomTest} (hrt : (d.ctx n).rt? num = some r)
    (hparked : r.parked = false)
    (hmove : (d.moves.find? fun m => !m.copying && (d.moveRegions m).contains (n, num)) = some m)
    (hpurpose : m.purpose = 1) (htest : d.groom.test = some t) (hdemand : t.demand = false) :
    d.parkTimeout n num = (d.moveRegions m).foldl (fun (d : Dev) q => d.parkOrBegin q.1 q.2)
      { ({ d with moves := d.moves.erase m }.bump 0x6100 0xD 1) with
        groom := { d.groom with test := none, deferred := d.groom.deferred ++ [t.cell] } } := by
  unfold Dev.parkTimeout
  simp only [hrt, Option.all_some, hparked, Bool.false_eq_true, if_false, hmove, hpurpose, htest, hdemand, if_true, Nat.one_ne_zero]

/-! ### fence.cmd (R419) -/

/-- The fields of a value written to fence.cmd. -/
theorem fenceCmd_fields {px py : Nat} (hx : px < 32) (hy : py < 32) :
    bits (px + 256 * py) 7 0 = px ∧ bits (px + 256 * py) 15 8 = py := by
  simp only [bits, Nat.shiftRight_eq_div_pow]
  omega

/-- A write for a cell that is neither fenced nor retired fences at once, or waits for the regions that are resident on the row. -/
theorem Dev.fenceCmd_takes {d : Dev} {px py : Nat} (hx : px < 32) (hy : py < 32) (hfenced : d.isFenced px py = false)
    (hretired : d.keep.retired ≠ some py) (l : List (Nat × Nat))
    (hl : ((d.regionsOnRow py).filter fun q => (d.ctx q.1).state.holds && !(d.ctx q.1).entering) = l) :
    d.fenceCmd px py = if l = [] then d.fenceCell px py false else { d with fenceWaits := d.fenceWaits ++ [⟨px, py, l⟩] } := by
  subst hl
  have hok : ¬(32 ≤ px ∨ 32 ≤ py ∨ d.isFenced px py = true ∨ d.keep.retired = some py) := by
    simp [hx, hy, hfenced, hretired]
  unfold Dev.fenceCmd
  rw [if_neg hok]
  simp only [List.isEmpty_iff]

/-- Settles O37: each event by the equation of its function in the case at hand. -/
theorem moves : Obligations.Moves := by
  intro s m hs
  refine ⟨fun hdrain hready => ?_, fun hdrain hcopy => ⟨fun hpurpose => ?_, fun hpurpose htest => ?_⟩,
    fun n num r hrt hparked hmove => ⟨fun hpurpose hmid => ?_, fun t hpurpose htest hdemand => ?_⟩,
    fun px py hx hy hfenced hretired => ?_⟩
  · obtain ⟨hmoves, harch⟩ := Dev.contentsMove_starts (d := s.dev.cleared) hdrain hready
    exact ⟨_, (exec_contentsMove [] [] s).trans (onDev_gives hs), by rw [State.closing_moves, hmoves]; rfl,
      fun e => (State.closing_arch ..).trans (harch e)⟩
  · exact gives_of_onDev hs (exec_moveComplete s) (Dev.moveComplete_fence (d := s.dev.cleared) hdrain hcopy hpurpose)
  · exact gives_of_onDev hs (exec_moveComplete s) (Dev.moveComplete_groomer (d := s.dev.cleared) hdrain hcopy hpurpose htest)
  · exact gives_of_onDev hs (exec_parkWaitTimeout n num s) (Dev.parkTimeout_fence (d := s.dev.cleared) hrt hparked hmove hpurpose hmid)
  · exact gives_of_onDev hs (exec_parkWaitTimeout n num s)
      (Dev.parkTimeout_groomer (d := s.dev.cleared) hrt hparked hmove hpurpose htest hdemand)
  · obtain ⟨hpx, hpy⟩ := fenceCmd_fields hx hy
    have htakes := Dev.fenceCmd_takes (d := s.dev.cleared) hx hy hfenced hretired
    refine ⟨fun hnone => gives_of_onDev hs (exec_fenceCmd _ s) ?_, fun q rest hsome => gives_of_onDev hs (exec_fenceCmd _ s) ?_⟩
    · rw [hpx, hpy, htakes [] hnone, if_pos rfl]
    · rw [hpx, hpy, htakes (q :: rest) hsome, if_neg (List.cons_ne_nil q rest)]
      rfl

end Sys2Proof.Machine
end

section
/-! The packet routers: they only add outputs, and forward a packet that is alone at once (R238, R239, R241). -/

namespace Sys2Proof.Machine

/-! ### Outputs are only added to, also at the close of a command -/

/-- An output that no pause of the port holds back (R467). -/
def unpaused (o : Out) : Prop := ∀ d : Dev, d.pfcOf o = none

theorem Dev.out_statusUpdate (d : Dev) (n : Nat) : d.out ⊆ (d.statusUpdate n).out := by
  unfold Dev.statusUpdate
  dsimp only
  split
  · split
    · exact List.subset_append_left ..
    · exact List.Subset.refl _
  · exact List.Subset.refl _

theorem Dev.out_statusNoted (d old : Dev) : d.out ⊆ (d.statusNoted old).out := by
  have hfold : ∀ (l : List Nat) (e : Dev), e.out ⊆ (l.foldl Dev.statusUpdate e).out := by
    intro l
    induction l with
    | nil => exact fun e => List.Subset.refl _
    | cons n l ih => exact fun e => List.Subset.trans (e.out_statusUpdate n) (ih _)
  intro o ho
  unfold Dev.statusNoted
  refine hfold _ _ ?_
  exact ho

/-- The close of a command lets its outputs out. -/
theorem State.mem_closing_out {d : Dev} {o : Out} (s : State) (ho : o ∈ d.out) (hfree : unpaused o) : o ∈ (s.closing d).dev.out := by
  have hnoted : o ∈ ((d.statusNoted s.dev).noted s.dev).out := List.mem_append_left _ (d.out_statusNoted s.dev ho)
  refine List.mem_filter.2 ⟨hnoted, ?_⟩
  simp [Dev.held, hfree _]

/-! ### What the routers leave: outputs are only added, and malformed packets are counted nowhere (R239) -/

/-- From device d to device e outputs are only added, and the count of malformed packets stays. -/
def forwards (d e : Dev) : Prop := d.out ⊆ e.out ∧ e.objD 0x4200 0xA 0 = d.objD 0x4200 0xA 0

theorem forwards.rfl {d : Dev} : forwards d d := ⟨List.Subset.refl _, .refl _⟩

theorem forwards.trans {a b c : Dev} (h : forwards a b) (g : forwards b c) : forwards a c :=
  ⟨List.Subset.trans h.1 g.1, g.2.trans h.2⟩

theorem forwards.foldl {α : Type} {f : Dev → α → Dev} (h : ∀ d x, forwards d (f d x)) (l : List α) (d : Dev) :
    forwards d (l.foldl f d) := by
  induction l generalizing d with
  | nil => exact .rfl
  | cons x l ih => exact (h d x).trans (ih _)

theorem Dev.emit_forwards (d : Dev) (o : Out) : forwards d (d.emit o) := ⟨List.subset_append_left .., .refl _⟩

theorem Dev.linkSend_forwards (d : Dev) (n : Nat) (f : LinkFrame) : forwards d (d.linkSend n f) := by
  unfold Dev.linkSend
  dsimp only
  split
  · exact ⟨List.subset_append_left .., .refl _⟩
  · exact .rfl

theorem Dev.bump_forwards (d : Dev) (i u n : Nat) (h : okey 0x4200 0xA ≠ okey i u) : forwards d (d.bump i u n) :=
  ⟨by rw [Dev.bump_frame]; exact List.Subset.refl _, Dev.objD_bump_other _ _ _ _ _ _ _ h⟩

theorem Dev.sendPacket_forwards (d : Dev) (n : Nat) (p : Packet) (inDim inSub : Nat) : forwards d (d.sendPacket n p inDim inSub) :=
  Dev.linkSend_forwards ..

theorem Dev.discards_forwards (d : Dev) (i u n : Nat) (h : PktHead) (hkey : okey 0x4200 0xA ≠ okey i u) :
    forwards d ((d.bump i u n).emit (.discardPacket h)) :=
  (d.bump_forwards i u n hkey).trans (Dev.emit_forwards ..)

theorem Dev.stationTakes_forwards (d : Dev) (h : PktHead) : forwards d (d.stationTakes h) := by
  unfold Dev.stationTakes
  split
  · exact .rfl
  · next p _ =>
    have htaken : forwards d { d with mesh := { d.mesh with transit := d.mesh.transit.erase p } } := .rfl
    refine htaken.trans ?_
    dsimp only
    generalize { d with mesh := { d.mesh with transit := d.mesh.transit.erase p } } = e
    split
    · split
      · exact e.sendPacket_forwards ..
      · exact e.discards_forwards 0x2A01 5 1 h (by decide)
    · split
      · exact e.discards_forwards 0x4200 9 1 h (by decide)
      · exact .rfl

theorem Dev.routersTidy_forwards (d : Dev) : forwards d d.routersTidy := ⟨List.Subset.refl _, .refl _⟩

/-- A packet is granted its outputs at a router, which forwards it. -/
def Dev.granted (d : Dev) (c : CoreId) (x : PktAt) : Dev :=
  (d.updPktRouter c fun r => r.grant x).emit (.forward c (d.routerAt x.head.epoch c) x.outs x.head)

theorem Dev.granted_forwards (d : Dev) (c : CoreId) (x : PktAt) : forwards d (d.granted c x) := ⟨List.subset_append_left .., .refl _⟩

theorem Dev.routerGrants_none {d : Dev} {c : CoreId} (h : (d.pktRouter c).pick = none) (fuel : Nat) : Dev.routerGrants c fuel d = d := by
  cases fuel with
  | zero => rfl
  | succ fuel => rw [Dev.routerGrants, h]

/-- After a grant, and a station's taking of the packet, a router goes on. -/
theorem Dev.routerGrants_some {d : Dev} {c : CoreId} {x : PktAt} (h : (d.pktRouter c).pick = some x) (fuel : Nat) :
    ∃ e, forwards (d.granted c x) e ∧ Dev.routerGrants c (fuel + 1) d = Dev.routerGrants c fuel e := by
  rw [Dev.routerGrants, h]
  refine ⟨_, forwards.trans ?_ (Dev.routersTidy_forwards _), .refl _⟩
  split
  · exact Dev.stationTakes_forwards ..
  · exact .rfl

theorem Dev.routerGrants_forwards (c : CoreId) (fuel : Nat) (d : Dev) : forwards d (Dev.routerGrants c fuel d) := by
  induction fuel generalizing d with
  | zero => exact .rfl
  | succ fuel ih =>
    cases hpick : (d.pktRouter c).pick with
    | none => rw [Dev.routerGrants_none hpick]; exact .rfl
    | some x =>
      obtain ⟨e, he, hgoes⟩ := Dev.routerGrants_some hpick fuel
      rw [hgoes]
      exact ((d.granted_forwards c x).trans he).trans (ih e)

theorem Dev.routersGo_forwards (d : Dev) : forwards d d.routersGo :=
  d.routersTidy_forwards.trans (forwards.foldl (fun e k => e.routerGrants_forwards (coreOfKey k) 27) _ _)

@[simp] theorem Dev.core_routersGo (d : Dev) (e : CoreId) : d.routersGo.core e = d.core e := by
  unfold Dev.core
  rw [d.routersGo_rest.1]

/-! ### Maps and keys -/

theorem mem_nmSet {α : Type} {m : NMap α} {i : Nat} {a : α} {p : Nat × α} (h : p ∈ nmSet m i a) : p = (i, a) ∨ p ∈ m := by
  induction m with
  | nil => exact .inl (List.mem_singleton.1 h)
  | cons q m ih =>
    obtain ⟨k, v⟩ := q
    rw [nmSet] at h
    split at h
    · exact List.mem_cons.1 h
    · split at h
      · exact (List.mem_cons.1 h).imp_right (List.mem_cons_of_mem _)
      · rcases List.mem_cons.1 h with rfl | h
        · exact .inr List.mem_cons_self
        · exact (ih h).imp_right (List.mem_cons_of_mem _)

theorem mem_of_nmGet {α : Type} {m : NMap α} {i : Nat} {v : α} (h : nmGet m i = some v) : (i, v) ∈ m := by
  induction m with
  | nil => exact nomatch h
  | cons q m ih =>
    obtain ⟨k, w⟩ := q
    rw [nmGet] at h
    split at h
    · next hk => rw [← hk, Option.some.inj h]; exact List.mem_cons_self
    · exact List.mem_cons_of_mem _ (ih h)

/-- An entry that a filter keeps is found as before. -/
theorem nmGet_filter_kept {α : Type} {m : NMap α} {q : Nat × α → Bool} {i : Nat} {v : α} (h : nmGet m i = some v) (hq : q (i, v) = true) :
    nmGet (m.filter q) i = some v := by
  induction m with
  | nil => exact nomatch h
  | cons p m ih =>
    obtain ⟨k, w⟩ := p
    rw [nmGet] at h
    split at h
    · next hk =>
      obtain rfl := hk
      obtain rfl := Option.some.inj h
      rw [List.filter_cons_of_pos hq, nmGet, if_pos rfl]
    · next hk =>
      rw [List.filter_cons]
      split
      · rw [nmGet, if_neg hk]; exact ih h
      · exact ih h

theorem coreOfKey_ckey {c : CoreId} (hc : c.x < 64) : coreOfKey (ckey c) = c := by
  obtain ⟨cx, cy⟩ := c
  simp only [coreOfKey, ckey, CoreId.mk.injEq] at hc ⊢
  omega

theorem ckey_coreOfKey (k : Nat) : ckey (coreOfKey k) = k := by
  simp only [coreOfKey, ckey]
  omega

/-! ### A network that holds one packet (R239) -/

theorem Dev.inFlight_isSome {d : Dev} {h : PktHead} : (d.inFlight h).isSome = true ↔ ∃ q ∈ d.mesh.transit, q.head = h := by
  simp [Dev.inFlight]

/-- A packet router that holds one packet, with the buffers in use behind its outputs. -/
def oneWaits (x : PktAt) (used : NMap Nat) : PktRouter := { clearPktRouter with held := [x], used := used }

/-- Flit buffers in use downstream of the outputs of the router with key k, where any are (R239). -/
def Dev.usedBuffers (d : Dev) (k : Nat) : NMap Nat := ((List.range 4).flatMap fun o => (List.range 3).map fun vc =>
  (o * 4 + vc, d.buffersUsed (coreOfKey k) o vc)).filter fun e => e.2 != 0

/-- The one packet held in the network waits at the router of core c, and is in flight. -/
def Dev.holdsOne (d : Dev) (c : CoreId) (x : PktAt) : Prop :=
  nmGet d.mesh.routers (ckey c) = some (oneWaits x []) ∧ (∀ p ∈ d.mesh.routers, p = (ckey c, oneWaits x []) ∨ p.2 = clearPktRouter)
    ∧ (d.inFlight x.head).isSome = true ∧ x.granted = false

section
variable {d : Dev} {c : CoreId} {x : PktAt}

/-- Tidying then only finds the buffers in use. -/
theorem Dev.holdsOne.tidy (h : d.holdsOne c x) : d.routersTidy = { d with mesh := { d.mesh with
    routers := (d.mesh.routers.map fun p => (p.1, { p.2 with used := d.usedBuffers p.1 })).filter fun p => p.2 != clearPktRouter } } := by
  obtain ⟨-, hall, hfly, hwaits⟩ := h
  have hlive : (d.mesh.transit.any fun p => p.head = x.head) = true := by
    simpa using Dev.inFlight_isSome.1 hfly
  have hsame : (d.mesh.routers.map fun (p : Nat × PktRouter) => (p.1, { { p.2 with
      held := p.2.held.filter fun x => d.mesh.transit.any fun p => p.head = x.head } with
      owner := PktRouter.owners { p.2 with held := p.2.held.filter fun x => d.mesh.transit.any fun p => p.head = x.head } }))
      = d.mesh.routers := by
    refine (List.map_congr_left fun p hp => ?_).trans (List.map_id' _)
    rcases hall p hp with rfl | hclear
    · simp [oneWaits, hlive, PktRouter.owners, hwaits, clearPktRouter]
    · obtain ⟨k, r⟩ := p
      obtain rfl : r = clearPktRouter := hclear
      rfl
  unfold Dev.routersTidy Dev.usedBuffers
  dsimp only at hsame ⊢
  rw [hsame]

/-- Every other router is empty. -/
theorem Dev.holdsOne.held_other (h : d.holdsOne c x) {e : CoreId} (he : ckey e ≠ ckey c) : (d.pktRouter e).held = [] := by
  obtain ⟨-, hall, -, -⟩ := h
  unfold Dev.pktRouter
  cases hr : nmGet d.mesh.routers (ckey e) with
  | none => rfl
  | some r =>
    rcases hall _ (mem_of_nmGet hr) with hone | hclear
    · exact absurd (congrArg Prod.fst hone) he
    · exact congrArg PktRouter.held hclear

theorem Dev.holdsOne.router (h : d.holdsOne c x) : d.pktRouter c = oneWaits x [] := by
  unfold Dev.pktRouter
  rw [h.1]; rfl

theorem Dev.holdsOne.nmGet_tidy (h : d.holdsOne c x) :
    nmGet d.routersTidy.mesh.routers (ckey c) = some (oneWaits x (d.usedBuffers (ckey c))) := by
  rw [h.tidy]
  refine nmGet_filter_kept (nmGet_map_val d.mesh.routers (fun p => (p.1, { p.2 with used := d.usedBuffers p.1 })) (fun p => rfl) h.1) ?_
  simp [oneWaits, clearPktRouter]

theorem Dev.holdsOne.router_tidy (h : d.holdsOne c x) :
    d.routersTidy.pktRouter c = oneWaits x (d.usedBuffers (ckey c)) := by
  unfold Dev.pktRouter
  rw [h.nmGet_tidy]; rfl

theorem Dev.holdsOne.other_tidy (h : d.holdsOne c x) {e : CoreId} (he : ckey e ≠ ckey c) : (d.routersTidy.pktRouter e).held = [] := by
  unfold Dev.pktRouter
  cases hr : nmGet d.routersTidy.mesh.routers (ckey e) with
  | none => rfl
  | some r =>
    have hmem := mem_of_nmGet hr
    rw [h.tidy] at hmem
    obtain ⟨p, hp, heq⟩ := List.mem_map.1 (List.mem_of_mem_filter hmem)
    obtain ⟨hkey, hrouter⟩ := Prod.mk.inj heq
    rcases h.2.1 p hp with hone | hclear
    · exact absurd (hkey.symm.trans (congrArg Prod.fst hone)) he
    · rw [← hrouter, hclear]; rfl

/-- The buffers behind the output that a lone packet waits for are free, when that output leads to another core. -/
theorem Dev.holdsOne.buffers_free (h : d.holdsOne c x) {o vc : Nat} (hvc : x.head.vc = vc → ckey (acrossPort c o).1 ≠ ckey c) :
    d.buffersUsed c o vc = 0 := by
  have hthere : ((d.pktRouter (acrossPort c o).1).held.filter fun y => y.port = (acrossPort c o).2 && y.head.vc = vc) = [] := by
    by_cases hkey : ckey (acrossPort c o).1 = ckey c
    · have hsame : d.pktRouter (acrossPort c o).1 = oneWaits x [] := by
        rw [← h.router]; unfold Dev.pktRouter; rw [hkey]
      have hne : x.head.vc ≠ vc := fun heq => hvc heq hkey
      simp [hsame, oneWaits, hne]
    · rw [h.held_other hkey]; rfl
  have hway : ((d.pktRouter c).held.filter fun y => y.granted && y.outs.contains o && y.head.vc = vc) = [] := by
    simp [h.router, oneWaits, h.2.2.2]
  unfold Dev.buffersUsed
  simp only [hthere, hway]
  rfl

/-- No buffer is in use behind that output. -/
theorem Dev.holdsOne.usedBuffers_none (h : d.holdsOne c x) (hc : c.x < 64) {o : Nat} (ho : o < 4 → ckey (acrossPort c o).1 ≠ ckey c) :
    nmGet (d.usedBuffers (ckey c)) (o * 4 + x.head.vc) = none := by
  by_contra hsome
  obtain ⟨n, hn⟩ := Option.ne_none_iff_exists'.1 hsome
  obtain ⟨hmem, hpos⟩ := List.mem_filter.1 (mem_of_nmGet hn)
  simp only [List.mem_flatMap, List.mem_map, List.mem_range, Prod.mk.injEq, coreOfKey_ckey hc] at hmem
  obtain ⟨o', ho', vc', hvc', hkey, rfl⟩ := hmem
  have hfree := h.buffers_free (o := o') (vc := vc') fun hvc => by
    obtain rfl : o' = o := by omega
    exact ho ho'
  simp [hfree] at hpos

/-- A packet that waits alone for an output to another core, or for its own, is granted it. -/
theorem Dev.holdsOne.pick (h : d.holdsOne c x) (hc : c.x < 64) (hout : ∀ o ∈ x.outs, o < 4 → ckey (acrossPort c o).1 ≠ ckey c) :
    (d.routersTidy.pktRouter c).pick = some x := by
  have hfree : (x.outs.all fun o => (oneWaits x (d.usedBuffers (ckey c))).free o x.head.vc) = true := by
    refine List.all_eq_true.2 fun o ho => ?_
    simp [PktRouter.free, oneWaits, clearPktRouter, nmGet, h.usedBuffers_none hc (hout o ho)]
  have hfirst : ((oneWaits x (d.usedBuffers (ckey c))).held.find? fun y => y.port = x.port && y.head.vc = x.head.vc) = some x := by
    simp [oneWaits]
  have hready : (oneWaits x (d.usedBuffers (ckey c))).ready = [x] := by
    refine List.filter_eq_self.2 fun y hy => ?_
    obtain rfl := List.mem_singleton.1 hy
    simp only [h.2.2.2, hfree, hfirst, Bool.not_false, decide_true, Bool.and_true]
  rw [h.router_tidy, PktRouter.pick, hready]
  rfl

end

/-! ### The way of a packet that is alone (R239) -/

/-- The routers that hold nothing are passed over, and the one that can grant its packet forwards it. -/
theorem Dev.foldGrants_forwards {d : Dev} {c : CoreId} {x : PktAt} (hc : c.x < 64) (hpick : (d.pktRouter c).pick = some x)
    (l : List Nat) (hmem : ckey c ∈ l) (hidle : ∀ k ∈ l, k ≠ ckey c → (d.pktRouter (coreOfKey k)).held = []) :
    Out.forward c (d.routerAt x.head.epoch c) x.outs x.head ∈ (l.foldl (fun d k => Dev.routerGrants (coreOfKey k) 27 d) d).out := by
  have hrest : ∀ (l : List Nat) (e : Dev), forwards e (l.foldl (fun d k => Dev.routerGrants (coreOfKey k) 27 d) e) :=
    forwards.foldl fun e k => e.routerGrants_forwards (coreOfKey k) 27
  induction l with
  | nil => exact nomatch hmem
  | cons k l ih =>
    rw [List.foldl_cons]
    by_cases hk : k = ckey c
    · obtain ⟨e, he, hgoes⟩ := Dev.routerGrants_some hpick 26
      rw [hk, coreOfKey_ckey hc, hgoes]
      exact ((he.trans (e.routerGrants_forwards c 26)).trans (hrest l _)).1 (List.mem_append_right _ (List.mem_singleton_self _))
    · have hnone : (d.pktRouter (coreOfKey k)).pick = none := by
        simp [PktRouter.pick, PktRouter.ready, hidle k List.mem_cons_self hk]
      rw [Dev.routerGrants_none hnone]
      exact ih (List.mem_of_ne_of_mem (Ne.symm hk) hmem) fun j hj => hidle j (List.mem_cons_of_mem _ hj)

/-- The routers forward the one packet that waits, by an output to another core or its own. -/
theorem Dev.holdsOne.forwarded {d : Dev} {c : CoreId} {x : PktAt} (h : d.holdsOne c x) (hc : c.x < 64)
    (hout : ∀ o ∈ x.outs, o < 4 → ckey (acrossPort c o).1 ≠ ckey c) :
    Out.forward c (d.routerAt x.head.epoch c) x.outs x.head ∈ d.routersGo.out := by
  refine Dev.foldGrants_forwards (d := d.routersTidy) hc (h.pick hc hout) _ (List.mem_map_of_mem (mem_of_nmGet h.nmGet_tidy)) ?_
  exact fun k _ hk => h.other_tidy (by rwa [ckey_coreOfKey])

/-- No router of the network holds a packet or a channel. -/
def Dev.routersIdle (d : Dev) : Prop := ∀ p ∈ d.mesh.routers, p.2 = clearPktRouter

theorem Dev.routersIdle.pktRouter {d : Dev} (h : d.routersIdle) (c : CoreId) : d.pktRouter c = clearPktRouter := by
  unfold Dev.pktRouter
  cases hr : nmGet d.mesh.routers (ckey c) with
  | none => rfl
  | some r => exact h _ (mem_of_nmGet hr)

/-- A packet that left no router leaves the routers idle. -/
theorem Dev.routersIdle.leaves {d : Dev} (h : d.routersIdle) (c : CoreId) (o : Nat) (head : PktHead) : (d.leaves c o head).routersIdle := by
  intro p hp
  rcases mem_nmSet hp with rfl | hp
  · rw [h.pktRouter]; rfl
  · exact h p hp

/-- A packet in flight that enters among idle routers waits alone. -/
theorem Dev.routersIdle.enters {d : Dev} (h : d.routersIdle) (c : CoreId) (port : Nat) {head : PktHead} (outs : List Nat)
    (hfly : (d.inFlight head).isSome = true) :
    (d.updPktRouter c fun r => { r with held := r.held ++ [⟨port, head, outs, false⟩] }).holdsOne c ⟨port, head, outs, false⟩ := by
  unfold Dev.updPktRouter Dev.holdsOne
  rw [h.pktRouter]
  exact ⟨nmGet_nmSet_same .., fun p hp => (mem_nmSet hp).imp_right (h p), hfly, rfl⟩

/-- A packet in flight that enters among idle routers is forwarded at once. -/
theorem Dev.enterRouter_forwards {d : Dev} {c : CoreId} {head : PktHead} {outs : List Nat} (hidle : d.routersIdle)
    (hfly : (d.inFlight head).isSome = true) (hc : c.x < 64) (hout : ∀ o ∈ outs, o < 4 → ckey (acrossPort c o).1 ≠ ckey c) (port : Nat) :
    Out.forward c (d.routerAt head.epoch c) outs head ∈ (d.enterRouter c port head outs).out := by
  unfold Dev.enterRouter
  dsimp only
  split
  · exact ((hidle.leaves _ _ head).enters c port outs hfly).forwarded hc hout
  · exact (hidle.enters c port outs hfly).forwarded hc hout

end Sys2Proof.Machine
end

section
/-! O29: packets are routed by dimension order, and the epoch flips (R237 to R239, R241, R243 to R245, R247). -/

namespace Sys2Proof.Machine

theorem exec_routerPacketArrival (at_ : PktIn) (h : PktHead) (actual : Nat) (ecc : Ecc) (s : State) :
    exec (.routerPacketArrival at_ h actual ecc) s = s.onDev fun d => d.packetArrival at_.core at_.port h actual ecc := rfl

theorem exec_meshFlip (value : Nat) (s : State) : exec (.meshFlip value) s = s.onDev fun d => d.meshFlip value := rfl

/-! ### Malformed packets (R237) -/

theorem firstFail_mem {l : List (Bool × Code)} {code : Code} (h : firstFail l = some code) : code ∈ l.map Prod.snd := by
  induction l with
  | nil => exact nomatch h
  | cons p l ih =>
    obtain ⟨failed, c⟩ := p
    cases failed with
    | true => exact List.mem_cons.2 (.inl (Option.some.inj h).symm)
    | false => exact List.mem_cons_of_mem _ (ih h)

theorem Dev.malformed_code {d : Dev} {h : PktHead} {actual : Nat} {code : Code} (hbad : d.malformed h actual = some code) :
    code = cUnsupportedVersion ∨ code = cReservedNonzero ∨ code = cBadArgument := by
  have hmem := firstFail_mem hbad
  simp only [List.map_cons, List.map_nil, List.mem_cons, List.not_mem_nil, or_false] at hmem
  tauto

/-- An event of such a code counts no packet. -/
theorem Dev.eventDev_forwards (d : Dev) (code : Nat) (unit kind d0 d1 : Nat) (hcode : code < 0x10000) :
    forwards d (d.eventDev code unit kind d0 d1) := by
  have hclass : okey 0x4200 0xA ≠ okey 0x1801 (code / 256 + 1) := by
    unfold okey; omega
  refine (d.bump_forwards 0x1801 (code / 256 + 1) 1 hclass).trans ?_
  unfold Dev.eventDev Dev.record
  show forwards (d.raised code) _
  generalize d.raised code = e
  dsimp only
  have hfull : forwards e (if decide (e.log.recs.length ≥ 8192) then e.bump 0x1800 6 1 else e) := by
    split
    · exact Dev.bump_forwards _ _ _ _ (by decide)
    · exact .rfl
  split
  · exact Dev.bump_forwards _ _ _ _ (by decide)
  · exact ⟨fun o ho => List.mem_append_left _ (hfull.1 ho), hfull.2⟩

/-- A malformed packet is discarded and counted. -/
theorem Dev.packetArrival_malformed {d : Dev} {h : PktHead} {actual : Nat} {code : Code} (hbad : d.malformed h actual = some code)
    (c : CoreId) (port : Nat) (ecc : Ecc) : Out.discardPacket h ∈ (d.packetArrival c port h actual ecc).out
      ∧ (d.packetArrival c port h actual ecc).objD 0x4200 0xA 0 = d.objD 0x4200 0xA 0 + 1
      ∧ ∀ e, (d.packetArrival c port h actual ecc).core e = d.core e := by
  have hcode : code < 0x10000 := by
    rcases d.malformed_code hbad with rfl | rfl | rfl <;> decide
  have hevent := (d.bump 0x4200 0xA 1).eventDev_forwards code 6 1 (pack [(0, h.srcX), (8, h.srcY), (16, h.srcDev)]) 0 hcode
  unfold Dev.packetArrival
  simp only [hbad]
  refine ⟨List.mem_append_right _ (List.mem_singleton_self _), ?_, fun e => ?_⟩
  · exact (Dev.routersGo_forwards _).2.trans (hevent.2.trans (Dev.objD_bump ..))
  · refine (Dev.core_emit ..).trans ((Dev.core_routersGo ..).trans ?_)
    exact (Dev.core_eventDev ..).trans (Dev.core_bump ..)

/-! ### Well-formed packets (R238, R239, R243) -/

/-- The mark that error correction leaves on a packet's head. -/
def markedHead (h : PktHead) (ecc : Ecc) : PktHead := if ecc = .uncorrectable then { h with poison := 2 } else h

/-- What error correction finds in a packet: a corrected error is counted, an uncorrectable one marks the packet where it stands. -/
def Dev.checkPacket (d : Dev) (h : PktHead) : Ecc → Dev
  | .clean => d
  | .corrected => d.bump 0x4200 8 1
  | .uncorrectable => d.remark h { h with poison := 2 }

theorem Dev.remark_self (d : Dev) (h : PktHead) : d.remark h h = d := if_pos rfl

/-- Counting a packet changes no link, so that the ports of packets stay. -/
theorem Dev.linkFor_bump (d : Dev) (n k epoch dev sx sy dx dy : Nat) (hn : n ≠ 1 ∧ n ≠ 6 ∧ n < 256) :
    (d.bump 0x4200 n k).linkFor epoch dev sx sy dx dy = d.linkFor epoch dev sx sy dx dy := by
  have hlink : ∀ m x, (d.bump 0x4200 n k).objD (0x2B00 + m) 1 x = d.objD (0x2B00 + m) 1 x
      ∧ (d.bump 0x4200 n k).objD (0x2B00 + m) 6 x = d.objD (0x2B00 + m) 6 x := fun m x =>
    ⟨Dev.objD_bump_other _ _ _ _ _ _ _ (by unfold okey; omega), Dev.objD_bump_other _ _ _ _ _ _ _ (by unfold okey; omega)⟩
  have hgroup : ∀ states dim dir, (d.bump 0x4200 n k).linkGroup states dim dir = d.linkGroup states dim dir := fun states dim dir => by
    simp only [Dev.linkGroup, Dev.linkState, hlink]
  have hroute : (d.bump 0x4200 n k).routeEntry epoch dev = d.routeEntry epoch dev := by
    rw [Dev.bump_frame]; rfl
  unfold Dev.linkFor Dev.linkAt
  simp only [hgroup, hroute]

theorem Dev.packetPorts_checkPacket (d : Dev) (c : CoreId) (h g : PktHead) (ecc : Ecc) :
    (d.checkPacket h ecc).packetPorts c g = d.packetPorts c g := by
  cases ecc with
  | clean => rfl
  | corrected =>
    have hstation : ∀ n, (d.bump 0x4200 8 1).stationPorts c g.epoch n = d.stationPorts c g.epoch n := fun n => by
      rw [Dev.bump_frame]; rfl
    unfold Dev.packetPorts Dev.checkPacket
    simp only [Dev.linkFor_bump _ 8 1 _ _ _ _ _ _ (by decide), hstation]
  | uncorrectable => exact apply_ite (fun e : Dev => e.packetPorts c g) .. |>.trans (ite_self _)

theorem Dev.routerAt_checkPacket (d : Dev) (c : CoreId) (h : PktHead) (epoch : Nat) (ecc : Ecc) :
    (d.checkPacket h ecc).routerAt epoch c = d.routerAt epoch c := by
  cases ecc with
  | clean => rfl
  | corrected => unfold Dev.checkPacket; rw [Dev.bump_frame]; rfl
  | uncorrectable => exact apply_ite (fun e : Dev => e.routerAt epoch c) .. |>.trans (ite_self _)

/-- A well-formed packet with a way on joins those at its router when it is in flight, and is forwarded at once otherwise. -/
theorem Dev.packetArrival_wellFormed {d : Dev} {c : CoreId} {h : PktHead} {actual p : Nat} {ps : List Nat}
    (hok : d.malformed h actual = none) (hports : d.packetPorts c h = p :: ps) (port : Nat) (ecc : Ecc) :
    d.packetArrival c port h actual ecc = if ((d.checkPacket h ecc).inFlight (markedHead h ecc)).isSome
      then (d.checkPacket h ecc).enterRouter c port (markedHead h ecc) (p :: ps)
      else (d.checkPacket h ecc).emit (.forward c (d.routerAt h.epoch c) (p :: ps) (markedHead h ecc)) := by
  have hcheck : (if ecc = .corrected then d.bump 0x4200 8 1 else d).remark h (markedHead h ecc) = d.checkPacket h ecc := by
    cases ecc with
    | clean => exact Dev.remark_self ..
    | corrected => exact Dev.remark_self ..
    | uncorrectable => rfl
  rw [← d.routerAt_checkPacket c h h.epoch ecc]
  have hways := (d.packetPorts_checkPacket c h h ecc).trans hports
  unfold Dev.packetArrival
  simp only [hok]
  rw [← markedHead, hcheck, hways]

/-- A packet that is marked bears its new head in flight. -/
theorem Dev.inFlight_remark {d : Dev} {h h' : PktHead} (hfly : (d.inFlight h).isSome = true) : ((d.remark h h').inFlight h').isSome = true := by
  unfold Dev.remark
  split
  · next heq => rw [heq]; exact hfly
  · obtain ⟨q, hq, hhead⟩ := Dev.inFlight_isSome.1 hfly
    refine Dev.inFlight_isSome.2 ⟨_, List.mem_map_of_mem hq, ?_⟩
    rw [if_pos hhead]

theorem Dev.inFlight_checkPacket {d : Dev} {h : PktHead} (hfly : (d.inFlight h).isSome = true) (ecc : Ecc) :
    ((d.checkPacket h ecc).inFlight (markedHead h ecc)).isSome = true := by
  cases ecc with
  | clean => exact hfly
  | corrected => unfold Dev.checkPacket; rw [Dev.bump_frame]; exact hfly
  | uncorrectable => exact Dev.inFlight_remark hfly

/-- Marking a packet that is not in flight changes none that is. -/
theorem Dev.transit_remark {d : Dev} {h : PktHead} (h' : PktHead) (hnot : ∀ q ∈ d.mesh.transit, q.head ≠ h) :
    (d.remark h h').mesh.transit = d.mesh.transit := by
  unfold Dev.remark
  split
  · rfl
  · exact (List.map_congr_left fun q hq => if_neg (hnot q hq)).trans (List.map_id' _)

theorem Dev.transit_checkPacket {d : Dev} {h : PktHead} (hnot : ∀ q ∈ d.mesh.transit, q.head ≠ h) (ecc : Ecc) :
    (d.checkPacket h ecc).mesh.transit = d.mesh.transit := by
  cases ecc with
  | clean => rfl
  | corrected => unfold Dev.checkPacket; rw [Dev.bump_frame]
  | uncorrectable => exact Dev.transit_remark _ hnot

/-- A well-formed packet that is not tracked in flight is forwarded at once. -/
theorem Dev.packetArrival_untracked {d : Dev} {c : CoreId} {h : PktHead} {actual p : Nat} {ps : List Nat}
    (hok : d.malformed h actual = none) (hports : d.packetPorts c h = p :: ps)
    (hnot : ∀ q ∈ d.mesh.transit, q.head ≠ h ∧ q.head ≠ { h with poison := 2 }) (port : Nat) (ecc : Ecc) :
    d.packetArrival c port h actual ecc
      = (d.checkPacket h ecc).emit (.forward c (d.routerAt h.epoch c) (p :: ps) (markedHead h ecc)) := by
  rw [Dev.packetArrival_wellFormed hok hports, if_neg]
  rw [Dev.inFlight_isSome, Dev.transit_checkPacket fun q hq => (hnot q hq).1]
  rintro ⟨q, hq, hhead⟩
  cases ecc with
  | uncorrectable => exact (hnot q hq).2 hhead
  | _ => exact (hnot q hq).1 hhead

/-- One in flight joins those at its router. -/
theorem Dev.packetArrival_tracked {d : Dev} {c : CoreId} {h : PktHead} {actual p : Nat} {ps : List Nat}
    (hok : d.malformed h actual = none) (hports : d.packetPorts c h = p :: ps) (hfly : (d.inFlight h).isSome = true)
    (port : Nat) (ecc : Ecc) :
    d.packetArrival c port h actual ecc = (d.checkPacket h ecc).enterRouter c port (markedHead h ecc) (p :: ps) := by
  rw [Dev.packetArrival_wellFormed hok hports, if_pos (Dev.inFlight_checkPacket hfly ecc)]

theorem Dev.core_checkPacket (d : Dev) (h : PktHead) (ecc : Ecc) (e : CoreId) : (d.checkPacket h ecc).core e = d.core e := by
  cases ecc with
  | clean => rfl
  | corrected => exact Dev.core_bump ..
  | uncorrectable => exact Dev.core_remark ..

/-! ### Ports (R238, R241) -/

/-- The first hop in dimension order leads away from its core. -/
theorem hopPort_leads_on (c : CoreId) (x y : Nat) (h : hopPort c x y < 4) : ckey (acrossPort c (hopPort c x y)).1 ≠ ckey c := by
  unfold hopPort at h ⊢
  split_ifs at h ⊢ <;> simp only [acrossPort, ckey] <;> omega

theorem Dev.packetPorts_core (d : Dev) (c : CoreId) {h : PktHead} (hcore : h.dkind = 0) (hone : h.mcast = false) :
    d.packetPorts c h = [hopPort c h.dstX h.dstY] := by
  simp [Dev.packetPorts, hcore, hone]

theorem Dev.packetPorts_mcast (d : Dev) (c : CoreId) {h : PktHead} (hcast : h.mcast = true) : d.packetPorts c h = mcastPorts c h :=
  if_pos hcast

theorem unpaused_forward (c : CoreId) (r : Nat × Nat) (l : List Nat) (h : PktHead) : unpaused (.forward c r l h) := fun _ => rfl

theorem unpaused_discardPacket (h : PktHead) : unpaused (.discardPacket h) := fun _ => rfl

/-! ### The epoch flips (R244, R245, R247) -/

theorem Dev.meshFlip_flips {d : Dev} (h : d.epochDrain = 0) : d.meshFlip 1 = d.flip := by
  simp [Dev.meshFlip, h]

theorem Dev.meshFlip_busy {d : Dev} (h : d.epochDrain ≠ 0) : d.meshFlip 1 = d.reply cBusy := by
  simp [Dev.meshFlip, h]

theorem Dev.meshFlip_other {d : Dev} {v : Nat} (h : v ≠ 1) : d.meshFlip v = d.reply cBadArgument := if_pos h

/-! ### The statement -/

/-- Settles O29: an arrival by what the head, its ports and the packets in flight make of it, the ports by the kind of the packet, the
flip by what is in flight. -/
theorem packetRouting : Obligations.PacketRouting := by
  refine ⟨fun s c port h actual p ps hs => ⟨fun code hbad ecc => ?_, fun hok hports hnot => ⟨?_, ?_, ?_⟩,
    fun hok hports hfly => ⟨?_, ?_, ?_⟩, fun d hidle hfly hx hy hcore hone hdx hdy => ?_, s.dev.packetPorts_core c, s.dev.packetPorts_mcast c,
    fun x y => rfl⟩, fun s hs => ⟨fun hdrain => ?_, fun hdrain => ?_, fun v hv => ?_⟩⟩
  · obtain ⟨hout, hcount, hcores⟩ := Dev.packetArrival_malformed (d := s.dev.cleared) hbad c port ecc
    refine ⟨_, (exec_routerPacketArrival ⟨c, port⟩ h actual ecc s).trans (onDev_gives hs),
      s.mem_closing_out hout (unpaused_discardPacket h), ?_, fun e => ?_⟩
    · rw [State.closing_objD]; exact hcount
    · rw [State.closing_core]; exact hcores e
  · exact gives_of_onDev hs (exec_routerPacketArrival ..) (Dev.packetArrival_untracked (d := s.dev.cleared) hok hports hnot port .clean)
  · exact gives_of_onDev hs (exec_routerPacketArrival ..) (Dev.packetArrival_untracked (d := s.dev.cleared) hok hports hnot port .corrected)
  · have harrives := Dev.packetArrival_untracked (d := s.dev.cleared) hok hports hnot port .uncorrectable
    refine ⟨_, gives_of_onDev hs (exec_routerPacketArrival ..) harrives,
      s.mem_closing_out (List.mem_append_right _ (List.mem_singleton_self _)) (unpaused_forward _ _ _ _), ?_, fun e => ?_⟩
    · rw [State.closing_mesh]
      exact Dev.transit_checkPacket (d := s.dev.cleared) (fun q hq => (hnot q hq).1) .uncorrectable
    · rw [State.closing_core]
      exact Dev.core_checkPacket ..
  · exact gives_of_onDev hs (exec_routerPacketArrival ..) (Dev.packetArrival_tracked (d := s.dev.cleared) hok hports hfly port .clean)
  · exact gives_of_onDev hs (exec_routerPacketArrival ..) (Dev.packetArrival_tracked (d := s.dev.cleared) hok hports hfly port .corrected)
  · exact gives_of_onDev hs (exec_routerPacketArrival ..) (Dev.packetArrival_tracked (d := s.dev.cleared) hok hports hfly port .uncorrectable)
  · have hnone : d.routersIdle := by
      intro p hp
      rw [hidle] at hp
      exact nomatch hp
    rw [d.packetPorts_core c hcore hone]
    refine Dev.enterRouter_forwards hnone hfly (by omega) (fun o ho hlt => ?_) port
    obtain rfl := List.mem_singleton.1 ho
    exact hopPort_leads_on c _ _ hlt
  · refine ⟨_, gives_of_onDev hs (exec_meshFlip 1 s) (Dev.meshFlip_flips (d := s.dev.cleared) hdrain), ?_⟩
    simp only [State.closing_mesh, State.closing_core]
    exact ⟨rfl, rfl, rfl, rfl, rfl, rfl, fun e => rfl⟩
  · exact gives_of_onDev hs (exec_meshFlip 1 s) (Dev.meshFlip_busy hdrain)
  · exact gives_of_onDev hs (exec_meshFlip v s) (Dev.meshFlip_other hv)

end Sys2Proof.Machine
end

section
/-! O47: steered datagrams, replies, and the credits of the Ethernet engine (R262, R480 to R484). -/

namespace Sys2Proof.Machine

theorem exec_steerFlip (value : Nat) (s : State) : exec (.steerFlip value) s = s.onDev fun d => d.steerFlip value := rfl

theorem exec_steeredDatagram (g : Datagram) (s : State) : exec (.steeredDatagram g) s = s.onDev fun d => d.datagram g := rfl

theorem exec_sendqTransmit (q : Nat) (s : State) : exec (.sendqTransmit q) s = execSendqTransmit q s := rfl

theorem exec_sendqHoldTimeout (q : Nat) (s : State) : exec (.sendqHoldTimeout q) s = execSendqHoldTimeout q s := rfl

/-! ### The banks change places (R481) -/

theorem Dev.steerFlip_swaps {d : Dev} (h : d.steerCheck 1 = none) : d.steerFlip 1 = { d with
    eth := { d.eth with steerCur := d.eth.steerNext, steerNext := d.eth.steerCur, out := [], seq := [] } } := by
  unfold Dev.steerFlip
  rw [h]

/-! ### A datagram becomes a message (R480, R482, R483) -/

/-- As many units come of some bytes as are asked for, when the bytes reach into each (R482). -/
theorem unitsOf_length (n : Nat) (bs : List Byte) (h : n ≤ ceilDiv bs.length 16) : (unitsOf n bs).length = n := by
  induction n generalizing bs with
  | zero => rfl
  | succ n ih =>
    cases bs with
    | nil => exact absurd h (Nat.not_succ_le_zero n)
    | cons b bs =>
      have hrest : n ≤ ceilDiv ((b :: bs).drop 16).length 16 := by
        rw [List.length_drop]
        unfold ceilDiv at h ⊢
        omega
      exact congrArg Nat.succ (ih _ hrest)

/-- The body of a steered message has a unit for each of its length but the header's (R482). -/
theorem steerMsg_body_length (r i seq inc : Nat) (g : Datagram) :
    (steerMsg r i seq inc g).body.length = (steerMsg r i seq inc g).hdr.length - 1 := by
  have hpay := unitsOf_length _ g.payload (Nat.le_refl _)
  simp only [steerMsg, List.length_cons, hpay]
  omega

/-- The engine keeps a message of rule i, whose word is r: its units count as outstanding, its sequence number is used, and the steer
buffer holds it until its commit (R482, R483). -/
def Dev.keepSteered (d : Dev) (i r : Nat) (m : Msg) : Dev := { d with
  eth := { d.eth with
    out := nmSet d.eth.out i ((nmGet d.eth.out i).getD 0 + m.hdr.length)
    seq := nmSet d.eth.seq i (((nmGet d.eth.seq i).getD 0 + 1) % 2 ^ 16) }
  steerBuf := d.steerBuf ++ [⟨bits r 61 48, bits r 71 64, bits r 79 72, i, m, none⟩] }

/-- The engine keeps a message of a rule, puts it on the network for the rule's core, and counts it (R482, R483). -/
def Dev.sendSteered (d : Dev) (i r : Nat) (m : Msg) : Dev :=
  ((d.keepSteered i r m).sendHeld (bits r 71 64) (bits r 79 72) m).bump 0x2803 5 1

/-- The message that rule i, whose word is r, makes of a datagram (R482). -/
def Dev.steered (d : Dev) (i r : Nat) (g : Datagram) : Msg :=
  steerMsg r i ((nmGet d.eth.seq i).getD 0) ((d.arch ⟨bits r 71 64, bits r 79 72⟩).msg.ring (bits r 83 80)).inc g

/-- A datagram for the device that a rule with room matches, for a RUNNING context, is kept, sent and counted. -/
theorem Dev.datagram_delivers {d : Dev} {g : Datagram} {i r : Nat} (hup : d.portUp = true) (hwhole : g.fragment = false)
    (hdst : g.dst ≠ 0) (hown : g.dst = d.objD 0x2800 (if g.ipv6 then 5 else 4) 0)
    (hrule : (d.eth.steerCur.find? fun p => ruleMatches p.2 g) = some (i, r)) (hlen : g.payload.length ≤ 4048)
    (hrun : (d.ctx (bits r 61 48)).state = .running) (hentry : (d.ctx (bits r 61 48)).entering = false)
    (hcredit : (nmGet d.eth.out i).getD 0 + 3 + ceilDiv g.payload.length 16 ≤ bits r 103 92)
    (hroom : d.steerBytes + 16 * (3 + ceilDiv g.payload.length 16) ≤ d.objD 0x2803 4 256 * 2 ^ 20) :
    d.datagram g = d.sendSteered i r (d.steered i r g) := by
  have hmine : (decide (g.dst = d.objD 0x2800 (if g.ipv6 then 5 else 4) 0) && g.dst != 0) = true :=
    Bool.and_eq_true_iff.2 ⟨decide_eq_true hown, bne_iff_ne.2 hdst⟩
  have hfits : ¬(bits r 103 92 < (nmGet d.eth.out i).getD 0 + (3 + ceilDiv g.payload.length 16)
      ∨ d.objD 0x2803 4 256 * 2 ^ 20 < d.steerBytes + 16 * (3 + ceilDiv g.payload.length 16)) := by omega
  unfold Dev.datagram
  simp only [hup, hwhole, hmine, hrule, hrun, hentry, CtxState.holds, Bool.not_true, Bool.or_false, Bool.false_eq_true,
    if_false, if_neg (Nat.not_lt.2 hlen), if_neg hfits]
  rfl

/-- A message that no core of this device sent changes, put on the network, only the network and the outputs. -/
theorem Dev.sendHeld_engine (d : Dev) (x y : Nat) {m : Msg} (hsrc : m.hdr.srcX = 0xF0) :
    ∃ mesh out, d.sendHeld x y m = { d with mesh := mesh, out := out } := by
  unfold Dev.sendHeld
  simp only [hsrc, decide_true, Bool.true_or, if_true]
  exact ⟨_, _, Dev.putPackets_spec ..⟩

@[simp] theorem State.closing_steerBuf (s : State) (d : Dev) : (s.closing d).dev.steerBuf = d.steerBuf := by
  obtain ⟨_, _, _, _, _, h⟩ := s.closing_dev d; rw [h]

/-- Closing a command changes of the port's state at most the queue pairs' status counters (R478). -/
theorem State.closing_eth (s : State) (d : Dev) : ∃ qps, (s.closing d).dev.eth = { d.eth with qps := qps } := by
  obtain ⟨_, qps, _, _, _, h⟩ := s.closing_dev d; exact ⟨qps, by rw [h]⟩

/-- What closing leaves of a device that keeps, sends and counts a message of the engine. -/
theorem State.closing_sendSteered (s : State) (d : Dev) (i r : Nat) {m : Msg} (hsrc : m.hdr.srcX = 0xF0) :
    (s.closing (d.sendSteered i r m)).dev.steerBuf = d.steerBuf ++ [⟨bits r 61 48, bits r 71 64, bits r 79 72, i, m, none⟩]
      ∧ nmGet (s.closing (d.sendSteered i r m)).dev.eth.out i = some ((nmGet d.eth.out i).getD 0 + m.hdr.length)
      ∧ nmGet (s.closing (d.sendSteered i r m)).dev.eth.seq i = some (((nmGet d.eth.seq i).getD 0 + 1) % 2 ^ 16)
      ∧ (s.closing (d.sendSteered i r m)).dev.objD 0x2803 5 0 = d.objD 0x2803 5 0 + 1
      ∧ ∀ e, (s.closing (d.sendSteered i r m)).dev.core e = d.core e := by
  obtain ⟨mesh, out, hsend⟩ := (d.keepSteered i r m).sendHeld_engine (bits r 71 64) (bits r 79 72) hsrc
  have hframe : d.sendSteered i r m = { d.keepSteered i r m with mesh := mesh, out := out, objs := (d.bump 0x2803 5 1).objs } := by
    rw [Dev.sendSteered, hsend]; rfl
  have hcount := d.objD_bump 0x2803 5 1
  obtain ⟨qps, heth⟩ := s.closing_eth (d.sendSteered i r m)
  rw [heth, State.closing_steerBuf, State.closing_objD, hframe]
  exact ⟨rfl, nmGet_nmSet_same .., nmGet_nmSet_same .., hcount, fun e => State.closing_core ..⟩

/-! ### Replies (R484) -/

section
variable {s : State} {q : Nat} {r : ReplyMsg} (hs : clocked s) (hold : s.dev.oldestReply q = some r)
include hs hold

/-- With the port up the oldest reply of a queue leaves, or is discarded and counted when its length is wrong. -/
theorem sendqTransmit_gives (hup : s.dev.portUp = true) :
    gives (.sendqTransmit q) s (if replyFits r.msg then (s.dev.cleared.replyGone r).emit
      (.eth 9 [(r.msg.body.getD 0 0#128).toNat, bits (r.msg.body.getD 1 0#128).toNat 15 0, bits (r.msg.body.getD 1 0#128).toNat 31 16,
        bits (r.msg.body.getD 1 0#128).toNat 59 48, bits (r.msg.body.getD 1 0#128).toNat 60 60, s.dev.objD 0x2803 0xB 0]
        (((r.msg.body.drop 2).flatMap qBytes).take (bits (r.msg.body.getD 1 0#128).toNat 47 32)))
    else (s.dev.cleared.replyGone r).bump 0x2803 0xC 1) := by
  have hold' : s.dev.cleared.oldestReply q = some r := hold
  have hup' : s.dev.cleared.portUp = true := hup
  refine gives_of_onDev hs (exec_sendqTransmit q s) ?_
  simp only [hold', hup', Dev.objD_cleared, Bool.not_true, Bool.false_eq_true, if_false]
  cases replyFits r.msg <;> rfl

/-- With the port down the oldest reply of a queue, held too long, is discarded and counted. -/
theorem sendqHoldTimeout_gives (hdown : s.dev.portUp = false) :
    gives (.sendqHoldTimeout q) s ((s.dev.cleared.replyGone r).bump 0x2803 0xC 1) := by
  have hold' : s.dev.cleared.oldestReply q = some r := hold
  have hdown' : s.dev.cleared.portUp = false := hdown
  refine gives_of_onDev hs (exec_sendqHoldTimeout q s) ?_
  simp only [hold', hdown', Bool.false_eq_true, if_false]

end

/-! ### Credits that come back to the engine (R262, R482) -/

/-- A change of a core's message unit leaves every core's context. -/
theorem Dev.coreCtx_updMsg (d : Dev) (c e : CoreId) (f : MsgUnit → MsgUnit) : ((d.updMsg c f).core e).ctx = (d.core e).ctx := by
  rw [Dev.updMsg, Dev.core_updArch, d.core_of_key c e]
  split <;> rfl

theorem Dev.coreCtx_sendHeld (d : Dev) (e : CoreId) (x y : Nat) (m : Msg) : ((d.sendHeld x y m).core e).ctx = (d.core e).ctx := by
  unfold Dev.sendHeld
  dsimp only
  rw [Dev.core_putPackets]
  split
  · rfl
  · exact d.coreCtx_updMsg ..

theorem Dev.coreCtx_flushHeld (d : Dev) (e : CoreId) (n : Nat) : ((d.flushHeld n).core e).ctx = (d.core e).ctx := by
  unfold Dev.flushHeld
  dsimp only
  refine (foldl_unchanged (fun d : Dev => (d.core e).ctx) (fun d (h : HeldMsg) => d.coreCtx_sendHeld e h.dstX h.dstY h.msg) _ _).trans ?_
  split <;> rfl

theorem Dev.coreCtx_flushAll (d : Dev) (e : CoreId) : (d.flushAll.core e).ctx = (d.core e).ctx :=
  foldl_unchanged (fun d : Dev => (d.core e).ctx) (fun d => d.coreCtx_flushHeld e) _ d

/-- A credit return that lands leaves every core its context, though what it lets go on may use message tags (R242, R261). -/
theorem Dev.coreCtx_creditLands (d : Dev) (c e : CoreId) (src : Sender) (queue inc : Nat) (closed : Bool) (units : Nat) :
    ((d.creditLands c src queue inc closed units).core e).ctx = (d.core e).ctx := by
  unfold Dev.creditLands
  dsimp only
  split
  · rw [Dev.coreCtx_flushAll, Dev.core_landed]
  · rfl

/-- A credit return at the engine's column goes to the rules of the sending core's context. -/
theorem creditReturn_engine_gives {s : State} {c : CoreId} {srcX srcY srcDev queue inc units at_ n : Nat} {closed : Bool} (hs : clocked s)
    (hcol : c.x = 0xF0) (hctx : (s.dev.core ⟨srcX, srcY⟩).ctx = some n) :
    gives (.creditReturn c srcX srcY srcDev queue inc closed units at_) s
      ((s.dev.cleared.creditLands c ⟨srcX, srcY, srcDev⟩ queue inc closed units).engineCredit n ⟨srcX, srcY, srcDev⟩ queue units) := by
  have hland := s.dev.cleared.coreCtx_creditLands c ⟨srcX, srcY⟩ ⟨srcX, srcY, srcDev⟩ queue inc closed units
  rw [Dev.core_cleared, hctx] at hland
  refine gives_of_onDev hs (exec_creditReturn ..) ?_
  simp only [hcol, hland, if_true]

/-- Credits for a ring that one rule names are taken off what that rule has outstanding. -/
theorem Dev.engineCredit_one {d : Dev} {n queue i r : Nat} {src : Sender} (units : Nat)
    (hone : (d.eth.steerCur.filter fun p => bit p.2 16 && bits p.2 61 48 = n && bits p.2 71 64 = src.x && bits p.2 79 72 = src.y
      && bits p.2 83 80 = queue) = [(i, r)]) :
    (d.engineCredit n src queue units).eth.out = nmSet d.eth.out i ((nmGet d.eth.out i).getD 0 - units) := by
  unfold Dev.engineCredit
  simp only [hone, List.foldl_cons, List.foldl_nil, tsub_min]

/-! ### The statement -/

/-- Settles O47: the flip, a datagram that a rule takes, replies with the port up and down, and credits to the rule of their ring. -/
theorem steeredTraffic : Obligations.SteeredTraffic := by
  refine fun s hs => ⟨fun hcheck => ?_, fun g i r m hup hwhole hdst hown hrule hlen hrun hentry hcredit hroom hm => ?_,
    fun q r hold => ⟨fun hup hfits => ?_, fun hup hwrong => ?_, sendqHoldTimeout_gives hs hold⟩,
    fun c srcX srcY srcDev queue inc closed units at_ n => creditReturn_engine_gives hs,
    fun d n src queue units i r hone o hout => ⟨?_, fun j hj => ?_⟩⟩
  · exact gives_of_onDev hs (exec_steerFlip 1 s) (Dev.steerFlip_swaps (d := s.dev.cleared) hcheck)
  · obtain rfl : m = s.dev.cleared.steered i r g := hm
    have hdelivers := Dev.datagram_delivers (d := s.dev.cleared) hup hwhole hdst hown hrule hlen hrun hentry hcredit hroom
    obtain ⟨hbuf, hout, hseq, hcount, hcore⟩ := s.closing_sendSteered s.dev.cleared i r (m := s.dev.cleared.steered i r g) rfl
    exact ⟨_, gives_of_onDev hs (exec_steeredDatagram g s) hdelivers, hbuf, hout, hseq, hcount, steerMsg_body_length .., hcore⟩
  · have hsent := sendqTransmit_gives hs hold hup
    rwa [if_pos hfits] at hsent
  · have hdropped := sendqTransmit_gives hs hold hup
    rwa [if_neg (ne_true_of_eq_false hwrong)] at hdropped
  · rw [Dev.engineCredit_one units hone, nmGet_nmSet_same, hout]; rfl
  · rw [Dev.engineCredit_one units hone, nmGet_nmSet_other _ _ _ _ hj]

end Sys2Proof.Machine
end

section
/-! O31: the requests of long operations on contexts, and admission (R279, R282, R343, R355 to R357, R606). -/

namespace Sys2Proof.Machine

theorem exec_ctxLoadGo (s : State) : exec .ctxLoadGo s = s.onDev fun d =>
    d.loadGo (d.objD 0x5002 1 0) (d.objD 0x5002 2 0) (d.objD 0x5002 3 0) (d.objD 0x5002 4 0) := rfl

theorem exec_ctxLoadCancel (s : State) : exec .ctxLoadCancel s = s.onDev fun d => d.loadCancel (d.objD 0x5002 1 0) := rfl

theorem exec_ctxReshardGo (n : Nat) (s : State) : exec (.ctxReshardGo n) s = s.onDev fun d =>
    d.reshardGo n (d.objD 0x5002 2 0) (d.objD 0x5002 3 0) (d.objD 0x5002 4 0) := rfl

theorem exec_ctxReshardCancel (n : Nat) (s : State) : exec (.ctxReshardCancel n) s = s.onDev fun d => d.reshardCancel n := rfl

theorem exec_gearLoadGo (s : State) : exec .gearLoadGo s = s.onDev fun d =>
    d.gearLoadGo (d.objD 0x4403 1 0) (d.objD 0x4403 2 0) d.gearRect := rfl

theorem exec_gearLoadCancel (s : State) : exec .gearLoadCancel s = s.onDev fun d => d.gearLoadCancel (d.objD 0x4403 1 0) := rfl

theorem exec_admission (n : Nat) (bs : List Byte) (leases : List (Nat × Nat)) (s : State) :
    exec (.admission n bs leases) s = s.onDev fun d => d.admission n bs leases := rfl

/-! ### Loads (R355, R356, R606) -/

theorem Dev.loadGo_of_check {d : Dev} {n w o b : Nat} (h : d.loadCheck n w o b = none) : d.loadGo n w o b =
    { d.updCtx n fun x => { x with load := ⟨1, 0, cPending, w, o, b, 0⟩ } with
      lastReq := nmSet d.lastReq (okey 0x5002 5) n }.emit (.hostRead w o b) := by
  unfold Dev.loadGo
  rw [h]
  rfl

theorem Dev.loadGo_refused {d : Dev} {n w o b : Nat} {code : Code} (h : d.loadCheck n w o b = some code) :
    d.loadGo n w o b = d.reply code := by
  unfold Dev.loadGo
  rw [h]

theorem Dev.loadCancel_busy {d : Dev} {n : Nat} (h : (d.ctx n).load.busy = true) :
    d.loadCancel n = d.updCtx n fun x => { x with load := x.load.cancelled } := if_pos h

/-! ### Re-shards (R356, R357, R606) -/

theorem Dev.reshardGo_of_checks {d : Dev} {n w o b : Nat} (hserve : d.inService = true)
    (hstate : (d.ctx n).state = .preempted ∨ (d.ctx n).state = .running) (hidle : (d.ctx n).opBusy = false)
    (hsource : sourceCheck (d.ctx n) w o b = none) : d.reshardGo n w o b =
    (d.updCtx n fun x => { x with reshard := ⟨1, 0, cPending, w, o, b, 0⟩ }).emit (.hostRead w o b) := by
  rcases hstate with hstate | hstate <;> simp [Dev.reshardGo, firstFail, hserve, hstate, hidle, hsource]

theorem Dev.reshardCancel_busy {d : Dev} {n : Nat} (h : (d.ctx n).reshard.busy = true) : d.reshardCancel n = d.updCtx n fun x =>
    { x with reshard := x.reshard.cancelled, nextImage := none, gateReq := if x.midStep then x.gateReq else none } := if_pos h

/-! ### Admission of a load (R343) -/

theorem Dev.admission_admits {d : Dev} {n : Nat} {bs : List Byte} {leases : List (Nat × Nat)} {m : Image}
    (hbusy : (d.ctx n).load.busy = true) (h : d.admitImage bs (d.ctx n).windows leases 0 n = .ok m) :
    d.admission n bs leases = d.admitted n m (m.fixedFrames (keptBytes bs)) := by
  unfold Dev.admission
  simp only [hbusy, h, if_true]

theorem Dev.admission_refuses {d : Dev} {n : Nat} {bs : List Byte} {leases : List (Nat × Nat)} {code : Code}
    (hbusy : (d.ctx n).load.busy = true) (h : d.admitImage bs (d.ctx n).windows leases 0 n = .error code) :
    d.admission n bs leases =
      ((d.raised code).updCtx n fun x => { x with load := x.load.ends code, lastCode := code }).bump 0x5000 6 1 := by
  unfold Dev.admission
  simp only [hbusy, h, if_true]

/-! ### Gear loads set out (R279, R282) -/

theorem unpaused_packet (c : CoreId) (p : Packet) : unpaused (.packet c p) := fun _ => rfl

@[simp] theorem Dev.mesh_bump (d : Dev) (i s n : Nat) : (d.bump i s n).mesh = d.mesh := by unfold Dev.bump; split <;> rfl

@[simp] theorem Dev.out_bump (d : Dev) (i s n : Nat) : (d.bump i s n).out = d.out := by unfold Dev.bump; split <;> rfl

/-- The packets of a context's gear load of an image over a packed rectangle. -/
def Dev.gearPackets (d : Dev) (n image rect : Nat) : List Packet :=
  d.loadPackets (fun c => (d.ctx n).image.slot c image) (rectOf rect) (rectCores rect)
    (fun c => bits ((d.ctx n).image.gearHdr c image) 17 16) d.nextLoad

/-- Sending a load puts its packets in flight and among the outputs, and changes no core and no context. -/
theorem Dev.sendLoad_sends (d : Dev) (n image rect : Nat) :
    (d.sendLoad n image (rectOf rect) (rectCores rect)).mesh.transit = d.mesh.transit ++ d.gearPackets n image rect
    ∧ (d.sendLoad n image (rectOf rect) (rectCores rect)).out = d.out ++ (d.gearPackets n image rect).map (Out.packet d.engineCore)
    ∧ (d.sendLoad n image (rectOf rect) (rectCores rect)).cores = d.cores
    ∧ (d.sendLoad n image (rectOf rect) (rectCores rect)).ctxs = d.ctxs := by
  unfold Dev.sendLoad
  dsimp only
  rw [Dev.putPackets_spec, Dev.mesh_bump, Dev.out_bump, Dev.cores_bump, Dev.ctxs_bump]
  exact ⟨rfl, rfl, rfl, rfl⟩

/-- The device as a gear load's request leaves it, before its packets set out. -/
def Dev.gearRequested (d : Dev) (n image rect : Nat) : Dev :=
  { d with lastReq := nmSet d.lastReq (okey 0x4403 7) n }.updCtx n fun x => { x with gearLoad := ⟨2, 0, cPending, rect, image, 0, 0⟩ }

theorem Dev.ctx_gearRequested (d : Dev) (n image rect : Nat) :
    (d.gearRequested n image rect).ctx n = { d.ctx n with gearLoad := ⟨2, 0, cPending, rect, image, 0, 0⟩ } := by
  unfold Dev.gearRequested
  rw [Dev.ctx_updCtx, if_pos rfl]
  rfl

/-- A request changes none of what the packets of the load are made from. -/
theorem Dev.gearPackets_gearRequested (d : Dev) (n image rect : Nat) :
    (d.gearRequested n image rect).gearPackets n image rect = d.gearPackets n image rect := by
  unfold Dev.gearPackets
  rw [Dev.ctx_gearRequested]
  rfl

theorem Dev.gearLoadGo_of_check {d : Dev} {n image rect : Nat} (h : d.gearLoadCheck n image rect = none) :
    d.gearLoadGo n image rect = (d.gearRequested n image rect).sendLoad n image (rectOf rect) (rectCores rect) := by
  unfold Dev.gearLoadGo
  rw [h]
  rfl

/-- A gear load that passes its checks is under way, its packets follow those in flight and go out, and no core changes. -/
theorem Dev.gearLoadGo_sends {d : Dev} {n image rect : Nat} (h : d.gearLoadCheck n image rect = none) :
    ((d.gearLoadGo n image rect).ctx n).gearLoad = ⟨2, 0, cPending, rect, image, 0, 0⟩
    ∧ (d.gearLoadGo n image rect).mesh.transit = d.mesh.transit ++ d.gearPackets n image rect
    ∧ (∀ p ∈ d.gearPackets n image rect, Out.packet d.engineCore p ∈ (d.gearLoadGo n image rect).out)
    ∧ ∀ e, (d.gearLoadGo n image rect).core e = d.core e := by
  obtain ⟨htransit, hout, hcores, hctxs⟩ := (d.gearRequested n image rect).sendLoad_sends n image rect
  rw [d.gearPackets_gearRequested] at htransit hout
  rw [Dev.gearLoadGo_of_check h]
  refine ⟨?_, htransit, fun p hp => ?_, fun e => ?_⟩
  · have hctx := congrArg Ctx.gearLoad (d.ctx_gearRequested n image rect)
    unfold Dev.ctx at hctx ⊢
    rwa [hctxs]
  · rw [hout]
    exact List.mem_append_right _ (List.mem_map_of_mem hp)
  · unfold Dev.core
    rw [hcores]
    rfl

/-! ### The slots of a cancelled gear load are emptied (R356) -/

/-- From device d to device e only gear slots that were loading change. -/
structure OnlyEmpties (d e : Dev) : Prop where
  ctxs : e.ctxs = d.ctxs
  arch : ∀ c, (e.core c).arch = (d.core c).arch
  mem : ∀ c, (e.core c).mem = (d.core c).mem
  slot : ∀ c i, ((d.core c).slot i).state ≠ 1 → (e.core c).slot i = (d.core c).slot i

theorem OnlyEmpties.of_rest {d e : Dev} (h : e.cores = d.cores ∧ e.ctxs = d.ctxs) : OnlyEmpties d e := by
  have hcore (c : CoreId) : e.core c = d.core c := by unfold Dev.core; rw [h.1]
  exact ⟨h.2, fun c => by rw [hcore], fun c => by rw [hcore], fun c i _ => by rw [hcore]⟩

theorem OnlyEmpties.ctx {d e : Dev} (h : OnlyEmpties d e) (n : Nat) : e.ctx n = d.ctx n := by
  unfold Dev.ctx
  rw [h.ctxs]

/-- A slot that is not loading stays so. -/
theorem OnlyEmpties.keeps {d e : Dev} (h : OnlyEmpties d e) {c : CoreId} {i : Nat} (hi : ((d.core c).slot i).state ≠ 1) :
    ((e.core c).slot i).state ≠ 1 := by
  rwa [h.slot c i hi]

theorem OnlyEmpties.trans {a b c : Dev} (h : OnlyEmpties a b) (g : OnlyEmpties b c) : OnlyEmpties a c where
  ctxs := g.ctxs.trans h.ctxs
  arch k := (g.arch k).trans (h.arch k)
  mem k := (g.mem k).trans (h.mem k)
  slot k i hi := (g.slot k i (h.keeps hi)).trans (h.slot k i hi)

section
variable {α : Type} {f : Dev → α → Dev} (hf : ∀ d x, OnlyEmpties d (f d x))
include hf

theorem OnlyEmpties.foldl (l : List α) (d : Dev) : OnlyEmpties d (l.foldl f d) := by
  induction l generalizing d with
  | nil => exact .of_rest ⟨rfl, rfl⟩
  | cons x l ih => exact (hf d x).trans (ih _)

/-- What one of the steps leaves not loading is not loading after them all. -/
theorem OnlyEmpties.foldl_empties {l : List α} {x : α} (hx : x ∈ l) {c : CoreId} {i : Nat}
    (h : ∀ d, (((f d x).core c).slot i).state ≠ 1) (d : Dev) : (((l.foldl f d).core c).slot i).state ≠ 1 := by
  obtain ⟨before, after, rfl⟩ := List.append_of_mem hx
  rw [List.foldl_append, List.foldl_cons]
  exact (OnlyEmpties.foldl hf after _).keeps (h _)
end

/-- Empties a gear slot of a core if it is loading. -/
def Dev.emptySlot (c : CoreId) (d : Dev) (i : Nat) : Dev :=
  if ((d.core c).slot i).state = 1 then d.updCore c fun k => k.setSlot i clearSlot else d

theorem Dev.emptyLoading_eq (d : Dev) (cores : List CoreId) :
    d.emptyLoading cores = cores.foldl (fun d c => (List.range 4).foldl (Dev.emptySlot c) d) (d.dropLoads cores) := rfl

theorem Core.slot_setSlot_same (k : Core) {i : Nat} (s : Slot) (hi : i < 4) : (k.setSlot i s).slot i = s := vGet_vSet_same _ _ _ _ hi

theorem Core.slot_setSlot_other (k : Core) {i j : Nat} (s : Slot) (h : j ≠ i) : (k.setSlot i s).slot j = k.slot j :=
  vGet_vSet_other _ _ _ _ _ h

theorem Dev.emptySlot_onlyEmpties (c : CoreId) (d : Dev) (i : Nat) : OnlyEmpties d (d.emptySlot c i) := by
  unfold Dev.emptySlot
  split
  next hloading =>
    have hcore (e : CoreId) : ((d.core e).slot i).state = 1
          ∧ (d.updCore c fun k => k.setSlot i clearSlot).core e = (d.core e).setSlot i clearSlot
        ∨ (d.updCore c fun k => k.setSlot i clearSlot).core e = d.core e := by
      rw [Dev.core_updCore]
      split
      next hkey =>
        have hsame : d.core e = d.core c := by unfold Dev.core; rw [hkey]
        rw [hsame]
        exact .inl ⟨hloading, rfl⟩
      next => exact .inr rfl
    refine ⟨rfl, fun e => ?_, fun e => ?_, fun e j hj => ?_⟩
    · obtain ⟨-, h⟩ | h := hcore e <;> rw [h]; rfl
    · obtain ⟨-, h⟩ | h := hcore e <;> rw [h]; rfl
    · obtain ⟨hi, h⟩ | h := hcore e <;> rw [h]
      exact Core.slot_setSlot_other _ _ fun hji => hj (by rwa [hji])
  next => exact .of_rest ⟨rfl, rfl⟩

theorem Dev.emptySlot_empties (c : CoreId) (d : Dev) {i : Nat} (hi : i < 4) : (((d.emptySlot c i).core c).slot i).state ≠ 1 := by
  unfold Dev.emptySlot
  split
  next =>
    rw [Dev.core_updCore, if_pos rfl, Core.slot_setSlot_same _ _ hi]
    exact Nat.zero_ne_one
  next hidle => exact hidle

theorem Dev.dropLoads_rest (d : Dev) (cores : List CoreId) : (d.dropLoads cores).cores = d.cores ∧ (d.dropLoads cores).ctxs = d.ctxs :=
  Dev.routersGo_rest _

theorem Dev.emptyLoading_onlyEmpties (d : Dev) (cores : List CoreId) : OnlyEmpties d (d.emptyLoading cores) :=
  (OnlyEmpties.of_rest (d.dropLoads_rest cores)).trans (OnlyEmpties.foldl (fun e c => .foldl (Dev.emptySlot_onlyEmpties c) _ e) cores _)

/-- No slot of the cores whose loading slots are emptied is loading. -/
theorem Dev.emptyLoading_empties (d : Dev) {cores : List CoreId} {c : CoreId} (hc : c ∈ cores) {i : Nat} (hi : i < 4) :
    (((d.emptyLoading cores).core c).slot i).state ≠ 1 :=
  OnlyEmpties.foldl_empties (fun e c => .foldl (Dev.emptySlot_onlyEmpties c) _ e) hc
    (OnlyEmpties.foldl_empties (Dev.emptySlot_onlyEmpties c) (List.mem_range.2 hi) fun e => e.emptySlot_empties c hi) _

theorem Dev.gearLoadCancel_busy {d : Dev} {n : Nat} (h : (d.ctx n).gearLoad.busy = true) : d.gearLoadCancel n =
    (d.emptyLoading (rectCores (d.ctx n).gearLoad.a)).updCtx n fun x => { x with gearLoad := x.gearLoad.cancelled } := by
  simp [Dev.gearLoadCancel, Dev.dropGearLoad, h]

/-- A cancelled gear load leaves no slot of its rectangle's cores loading, and changes of cores only slots that were. -/
theorem Dev.gearLoadCancel_cancels {d : Dev} {n : Nat} (h : (d.ctx n).gearLoad.busy = true) :
    ((d.gearLoadCancel n).ctx n).gearLoad = (d.ctx n).gearLoad.cancelled
    ∧ (∀ c ∈ rectCores (d.ctx n).gearLoad.a, ∀ i, i < 4 → (((d.gearLoadCancel n).core c).slot i).state ≠ 1)
    ∧ (∀ c i, ((d.core c).slot i).state ≠ 1 → ((d.gearLoadCancel n).core c).slot i = (d.core c).slot i)
    ∧ ∀ c, ((d.gearLoadCancel n).core c).arch = (d.core c).arch ∧ ((d.gearLoadCancel n).core c).mem = (d.core c).mem := by
  have honly := d.emptyLoading_onlyEmpties (rectCores (d.ctx n).gearLoad.a)
  rw [Dev.gearLoadCancel_busy h, Dev.ctx_updCtx, if_pos rfl, honly.ctx]
  exact ⟨rfl, fun c hc i hi => d.emptyLoading_empties hc hi, honly.slot, fun c => ⟨honly.arch c, honly.mem c⟩⟩

/-! ### The commands of gear loads -/

theorem State.gearLoad_closing (s : State) (d : Dev) (n : Nat) : ((s.closing d).dev.ctx n).gearLoad = (d.ctx n).gearLoad := by
  obtain ⟨k, h⟩ := s.closing_ctx d n
  rw [h]

theorem gearLoadGo_gives {s : State} (hs : clocked s) {n image : Nat} (hn : n = s.dev.objD 0x4403 1 0) (hi : image = s.dev.objD 0x4403 2 0)
    (hcheck : s.dev.gearLoadCheck n image s.dev.gearRect = none) : ∃ t, exec .gearLoadGo s = .next t
      ∧ (t.dev.ctx n).gearLoad = ⟨2, 0, cPending, s.dev.gearRect, image, 0, 0⟩
      ∧ t.dev.mesh.transit = s.dev.mesh.transit ++ s.dev.gearPackets n image s.dev.gearRect
      ∧ (∀ p ∈ s.dev.gearPackets n image s.dev.gearRect, Out.packet s.dev.engineCore p ∈ t.dev.out)
      ∧ ∀ e, t.dev.core e = s.dev.core e := by
  subst hn hi
  obtain ⟨hload, htransit, hout, hcore⟩ := Dev.gearLoadGo_sends (d := s.dev.cleared) hcheck
  refine ⟨_, gives_of_onDev hs (exec_gearLoadGo s) rfl, (s.gearLoad_closing _ _).trans hload, ?_, fun p hp => ?_, fun e => ?_⟩
  · rw [State.closing_mesh]; exact htransit
  · exact s.mem_closing_out (hout p hp) (unpaused_packet _ p)
  · rw [State.closing_core]; exact hcore e

theorem gearLoadCancel_gives {s : State} (hs : clocked s) {n : Nat} (hn : n = s.dev.objD 0x4403 1 0)
    (hbusy : (s.dev.ctx n).gearLoad.busy = true) : ∃ t, exec .gearLoadCancel s = .next t
      ∧ (t.dev.ctx n).gearLoad = (s.dev.ctx n).gearLoad.cancelled
      ∧ (∀ c ∈ rectCores (s.dev.ctx n).gearLoad.a, ∀ i, i < 4 → ((t.dev.core c).slot i).state ≠ 1)
      ∧ (∀ c i, ((s.dev.core c).slot i).state ≠ 1 → (t.dev.core c).slot i = (s.dev.core c).slot i)
      ∧ ∀ c, (t.dev.core c).arch = (s.dev.core c).arch ∧ (t.dev.core c).mem = (s.dev.core c).mem := by
  subst hn
  obtain ⟨hload, hslots⟩ := Dev.gearLoadCancel_cancels (d := s.dev.cleared) hbusy
  refine ⟨_, gives_of_onDev hs (exec_gearLoadCancel s) rfl, (s.gearLoad_closing _ _).trans hload, ?_⟩
  simp only [State.closing_core]
  exact hslots

/-! ### The statement -/

/-- Settles O31: each request by the branch of its function that its checks choose. -/
theorem contextRequests : Obligations.ContextRequests := by
  refine fun s hs => ⟨fun n w o b hn hw ho hb => ?_, fun n hbusy => ?_,
    fun n image hn hi => ⟨fun hcheck => ?_, gearLoadCancel_gives hs hn⟩,
    fun n bs leases hbusy => ⟨fun m hok => ?_, fun code hbad => ?_⟩⟩
  · subst hn hw ho hb
    refine ⟨fun hcheck => ?_, fun code hcheck => ?_, fun hbusy => ?_, fun m hserve hstate hidle hsource => ?_⟩
    · exact gives_of_onDev hs (exec_ctxLoadGo s) (Dev.loadGo_of_check (d := s.dev.cleared) hcheck)
    · exact gives_of_onDev hs (exec_ctxLoadGo s) (Dev.loadGo_refused (d := s.dev.cleared) hcheck)
    · exact gives_of_onDev hs (exec_ctxLoadCancel s) (Dev.loadCancel_busy (d := s.dev.cleared) hbusy)
    · exact gives_of_onDev hs (exec_ctxReshardGo m s) (Dev.reshardGo_of_checks (d := s.dev.cleared) hserve hstate hidle hsource)
  · exact gives_of_onDev hs (exec_ctxReshardCancel n s) (Dev.reshardCancel_busy (d := s.dev.cleared) hbusy)
  · obtain ⟨t, hexec, hload, htransit, hout, hcore⟩ := gearLoadGo_gives hs hn hi hcheck
    exact ⟨t, hexec, hload, ⟨_, htransit, rfl, hout⟩, hcore⟩
  · exact gives_of_onDev hs (exec_admission n bs leases s) (Dev.admission_admits (d := s.dev.cleared) hbusy hok)
  · exact gives_of_onDev hs (exec_admission n bs leases s) (Dev.admission_refuses (d := s.dev.cleared) hbusy hbad)

end Sys2Proof.Machine
end

section
/-! O25: the DMA engine starts commands and moves granules (R309, R324 to R328). -/

namespace Sys2Proof.Machine

theorem exec_dmaCommandStart (c : CoreId) (s : State) : exec (.dmaCommandStart c) s = s.onDev fun d => (d.dmaStart c).rerunDone c := rfl

theorem exec_dmaGranuleComplete (c : CoreId) (ge : GranuleRes) (s : State) :
    exec (.dmaGranuleComplete c ge) s = s.onDev fun d => (d.granule c ge.ends ge.late).rerunDone c := rfl

/-! ### Starts (R324) -/

section
variable {d : Dev} {c : CoreId} {e : QEntry} {rest : List QEntry} {put : Bool} {q : Nat} {bs : List Byte} {src dst : DmaEnd} {off : Nat}
  (hq : (vGet (d.arch c).units 3 clearUnit).queue = e :: rest) (hcmd : e.cmd = .dma put q bs src dst off)
include hq hcmd

/-- A command that passes the checks runs, and the engine asks for what lies elsewhere. -/
theorem Dev.dmaStart_runs (hwaits : e.started = false) (hlive : (d.arch c).live = true)
    (hcheck : dmaStartCheck (d.ctxOf c) put (dmaDesc bs) src dst = .ok true) : d.dmaStart c = (d.updArch c fun a =>
      a.updHead 3 fun e => { e with started := true, start := max e.accepted (d.arch c).stat.cyc }).askRemote c := by
  unfold Dev.dmaStart
  simp only [hq, hcmd, hwaits, hlive, hcheck, Bool.not_true, Bool.or_self, Bool.false_eq_true, if_false]
  exact congrArg (Dev.askRemote · c) (Dev.updArch_congr rfl)

/-- A command of length 0 ends with OK. -/
theorem Dev.dmaStart_ends (hwaits : e.started = false) (hlive : (d.arch c).live = true)
    (hcheck : dmaStartCheck (d.ctxOf c) put (dmaDesc bs) src dst = .ok false) : d.dmaStart c = d.dmaEnds c cOk := by
  unfold Dev.dmaStart
  simp only [hq, hcmd, hwaits, hlive, hcheck, Bool.not_true, Bool.or_self, Bool.false_eq_true, if_false]

/-! ### Granules (R309, R325, R326) -/

/-- A granule of a running command whose pages the core's translation cache serves, present and not busy, is moved. -/
theorem Dev.granule_moves {ctx transient late : Nat} {remote : List Byte} {retries : List Nat} {n : Nat} {pages : List (Nat × Bool)}
    (hctx : (d.core c).ctx = some ctx) (hruns : (d.arch c).dmaRuns = true) (hstarted : e.started = true)
    (hn : n = min 4096 ((dmaDesc bs).length - off))
    (hpages : pages = granulePages (dmaDesc bs).srcSpace ((dmaDesc bs).srcAddr + off) n false
      ++ granulePages (dmaDesc bs).dstSpace ((dmaDesc bs).dstAddr + off) n true)
    (hready : ∀ p ∈ pages, d.tlbHit c ctx ((d.ctx ctx).cachePage p.1) p.2 = true
      ∧ ∃ l, (d.ctx ctx).leaf p.1 = some l ∧ l.valid = true ∧ l.busy = false) :
    d.granule c (.moved remote retries transient) late
      = ((pages.foldl (fun u p => u.tlbUse c ctx ((d.ctx ctx).cachePage p.1)) d).readCounts retries transient).granuleMoves
          c ctx (d.ctx ctx) e (dmaDesc bs) src dst off n remote late := by
  have hall : (pages.all fun p => d.tlbHit c ctx ((d.ctx ctx).cachePage p.1) p.2
      && ((d.ctx ctx).leaf p.1).any fun l => l.valid && !l.busy) = true :=
    List.all_eq_true.2 fun p hp => by
      obtain ⟨hhit, l, hl, hvalid, hbusy⟩ := hready p hp
      simp [hhit, hl, hvalid, hbusy]
  subst hn hpages
  unfold Dev.granule
  simp only [hq, hctx, hcmd, hruns, hstarted, hall, Bool.not_true, Bool.or_self, Bool.false_eq_true, if_false]
end

/-- A granule whose source can be read whole and whose destination takes it is done. -/
theorem Dev.granuleMoves_done {d d' : Dev} {c : CoreId} {ctx : Nat} {x : Ctx} {e : QEntry} {q : DmaDesc} {src dst : DmaEnd} {off n : Nat}
    {remote data : List Byte} (late : Nat) (hblocks : d.sourceBad x q off n = none)
    (hlocal : q.srcSpace = 0 → d.badAt c (src.span (src.base + q.srcAddr + off) n) = none
      ∧ (src.bc = true → d.localDiffers c (src.base + q.srcAddr + off) n = none))
    (hread : d.granuleRead c x q src off n remote = some data) (hwrite : d.granuleWrite c ctx x q dst off data = some d') :
    d.granuleMoves c ctx x e q src dst off n remote late = d'.granuleDone c e.cmd.dmaQueue off n q.length late := by
  have hwords : (if q.srcSpace = 0 then d.badAt c (src.span (src.base + q.srcAddr + off) n) else none) = none :=
    ite_eq_right_iff.2 fun h => (hlocal h).1
  have hchecks : (if q.srcSpace = 0 && src.bc then d.localDiffers c (src.base + q.srcAddr + off) n else none) = none :=
    ite_eq_right_iff.2 fun h => by
      rw [Bool.and_eq_true, decide_eq_true_eq] at h
      exact (hlocal h.1).2 h.2
  unfold Dev.granuleMoves
  simp only [hblocks, hwords, hchecks, hread, hwrite]

/-! ### What asking for far and host pages leaves (R321) -/

/-- A far read or its reply changes only contexts, counters, links and outputs. -/
theorem Dev.sendFar_frame (d : Dev) (vc dev srcCtx dstCtx : Nat) (p : LinkPay) :
    ∃ ctxs objs links out, d.sendFar vc dev srcCtx dstCtx p = { d with ctxs := ctxs, objs := objs, links := links, out := out } := by
  unfold Dev.sendFar
  split
  · exact ⟨_, _, _, _, Dev.bump_frame ..⟩
  · next n _ =>
    have hcross : ∃ ctxs, d.crosses n srcCtx = { d with ctxs := ctxs } := by
      unfold Dev.crosses
      split
      · exact ⟨_, rfl⟩
      · exact ⟨_, rfl⟩
    obtain ⟨ctxs, hctxs⟩ := hcross
    obtain ⟨links, out, h⟩ := (d.crosses n srcCtx).linkSend_frame n _
    rw [h, hctxs]
    exact ⟨ctxs, _, links, out, rfl⟩

/-- Asking for bytes elsewhere changes only contexts, counters, links and outputs. -/
theorem Dev.ask_frame (d : Dev) (ctx page : Nat) (p : PagePlace) (n : Nat) :
    ∃ ctxs objs links out, d.ask ctx page p n = { d with ctxs := ctxs, objs := objs, links := links, out := out } := by
  unfold Dev.ask
  split
  · exact Dev.sendFar_frame ..
  · exact ⟨_, _, _, _, rfl⟩
  · exact ⟨_, _, _, _, rfl⟩

/-- Asking for what a granule reads changes no core and not tier 2. -/
theorem Dev.askRemote_rest (d : Dev) (c : CoreId) : (d.askRemote c).cores = d.cores ∧ (d.askRemote c).t2 = d.t2 := by
  have hask (d : Dev) (ctx page : Nat) (p : PagePlace) (n : Nat) :
      ((d.ask ctx page p n).cores, (d.ask ctx page p n).t2) = (d.cores, d.t2) := by
    obtain ⟨_, _, _, _, h⟩ := d.ask_frame ctx page p n
    rw [h]
  refine Prod.mk.inj (?_ : ((d.askRemote c).cores, (d.askRemote c).t2) = (d.cores, d.t2))
  unfold Dev.askRemote
  split
  · split
    · dsimp only
      split
      · rfl
      · refine foldl_unchanged (fun d : Dev => (d.cores, d.t2)) (fun d p => ?_) _ d
        split
        · split
          · exact hask ..
          · rfl
        · rfl
    · rfl
  · rfl

theorem Dev.arch_askRemote (d : Dev) (c o : CoreId) : (d.askRemote c).arch o = d.arch o := by
  unfold Dev.arch Dev.core
  rw [(d.askRemote_rest c).1]

/-! ### The end of a granule that is not the last (R327) -/

/-- The engine of a core after n bytes of the command at its head from offset off on, counted for a queue. -/
def Arch.granuleMoved (a : Arch) (queue off n : Nat) : Arch :=
  let b := a.updHead 3 fun e => match e.cmd with
    | .dma put q bs src dst _ => { e with cmd := .dma put q bs src dst (off + n), started := a.live }
    | _ => e
  ({ b with dma := { b.dma with tries := 0 } } : Arch).updDmaQ queue fun y => { y with bytes := y.bytes + n, faultWait := false }

theorem Dev.granuleDone_goesOn {d : Dev} {c : CoreId} {queue off n length : Nat} (late : Nat) (h : off + n < length) :
    d.granuleDone c queue off n length late
      = ((d.updArch c fun a => a.granuleMoved queue off n).bump 0x3102 2 n).askRemote c := if_neg (Nat.not_le.2 h)

/-- The command at the head resumes behind the granule, as long as its core lives. -/
theorem Arch.granuleMoved_queue {a : Arch} {e : QEntry} {rest : List QEntry} {put : Bool} {q : Nat} {bs : List Byte} {src dst : DmaEnd}
    {o : Nat} (queue off n : Nat) (hq : (vGet a.units 3 clearUnit).queue = e :: rest) (hcmd : e.cmd = .dma put q bs src dst o) :
    (vGet (a.granuleMoved queue off n).units 3 clearUnit).queue
      = { e with cmd := .dma put q bs src dst (off + n), started := a.live } :: rest := by
  unfold Arch.granuleMoved Arch.updDmaQ
  rw [Arch.updHead_eq _ hq, hcmd]
  dsimp only
  rw [vGet_vSet_same _ _ _ _ (by decide)]

/-- The granule's bytes are counted. -/
theorem Arch.granuleMoved_bytes (a : Arch) {queue : Nat} (off n : Nat) (h : queue < 8) :
    (vGet (a.granuleMoved queue off n).dma.queues queue clearDmaQ).bytes = (vGet a.dma.queues queue clearDmaQ).bytes + n := by
  have hdma (f : QEntry → QEntry) : (a.updHead 3 f).dma = a.dma := by unfold Arch.updHead; dsimp only; split <;> rfl
  unfold Arch.granuleMoved Arch.updDmaQ
  dsimp only
  rw [vGet_vSet_same _ _ _ _ h, hdma]

/-! ### The statement -/

section
variable {s : State} {c : CoreId} {d : Dev} (hs : clocked s)
include hs

theorem dmaCommandStart_gives (h : s.dev.cleared.dmaStart c = d) : gives (.dmaCommandStart c) s (d.rerunDone c) :=
  gives_of_onDev hs (exec_dmaCommandStart c s) (by rw [h])

theorem dmaGranuleComplete_gives {ge : GranuleRes} (h : s.dev.cleared.granule c ge.ends ge.late = d) :
    gives (.dmaGranuleComplete c ge) s (d.rerunDone c) :=
  gives_of_onDev hs (exec_dmaGranuleComplete c ge s) (by rw [h])

end

/-- Settles O25: what starts a command, what moves a granule, and what a granule that is not the last leaves. -/
theorem dmaEngine : Obligations.DmaEngine := by
  intro s c e rest put q bs src dst off n hs hq hcmd hn
  refine ⟨fun hwaits hlive hcheck => ?_, fun hwaits hlive hcheck => ?_, ?_, fun d late queue hmore hq' hqueue => ?_⟩
  · exact dmaCommandStart_gives hs (Dev.dmaStart_runs (d := s.dev.cleared) hq hcmd hwaits hlive hcheck)
  · exact dmaCommandStart_gives hs (Dev.dmaStart_ends (d := s.dev.cleared) hq hcmd hwaits hlive hcheck)
  · intro ctx remote retries transient late pages used data d hctx hruns hstarted hpages hready hused hblocks hlocal hread hwrite
    refine dmaGranuleComplete_gives hs ?_
    calc s.dev.cleared.granule c (.moved remote retries transient) late
        = used.granuleMoves c ctx (s.dev.ctx ctx) e (dmaDesc bs) src dst off n remote late := by
          rw [hused]; exact Dev.granule_moves (d := s.dev.cleared) hq hcmd hctx hruns hstarted hn hpages hready
      _ = d.granuleDone c e.cmd.dmaQueue off n (dmaDesc bs).length late := Dev.granuleMoves_done late hblocks hlocal hread hwrite
      _ = d.granuleDone c q off n (dmaDesc bs).length late := by rw [hcmd]; rfl
  · rw [Dev.granuleDone_goesOn late hmore, Dev.arch_askRemote, Dev.arch_bump, Dev.arch_updArch, (Dev.askRemote_rest _ c).2]
    exact ⟨Arch.granuleMoved_queue queue off n hq' hcmd, Arch.granuleMoved_bytes _ off n hqueue, by rw [Dev.bump_frame]; rfl⟩

end Sys2Proof.Machine
end

section
/-! The fault fills under way outlive every entry, exit and park of a context, and what follows from them (R30, R199, R317, R347 to R350, R382). -/

namespace Sys2Proof.Machine

theorem foldl_t2 {α : Type} {f : Dev → α → Dev} (h : ∀ d x, (f d x).t2 = d.t2) (l : List α) {d e : Dev} (he : d.t2 = e.t2) :
    (l.foldl f d).t2 = e.t2 :=
  (foldl_unchanged Dev.t2 h l d).trans he

theorem foldl_fills {α : Type} {f : Dev → α → Dev} (h : ∀ d x, (f d x).t2.fills = d.t2.fills) (l : List α) (d : Dev) :
    (l.foldl f d).t2.fills = d.t2.fills :=
  foldl_unchanged (fun d : Dev => d.t2.fills) h l d

theorem fills_ite {p : Prop} [Decidable p] {a b d : Dev} (ha : a.t2.fills = d.t2.fills) (hb : b.t2.fills = d.t2.fills) :
    (if p then a else b).t2.fills = d.t2.fills := by
  split
  · exact ha
  · exact hb

/-! ### Counters, events, frames and packets -/

@[simp] theorem Dev.t2_bump (d : Dev) (i s n : Nat) : (d.bump i s n).t2 = d.t2 := by rw [Dev.bump_frame]

@[simp] theorem Dev.t2_raised (d : Dev) (code : Code) : (d.raised code).t2 = d.t2 := Dev.t2_bump ..

@[simp] theorem Dev.t2_eventCtx (d : Dev) (n : Nat) (code : Code) (unit kind d0 d1 : Nat) : (d.eventCtx n code unit kind d0 d1).t2 = d.t2 := by
  obtain ⟨_, _, _, h⟩ := d.eventCtx_frame n code unit kind d0 d1
  rw [h]

@[simp] theorem Dev.t2_eventCore (d : Dev) (c : CoreId) (code : Code) (unit kind d0 d1 : Nat) : (d.eventCore c code unit kind d0 d1).t2 = d.t2 := by
  obtain ⟨_, _, _, h⟩ := d.eventCore_frame c code unit kind d0 d1
  rw [h]

@[simp] theorem Dev.t2_linkSend (d : Dev) (n : Nat) (f : LinkFrame) : (d.linkSend n f).t2 = d.t2 := by
  obtain ⟨_, _, h⟩ := d.linkSend_frame n f
  rw [h]

@[simp] theorem Dev.t2_sendMgmt (d : Dev) (dev kind srcCtx dstCtx step relIdx : Nat) (p : LinkPay) :
    (d.sendMgmt dev kind srcCtx dstCtx step relIdx p).t2 = d.t2 := by
  obtain ⟨_, _, _, h⟩ := d.sendMgmt_frame dev kind srcCtx dstCtx step relIdx p
  rw [h]

@[simp] theorem Dev.t2_putPackets (d : Dev) (c : CoreId) (ps : List Packet) : (d.putPackets c ps).t2 = d.t2 := by
  rw [Dev.putPackets_spec]

theorem Dev.t2_stationTakes (d : Dev) (h : PktHead) : (d.stationTakes h).t2 = d.t2 := by
  unfold Dev.stationTakes
  split
  · rfl
  · dsimp only
    split
    · split
      · exact Dev.t2_linkSend ..
      · exact Dev.t2_bump ..
    · split
      · exact Dev.t2_bump ..
      · rfl

theorem Dev.t2_routerGrants (c : CoreId) (fuel : Nat) (d : Dev) : (Dev.routerGrants c fuel d).t2 = d.t2 := by
  induction fuel generalizing d with
  | zero => rfl
  | succ fuel ih =>
    unfold Dev.routerGrants
    split
    · rfl
    · dsimp only
      split
      · exact (ih _).trans (Dev.t2_stationTakes ..)
      · exact ih _

theorem Dev.t2_routersGo (d : Dev) : d.routersGo.t2 = d.t2 :=
  foldl_unchanged Dev.t2 (fun d k => Dev.t2_routerGrants (coreOfKey k) 27 d) _ _

/-! ### Rings, slots and cores -/


theorem Dev.t2_giveBack (d : Dev) (c : CoreId) (src : Sender) (queue inc : Nat) (closed mcast : Bool) (units : Nat) :
    (d.giveBack c src queue inc closed mcast units).t2 = d.t2 := by
  unfold Dev.giveBack
  split
  · rfl
  · split
    · exact Dev.t2_putPackets ..
    · rfl

theorem Dev.t2_emptyRing (d : Dev) (c : CoreId) (q : Nat) : (d.emptyRing c q).t2 = d.t2 := by
  refine (Dev.t2_bump ..).trans (foldl_unchanged Dev.t2 (fun d s => ?_) _ d)
  exact Dev.t2_giveBack ..

theorem Dev.t2_updMsg (d : Dev) (c : CoreId) (f : MsgUnit → MsgUnit) : (d.updMsg c f).t2 = d.t2 := rfl

theorem Dev.t2_closeRings (d : Dev) (c : CoreId) : (d.closeRings c).t2 = d.t2 := by
  refine foldl_unchanged Dev.t2 (fun d q => ?_) _ d
  unfold Dev.closeRing
  dsimp only
  split
  · exact Dev.t2_emptyRing ..
  · rfl

theorem Dev.t2_broomRetire (d : Dev) (c : CoreId) (slot : Nat) : (d.broomRetire c slot).t2 = d.t2 := by
  unfold Dev.broomRetire
  refine foldl_t2 (fun d m => ?_) _ rfl
  rw [Dev.t2_eventCore, Dev.t2_bump]
  unfold Dev.resink
  split
  · exact Dev.t2_giveBack ..
  · exact Dev.t2_giveBack ..

theorem Dev.t2_installQueues (d : Dev) (c : CoreId) (slot : Nat) : (d.installQueues c slot).t2 = d.t2 := by
  unfold Dev.installQueues
  refine Eq.trans (Dev.t2_updMsg ..) (foldl_t2 (fun d q => ?_) _ rfl)
  unfold Dev.installRing
  split
  · rfl
  · exact Dev.t2_emptyRing ..

theorem Dev.t2_emptyLoading (d : Dev) (cores : List CoreId) : (d.emptyLoading cores).t2 = d.t2 := by
  refine (foldl_unchanged Dev.t2 (fun d c => ?_) cores _).trans (Dev.t2_routersGo _)
  refine foldl_unchanged Dev.t2 (fun d i => ?_) _ d
  split
  · rfl
  · rfl

theorem Dev.t2_dropGearLoad (d : Dev) (n : Nat) : (d.dropGearLoad n).t2 = d.t2 := by
  unfold Dev.dropGearLoad
  split
  · rfl
  · exact Dev.t2_emptyLoading ..

theorem Dev.t2_leaveCore (d : Dev) (n : Nat) (keepMem : Bool) (c : CoreId) : (d.leaveCore n keepMem c).t2 = d.t2 := by
  unfold Dev.leaveCore
  split
  · rfl
  · rw [Dev.t2_bump]
    show (if keepMem then d else (List.range 4).foldl (fun d i => d.broomRetire c i) (d.closeRings c)).t2 = d.t2
    split
    · rfl
    · exact (foldl_unchanged Dev.t2 (fun d i => Dev.t2_broomRetire d c i) _ _).trans (Dev.t2_closeRings ..)

theorem Dev.t2_localWrite {d e : Dev} {c : CoreId} {addr : Nat} {bs : List Byte} (h : d.localWrite c addr bs = some e) : e.t2 = d.t2 := by
  unfold Dev.localWrite at h
  split at h
  · obtain ⟨_, _, rfl⟩ := Option.map_eq_some_iff.1 h; rfl
  · obtain ⟨_, _, rfl⟩ := Option.map_eq_some_iff.1 h; rfl
  · obtain rfl := Option.some.inj h; rfl
  · obtain rfl := Option.some.inj h; rfl

theorem Dev.t2_writeContents (d : Dev) (m : Image) (cores : List CoreId) : (d.writeContents m cores).t2 = d.t2 := by
  refine foldl_unchanged Dev.t2 (fun d r => ?_) _ d
  refine foldl_unchanged Dev.t2 (fun d c => ?_) _ d
  cases h : d.localWrite c r.addr r.bytes with
  | none => rfl
  | some e => exact Dev.t2_localWrite h

theorem Dev.t2_shadowEntry (d : Dev) (cores : List CoreId) : (d.shadowEntry cores).t2 = d.t2 := by
  refine foldl_t2 (fun d c => ?_) _ rfl
  rfl

theorem Dev.t2_enterCore (d : Dev) (n : Nat) (m : Image) (r : RegionRec) (c : CoreId) : (d.enterCore n m r c).t2 = d.t2 := by
  unfold Dev.enterCore
  dsimp only
  rw [Dev.t2_bump, Dev.t2_installQueues]
  rfl

theorem Dev.t2_scanIn (d : Dev) (n region : Nat) (c : CoreId) (s : Saved) (mem : Option LocalMem) (shadow : Bool) :
    (d.scanIn n region c s mem shadow).t2 = d.t2 := by
  unfold Dev.scanIn
  dsimp only
  rw [Dev.t2_bump, Dev.t2_bump]
  rfl

/-! ### States, power and steps of contexts (R346, R348, R372) -/

theorem Dev.t2_clockRise (d : Dev) : d.clockRise.t2 = d.t2 := by
  unfold Dev.clockRise
  split
  · rfl
  · rfl

@[simp] theorem Dev.t2_toState (d : Dev) (n : Nat) (st : CtxState) : (d.toState n st).t2 = d.t2 := by
  unfold Dev.toState
  dsimp only
  split
  · rfl
  · exact (Dev.t2_clockRise _).trans (foldl_unchanged Dev.t2 (fun d p => Dev.t2_sendMgmt ..) _ _)

@[simp] theorem Dev.t2_powerCells (d : Dev) (cells : List (Nat × Nat)) (mode : Nat) : (d.powerCells cells mode).t2 = d.t2 := by
  refine foldl_unchanged Dev.t2 (fun d c => ?_) _ d
  rfl

@[simp] theorem Dev.t2_begin_ (d : Dev) (n num : Nat) : (d.begin_ n num).t2 = d.t2 := by
  unfold Dev.begin_
  dsimp only
  split
  · rfl
  · obtain ⟨_, _, _, h⟩ := Dev.staggered_frame _ n num _
    rw [h]
    refine foldl_unchanged Dev.t2 (fun d c => ?_) _ _
    rfl

@[simp] theorem Dev.t2_policyEvents (d : Dev) (k : Nat) : (d.policyEvents k).t2 = d.t2 := by
  unfold Dev.policyEvents
  split
  · rfl
  · rfl

theorem Dev.t2_staggered (d : Dev) (n num : Nat) (cs : List CoreId) : (d.staggered n num cs).t2 = d.t2 := by
  obtain ⟨_, _, _, h⟩ := d.staggered_frame n num cs
  rw [h]

/-! ### Entry (R199, R349, R352) -/

theorem Dev.t2_enterNow (d : Dev) (n : Nat) : (d.enterNow n).t2 = d.t2 := by
  unfold Dev.enterNow
  dsimp only
  refine foldl_t2 (fun d r => ?_) _ (foldl_t2 (fun d r => Dev.t2_staggered ..) _ ((Dev.t2_toState ..).trans ?_))
  · split
    · rfl
    · exact Dev.t2_begin_ ..
  · refine foldl_t2 (fun d r => ?_) _ rfl
    refine (Dev.t2_shadowEntry ..).trans ((Dev.t2_writeContents ..).trans (foldl_t2 (fun d c => ?_) _ rfl))
    split
    · exact Dev.t2_scanIn ..
    · exact Dev.t2_enterCore ..

/-! ### Exit (R190, R199, R298, R346, R347, R382) -/

theorem Dev.fills_release (d : Dev) (n : Nat) (keepMem : Bool) : (d.release n keepMem).t2.fills = d.t2.fills := by
  unfold Dev.release
  dsimp only
  rw [Dev.t2_powerCells]
  refine (foldl_fills (fun d c => congrArg Tier2.fills (d.t2_leaveCore n keepMem c)) _ _).trans ?_
  exact congrArg Tier2.fills (d.t2_dropGearLoad n)

theorem Dev.t2_wipe (d : Dev) (n : Nat) : (d.wipe n).t2 = d.t2 := by
  refine foldl_t2 (fun d c => ?_) _ rfl
  split
  · rfl
  · rfl

theorem Dev.t2_contentsLeave (d : Dev) (n : Nat) : (d.contentsLeave n).t2 = d.t2 :=
  (Dev.t2_powerCells ..).trans (Dev.t2_wipe d n)

theorem Dev.t2_dropReplay (d : Dev) (n num : Nat) : (d.dropReplay n num).t2 = d.t2 := by
  unfold Dev.dropReplay
  split
  · dsimp only
    split
    · exact Dev.t2_powerCells ..
    · rfl
  · rfl

theorem Dev.fills_toFailed (d : Dev) (n : Nat) (code : Code) : (d.toFailed n code).t2.fills = d.t2.fills := by
  have hreplays : (d.dropReplays n).t2.fills = d.t2.fills := congrArg Tier2.fills (foldl_t2 (fun d r => Dev.t2_dropReplay ..) _ rfl)
  have hcells (e : Dev) (p : Prop) [Decidable p] (he : e.t2.fills = d.t2.fills) :
      (if p then e.release n false else e).t2.fills = d.t2.fills := fills_ite ((e.fills_release n false).trans he) he
  unfold Dev.toFailed
  dsimp only
  refine fills_ite ((congrArg Tier2.fills (Dev.t2_contentsLeave ..)).trans ?_) ?_
  · exact (congrArg Tier2.fills (Dev.t2_toState ..)).trans (hcells _ _ (fills_ite hreplays hreplays))
  · exact (congrArg Tier2.fills (Dev.t2_toState ..)).trans (hcells _ _ (fills_ite hreplays hreplays))

theorem Dev.fills_enter (d : Dev) (n : Nat) : (d.enter n).t2.fills = d.t2.fills := by
  unfold Dev.enter
  dsimp only
  split
  · rw [Dev.t2_policyEvents, Dev.t2_eventCtx, Dev.fills_toFailed]
  · rw [Dev.t2_enterNow]

/-! ### Frames and bytes of pages (R308, R318, R320, R460) -/

theorem Dev.fills_takeFrames (d : Dev) (n f k : Nat) : (d.takeFrames n f k).t2.fills = d.t2.fills := rfl

theorem Dev.fills_giveFrames (d : Dev) (n f k : Nat) : (d.giveFrames n f k).t2.fills = d.t2.fills :=
  foldl_fills (f := Dev.freeFrame) (fun _ _ => rfl) _ d

theorem Dev.fills_writePlace (d : Dev) (p : PagePlace) (bs : List Byte) (n : Nat) : (d.writePlace p bs n).t2.fills = d.t2.fills := by
  cases p with
  | tier2 pa => unfold Dev.writePlace Dev.writeT2; rw [Dev.t2_bump]
  | near c off => rfl
  | peer dev addr => rfl
  | host window offset => rfl

theorem Dev.fills_needFrame (d : Dev) (n page : Nat) : (d.needFrame n page).t2.fills = d.t2.fills := by
  unfold Dev.needFrame
  split
  · rfl
  · split
    · rfl
    · dsimp only
      split
      · rfl
      · rfl

theorem Dev.fills_fillVa (d : Dev) (n va : Nat) (bs : List Byte) : (d.fillVa n va bs).t2.fills = d.t2.fills := by
  refine foldl_unchanged (fun q : Dev × List Byte => q.1.t2.fills) (fun q p => ?_) _ (d, bs)
  dsimp only
  split
  · exact (Dev.fills_writePlace ..).trans (Dev.fills_needFrame ..)
  · exact Dev.fills_needFrame ..

theorem Dev.fills_restore (d : Dev) (n : Nat) (k : Ckpt) : (d.restore n k).t2.fills = d.t2.fills := by
  unfold Dev.restore
  dsimp only
  refine (foldl_fills (fun d p => congrArg Tier2.fills (Dev.t2_sendMgmt ..)) _ _).trans ?_
  refine (foldl_fills (fun d p => Dev.fills_fillVa ..) _ _).trans ?_
  exact foldl_fills (fun d f => Dev.fills_giveFrames ..) _ d

theorem Dev.fills_invalidate (d : Dev) (n page : Nat) : (d.invalidate n page).t2.fills = d.t2.fills := by
  unfold Dev.invalidate
  rw [Dev.t2_bump]

theorem Dev.fills_placeBad (d : Dev) (l : Leaf) (bad : List Nat) : (d.placeBad l bad).t2.fills = d.t2.fills := by
  refine foldl_fills (fun d i => ?_) bad d
  split
  · rfl
  · rfl
  · rfl

theorem Dev.fills_movePart (d : Dev) (n page home target : Nat) (remote : List Byte) :
    (d.movePart n page home target remote).t2.fills = d.t2.fills := by
  unfold Dev.movePart
  split
  · rfl
  · dsimp only
    split
    · exact (Dev.fills_placeBad ..).trans (Dev.fills_writePlace ..)
    · refine (Dev.fills_giveFrames ..).trans ?_
      split
      · exact (Dev.fills_placeBad ..).trans (Dev.fills_writePlace ..)
      · refine (congrArg Tier2.fills (Dev.t2_bump ..)).trans ?_
        exact (Dev.fills_placeBad ..).trans (Dev.fills_writePlace ..)

theorem Dev.fills_demote (d : Dev) (n : Nat) (f : CoreId → Bool) : (d.demote n f).t2.fills = d.t2.fills := by
  refine foldl_fills (fun d p => ?_) _ d
  split
  · rfl
  · rw [Dev.t2_bump, Dev.fills_movePart, Dev.fills_takeFrames, Dev.fills_invalidate]

theorem Dev.fills_tryEnter (d : Dev) (n : Nat) : (d.tryEnter n).t2.fills = d.t2.fills := by
  unfold Dev.tryEnter
  dsimp only
  split
  · rfl
  · split
    · exact Dev.fills_enter ..
    · split
      · split
        · exact (Dev.fills_enter ..).trans (Dev.fills_restore ..)
        · rfl
      · rw [Dev.t2_sendMgmt]

/-! ### Stand-ins and retirements (R30, R382, R412) -/

theorem Dev.t2_testPower (d : Dev) (n : Nat) (on : Bool) : (d.testPower n on).t2 = d.t2 := by
  refine foldl_t2 (fun d k => ?_) _ rfl
  rfl

theorem Dev.t2_groomEnd (d : Dev) : d.groomEnd.t2 = d.t2 := by
  unfold Dev.groomEnd
  split
  · rfl
  · refine (Dev.t2_bump ..).trans ?_
    dsimp only
    split
    · exact Dev.t2_testPower ..
    · rfl

theorem Dev.fills_tryStandin (d : Dev) (n num : Nat) : (d.tryStandin n num).t2.fills = d.t2.fills := by
  have hcleared (l : List Nat) (e : Dev) :
      (l.foldl (fun d m => (d.demote m fun _ => true).updCtx m fun x => { x with copying := true }) e).t2.fills = e.t2.fills := by
    refine foldl_fills (fun d m => ?_) l e
    exact d.fills_demote m _
  have hgroomed {p : Prop} [Decidable p] : (if p then d.groomEnd else d).t2.fills = d.t2.fills :=
    fills_ite (congrArg Tier2.fills (Dev.t2_groomEnd d)) rfl
  unfold Dev.tryStandin
  split
  · dsimp only
    refine fills_ite rfl ?_
    split
    · rfl
    · refine fills_ite ?_ ?_
      · rw [Dev.t2_begin_, Dev.t2_bump, Dev.t2_bump, Dev.t2_powerCells]
        exact (hcleared _ _).trans (fills_ite hgroomed hgroomed)
      · exact (hcleared _ _).trans (fills_ite hgroomed hgroomed)
  · rfl

theorem Dev.t2_retireNow (d : Dev) (py : Nat) : (d.retireNow py).t2 = d.t2 := by
  unfold Dev.retireNow Dev.flipTo
  rfl

theorem Dev.t2_retireOver (d : Dev) (py : Nat) : (d.retireOver py).t2 = d.t2 := by
  have hpower (l : List Nat) (mode : Nat) (e : Dev) : (l.foldl (fun d n => d.powerCells (d.ctx n).cells mode) e).t2 = e.t2 :=
    foldl_unchanged Dev.t2 (fun d n => Dev.t2_powerCells ..) l e
  unfold Dev.retireOver
  dsimp only
  refine foldl_t2 (fun d n => foldl_t2 (fun d r => ?_) _ rfl) _ ?_
  · split
    · rfl
    · exact Dev.t2_begin_ ..
  · exact (hpower ..).trans ((hpower ..).trans ((Dev.t2_retireNow ..).trans (hpower ..)))

theorem Dev.fills_cellsFreed (d : Dev) : d.cellsFreed.t2.fills = d.t2.fills := by
  have hplaced (e : Dev) : (e.ctxs.foldl (fun d p => p.2.regions.foldl (fun d r => d.tryStandin p.1 r.num) d) e).t2.fills = e.t2.fills :=
    foldl_fills (fun d p => foldl_fills (fun d r => Dev.fills_tryStandin ..) _ d) _ e
  have hentered : (d.ctxs.foldl (fun d p => d.tryEnter p.1) d).t2.fills = d.t2.fills :=
    foldl_fills (fun d p => Dev.fills_tryEnter ..) _ d
  unfold Dev.cellsFreed
  dsimp only
  split
  · exact fills_ite ((hplaced _).trans hentered) ((congrArg Tier2.fills (Dev.t2_retireOver ..)).trans ((hplaced _).trans hentered))
  · exact (hplaced _).trans hentered

/-! ### Parks (R328, R350, R457) -/

theorem Dev.t2_capture (d : Dev) (n : Nat) : (d.capture n).t2 = d.t2 := by
  unfold Dev.capture
  dsimp only
  refine foldl_t2 (fun d r => ?_) _ rfl
  split
  · rfl
  · exact Dev.t2_begin_ ..

theorem Dev.fills_allParked (d : Dev) (n : Nat) : (d.allParked n).t2.fills = d.t2.fills := by
  have hcaptured (p : Prop) [Decidable p] : (if p then d.capture n else d).t2.fills = d.t2.fills :=
    fills_ite (congrArg Tier2.fills (Dev.t2_capture ..)) rfl
  have hresident (e : Dev) (p : Prop) [Decidable p] : (if p then e.toState n .resident else e).t2.fills = e.t2.fills :=
    fills_ite (congrArg Tier2.fills (Dev.t2_toState ..)) rfl
  unfold Dev.allParked
  dsimp only
  exact fills_ite rfl (fills_ite ((Dev.fills_cellsFreed _).trans ((hresident ..).trans (hcaptured _))) ((hresident ..).trans (hcaptured _)))

theorem Dev.fills_parkOrBegin (d : Dev) (n num : Nat) : (d.parkOrBegin n num).t2.fills = d.t2.fills := by
  unfold Dev.parkOrBegin
  dsimp only
  exact fills_ite (fills_ite (Dev.fills_allParked ..) rfl) (congrArg Tier2.fills (Dev.t2_begin_ ..))

theorem Dev.fills_rerunDone (d : Dev) (c : CoreId) : (d.rerunDone c).t2.fills = d.t2.fills := by
  unfold Dev.rerunDone
  dsimp only
  split
  · rfl
  · split
    · rfl
    · split
      · rfl
      · exact Dev.fills_parkOrBegin ..

end Sys2Proof.Machine
end

section
/-! O26: walks, faults, fills and migrations (R313, R316, R317, R319). -/

namespace Sys2Proof.Machine

theorem exec_tableWalkComplete (c : CoreId) (va : Nat) (write : Bool) (s : State) :
    exec (.tableWalkComplete c va write false) s = s.onDev fun d => d.walk c (va / 65536) write := rfl

theorem exec_faultFillComplete (n page frame : Nat) (data : PageData) (s : State) :
    exec (.faultFillComplete n page frame data) s = s.onDev fun d => d.fillComplete n page frame data := rfl

theorem exec_remoteFetchTimeout (n page : Nat) (s : State) : exec (.remoteFetchTimeout n page) s
    = s.onDev fun d => ((d.fetchTimeout n page).coresOf n).foldl Dev.rerunDone (d.fetchTimeout n page) := rfl

theorem exec_migrateGo (s : State) : exec .migrateGo s = s.onDev fun d => d.migrateGo := rfl

theorem exec_migrationComplete (n : Nat) (data : PageData) (s : State) :
    exec (.migrationComplete n data) s = s.onDev fun d => d.migrationComplete n data := rfl

/-! ### Contexts that a command leaves alone, and leaves (R311, R314, R478) -/

theorem statusChanged_self (x : Ctx) : statusChanged x x = false := by simp [statusChanged]

/-- Values of a map that are changed key by key, at a key where nothing changes. -/
theorem nmGet_map_other {α : Type} (m : NMap α) (f : Nat × α → Nat × α) (hk : ∀ p, (f p).1 = p.1) {i : Nat} (h : ∀ v, f (i, v) = (i, v)) :
    nmGet (m.map f) i = nmGet m i := by
  induction m with
  | nil => rfl
  | cons p m ih =>
    obtain ⟨k, v⟩ := p
    by_cases hki : k = i
    · subst hki
      simp [nmGet, h]
    · rw [List.map_cons]
      rcases hf : f (k, v) with ⟨k', v'⟩
      obtain rfl : k' = k := by simpa [hf] using hk (k, v)
      simp [nmGet, hki, ih]

/-- Closing a command leaves a context that the command has left. -/
theorem State.closing_ctx_unchanged {s : State} {d : Dev} {m : Nat} (h : d.ctx m = s.dev.ctx m) :
    (s.closing d).dev.ctx m = s.dev.ctx m := by
  have hsame : (nmGet d.ctxs m).getD clearCtx = (nmGet s.dev.ctxs m).getD clearCtx := h
  have hctxs : (s.closing d).dev.ctxs = (d.statusNoted s.dev).ctxs := rfl
  rw [← h]
  unfold Dev.ctx
  rw [hctxs]
  unfold Dev.statusNoted
  dsimp only
  rw [statusUpdates_frame]
  dsimp only
  rw [nmGet_map_other _ _ (by intro p; split <;> rfl)]
  intro v
  rw [if_neg]
  simp [hsame, statusChanged_self]

theorem State.closing_leaf (s : State) (d : Dev) (n page : Nat) : ((s.closing d).dev.ctx n).leaf page = (d.ctx n).leaf page := by
  obtain ⟨_, h⟩ := s.closing_ctx d n
  rw [h]
  rfl

theorem Ctx.leaf_withPt (x : Ctx) (pt : NMap Leaf) (q : Nat) :
    ({ x with pt := pt } : Ctx).leaf q = (nmGet pt q).or ((x.segOf (q * 65536) 65536).map fun s => s.leaf q) := by
  unfold Ctx.leaf
  dsimp only
  cases nmGet pt q
  · rfl
  · rfl

/-- The table map of a context with the leaves of n pages from p0 changed. -/
def Ctx.rewritten (x : Ctx) (f : Nat → Leaf → Leaf) (p0 n : Nat) (pt : NMap Leaf) : NMap Leaf :=
  (List.range n).foldl (fun pt i => match x.leaf (p0 + i) with
    | some y => nmSet pt (p0 + i) (f i y)
    | none => pt) pt

theorem Ctx.updLeaves_eq {x : Ctx} {page : Nat} {l : Leaf} (f : Nat → Leaf → Leaf) (hl : x.leaf page = some l) :
    x.updLeaves page f = { x with pt := x.rewritten f (l.span page).1 (l.span page).2 x.pt } := by
  unfold Ctx.updLeaves
  simp only [hl]
  rfl

theorem Ctx.nmGet_rewritten (x : Ctx) (f : Nat → Leaf → Leaf) (p0 n : Nat) (pt : NMap Leaf) (q : Nat) : nmGet (x.rewritten f p0 n pt) q
    = if p0 ≤ q ∧ q < p0 + n then ((x.leaf q).map (f (q - p0))).or (nmGet pt q) else nmGet pt q := by
  induction n with
  | zero => rw [if_neg (by omega)]; rfl
  | succ n ih =>
    have hlast : x.rewritten f p0 (n + 1) pt = match x.leaf (p0 + n) with
        | some y => nmSet (x.rewritten f p0 n pt) (p0 + n) (f n y)
        | none => x.rewritten f p0 n pt := by
      unfold Ctx.rewritten
      rw [List.range_succ, List.foldl_append]
      rfl
    rw [hlast]
    by_cases hq : q = p0 + n
    · subst hq
      rw [if_pos (by omega), Nat.add_sub_cancel_left]
      cases x.leaf (p0 + n) with
      | none => rw [Option.map_none, Option.none_or, ih, if_neg (by omega)]
      | some y => rw [Option.map_some, Option.some_or]; exact nmGet_nmSet_same ..
    · have hrange : (p0 ≤ q ∧ q < p0 + (n + 1)) ↔ p0 ≤ q ∧ q < p0 + n := by omega
      simp only [hrange, ← ih]
      cases x.leaf (p0 + n) with
      | none => rfl
      | some y => exact nmGet_nmSet_other _ _ _ _ hq

/-- A part of the page that is rewritten has its changed leaf. -/
theorem Ctx.leaf_updLeaves {x : Ctx} {page q : Nat} {l : Leaf} (f : Nat → Leaf → Leaf) (hl : x.leaf page = some l)
    (hlo : (l.span page).1 ≤ q) (hhi : q < (l.span page).1 + (l.span page).2) :
    (x.updLeaves page f).leaf q = (x.leaf q).map (f (q - (l.span page).1)) := by
  rw [x.updLeaves_eq f hl, Ctx.leaf_withPt, Ctx.nmGet_rewritten, if_pos ⟨hlo, hhi⟩]
  cases hq : x.leaf q with
  | none => rw [Option.map_none, Option.none_or, ← x.leaf_withPt x.pt]; exact hq
  | some y => rfl

/-- The page that a leaf describes holds the part the leaf is listed for. -/
theorem Leaf.mem_span (l : Leaf) (page : Nat) : (l.span page).1 ≤ page ∧ page < (l.span page).1 + (l.span page).2 := by
  unfold Leaf.span
  split
  · dsimp only; omega
  · exact ⟨Nat.le_refl _, Nat.lt_succ_self _⟩

/-! ### What asking elsewhere leaves of contexts (R321) -/

theorem Dev.ctx_crosses_other (d : Dev) (link : Nat) {n m : Nat} (h : m ≠ n) : (d.crosses link n).ctx m = d.ctx m := by
  unfold Dev.crosses
  split
  · rfl
  · rw [Dev.ctx_updCtx, if_neg h]

/-- Asking for bytes of a context's page elsewhere changes no other context. -/
theorem Dev.ctx_ask_other (d : Dev) {n m : Nat} (page : Nat) (p : PagePlace) (k : Nat) (h : m ≠ n) :
    (d.ask n page p k).ctx m = d.ctx m := by
  unfold Dev.ask
  split
  · unfold Dev.sendFar
    split
    · exact Dev.ctx_bump ..
    · next link _ =>
      obtain ⟨_, _, hsent⟩ := (d.crosses link n).linkSend_frame link _
      rw [hsent]
      exact d.ctx_crosses_other link h
  · rfl
  · rfl

@[simp] theorem Dev.core_ask (d : Dev) (n page : Nat) (p : PagePlace) (k : Nat) (e : CoreId) : (d.ask n page p k).core e = d.core e := by
  obtain ⟨_, _, _, _, h⟩ := d.ask_frame n page p k
  rw [h]; rfl

@[simp] theorem Dev.t2_ask (d : Dev) (n page : Nat) (p : PagePlace) (k : Nat) : (d.ask n page p k).t2 = d.t2 := by
  obtain ⟨_, _, _, _, h⟩ := d.ask_frame n page p k
  rw [h]

/-! ### Walks (R316, R317) -/

/-- The device after a walk has found a page present: the page has been accessed, and perhaps written. -/
def Dev.accessed (d : Dev) (n page : Nat) (write : Bool) : Dev :=
  (d.bump 0x3101 8 1).updCtx n fun x => x.updLeaves page fun _ y => { y with accessed := true, dirty := y.dirty || write }

/-- The device after a walk of a core has found a page neither present nor busy: the page is busy, and the core's command waits. -/
def Dev.faulted (d : Dev) (c : CoreId) (n page : Nat) : Dev :=
  ((d.bump 0x3101 8 1).updArch c Arch.faultWait).updCtx n fun x => x.updLeaves page fun _ y => { y with busy := true }

theorem Dev.t2_accessed (d : Dev) (n page : Nat) (write : Bool) : (d.accessed n page write).t2 = d.t2 := Dev.t2_bump ..

theorem Dev.ctx_accessed_other (d : Dev) {n m : Nat} (page : Nat) (write : Bool) (h : m ≠ n) : (d.accessed n page write).ctx m = d.ctx m :=
  (Dev.ctx_updCtx ..).trans ((if_neg h).trans (Dev.ctx_bump ..))

theorem Dev.ctx_faulted_other (d : Dev) (c : CoreId) {n m : Nat} (page : Nat) (h : m ≠ n) : (d.faulted c n page).ctx m = d.ctx m :=
  (Dev.ctx_updCtx ..).trans ((if_neg h).trans (Dev.ctx_bump ..))

theorem Dev.t2_faulted (d : Dev) (c : CoreId) (n page : Nat) : (d.faulted c n page).t2 = d.t2 := Dev.t2_bump ..

section
variable {d : Dev} {c : CoreId} {n page : Nat} {l : Leaf} (hctx : (d.core c).ctx = some n) (hl : (d.ctx n).leaf page = some l)
  (hbusy : l.busy = false) (hgood : ∀ pa ∈ (d.ctx n).walkPas page, pa / 4096 ∉ d.t2.badBlocks)
include hctx hl hbusy hgood

/-- A walk over tables that can be read fills the core's translation cache with a present page, and raises a fault for one that is not. -/
theorem Dev.walk_reads (write : Bool) : d.walk c page write = if l.valid then
      { d.accessed n page write with t2 := { (d.accessed n page write).t2 with
          tlb := tlbFill (d.accessed n page write).t2.tlb (ckey c) n (l.span page).1 write } }
    else Dev.ask { d.faulted c n page with t2 := { (d.faulted c n page).t2 with
      fills := (d.faulted c n page).t2.fills ++ [(n, (l.span page).1, 0)] } } n (l.span page).1 (l.place 0) 65536 := by
  have hread : (((d.bump 0x3101 8 1).ctx n).walkPas page).find? (fun pa => (d.bump 0x3101 8 1).t2.badBlocks.contains (pa / 4096)) = none := by
    rw [Dev.ctx_bump, Dev.t2_bump]
    exact List.find?_eq_none.2 fun pa hpa => by simpa using hgood pa hpa
  unfold Dev.walk
  simp only [hctx, hl, hread, hbusy, Bool.false_eq_true, if_false]
  cases l.valid <;> rfl

end

section
variable {s : State} {c : CoreId} {n va : Nat} {l : Leaf} (hs : clocked s) (hctx : (s.dev.core c).ctx = some n)
  (hl : (s.dev.ctx n).leaf (va / 65536) = some l) (hbusy : l.busy = false)
  (hgood : ∀ pa ∈ (s.dev.ctx n).walkPas (va / 65536), pa / 4096 ∉ s.dev.t2.badBlocks)
include hs hctx hl hbusy hgood

theorem tableWalkComplete_present (write : Bool) (hvalid : l.valid = true) : ∃ t, exec (.tableWalkComplete c va write false) s = .next t
    ∧ t.dev.t2 = { s.dev.t2 with tlb := tlbFill s.dev.t2.tlb (ckey c) n (l.span (va / 65536)).1 write }
    ∧ (∀ e, t.dev.core e = s.dev.core e) ∧ ∀ m, m ≠ n → t.dev.ctx m = s.dev.ctx m := by
  have hwalk := Dev.walk_reads (d := s.dev.cleared) hctx hl hbusy hgood write
  rw [if_pos hvalid] at hwalk
  refine ⟨_, (exec_tableWalkComplete c va write s).trans (onDev_gives hs), ?_, fun e => ?_, fun m hm => State.closing_ctx_unchanged ?_⟩
  · rw [State.closing_t2, hwalk, Dev.t2_accessed]; rfl
  · rw [State.closing_core, hwalk]; exact Dev.core_bump ..
  · rw [hwalk]; exact Dev.ctx_accessed_other _ _ _ hm

theorem tableWalkComplete_faults (write : Bool) (hvalid : l.valid = false) : ∃ t, exec (.tableWalkComplete c va write false) s = .next t
    ∧ t.dev.t2 = { s.dev.t2 with fills := s.dev.t2.fills ++ [(n, (l.span (va / 65536)).1, 0)] }
    ∧ sameCores s t c ∧ ∀ m, m ≠ n → t.dev.ctx m = s.dev.ctx m := by
  have hwalk := Dev.walk_reads (d := s.dev.cleared) hctx hl hbusy hgood write
  rw [if_neg (by simp [hvalid])] at hwalk
  refine ⟨_, (exec_tableWalkComplete c va write s).trans (onDev_gives hs), ?_, fun e he => ?_, fun m hm => State.closing_ctx_unchanged ?_⟩
  · rw [State.closing_t2, hwalk, Dev.t2_ask, Dev.t2_faulted]; rfl
  · rw [State.closing_core, hwalk, Dev.core_ask]
    exact (Dev.core_updArch ..).trans ((if_neg he).trans (Dev.core_bump ..))
  · rw [hwalk, Dev.ctx_ask_other _ _ _ _ hm]
    exact Dev.ctx_faulted_other _ _ _ hm

end

/-! ### Fills (R309, R317) -/

/-- Commands that wait for a page no longer wait: contexts and tier 2 stay. -/
theorem Dev.faultsOver_rest (d : Dev) (n page : Nat) : (d.faultsOver n page).ctxs = d.ctxs ∧ (d.faultsOver n page).t2 = d.t2 := by
  refine Prod.mk.inj (foldl_unchanged (fun d : Dev => (d.ctxs, d.t2)) (fun d c => ?_) _ d)
  dsimp only
  split
  · rfl
  · rfl

theorem Dev.ctx_faultsOver (d : Dev) (n page m : Nat) : (d.faultsOver n page).ctx m = d.ctx m := by
  unfold Dev.ctx
  rw [(d.faultsOver_rest n page).1]

/-- The device with the bytes of a page in the frame taken for it, and the leaf present there. -/
def Dev.filled (d : Dev) (n page frame : Nat) (bytes : List Byte) (f : Nat × Nat × Nat) : Dev :=
  let d := d.takeFrames n frame 1
  { d with t2 := { d.t2 with mem := memWrite d.t2.mem (frame * 65536) bytes, fills := d.t2.fills.erase f } }.updCtx n
    fun x => x.updLeaves page fun i y => { y with valid := true, home := 0, target := (frame + i) * 16, busy := false }

theorem Dev.t2_filled (d : Dev) (n page frame : Nat) (bytes : List Byte) (f : Nat × Nat × Nat) : (d.filled n page frame bytes f).t2
    = { d.t2 with mem := memWrite d.t2.mem (frame * 65536) bytes, fills := d.t2.fills.erase f, used := [frame] ++ d.t2.used } := rfl

/-- Bytes written at the length k, those that are missing as 0. -/
theorem memGet_memWrite_padded (m : Mem) (b a k : Nat) (data : List Byte) :
    memGet (memWrite m b ((data ++ List.replicate k 0#8).take k)) a
      = if b ≤ a ∧ a < b + k then data.getD (a - b) 0#8 else memGet m a := by
  have hlen : ((data ++ List.replicate k 0#8).take k).length = k := by simp
  rw [memGet_memWrite, hlen]
  refine if_ctx_congr Iff.rfl (fun h => ?_) fun _ => rfl
  have hlt : a - b < k := by omega
  rw [List.getD_eq_getElem?_getD, List.getD_eq_getElem?_getD, List.getElem?_take_of_lt hlt, List.getElem?_append]
  split
  · rfl
  · next hlong =>
    rw [List.getElem?_eq_none (Nat.not_lt.1 hlong), List.getElem?_replicate]
    split
    · rfl
    · rfl

theorem Dev.t2_readCounts (d : Dev) (retries : List Nat) (transient : Nat) : (d.readCounts retries transient).t2 = d.t2 := by
  unfold Dev.readCounts
  rw [Dev.t2_bump, Dev.t2_bump]

theorem Dev.ctx_readCounts (d : Dev) (retries : List Nat) (transient n : Nat) : (d.readCounts retries transient).ctx n = d.ctx n := by
  unfold Dev.readCounts
  rw [Dev.ctx_bump, Dev.ctx_bump]

section
variable {d : Dev} {n page frame : Nat} {data : List Byte} {retries : List Nat} {transient : Nat} {l : Leaf} {f : Nat × Nat × Nat}
  (hf : (d.t2.fills.find? fun f => f.1 = n && f.2.1 = page) = some f) (hl : (d.ctx n).leaf page = some l)
include hl

/-- The leaf of a filled page is present in its frame. -/
theorem Dev.leaf_filled (bytes : List Byte) (hsmall : l.large = false) : ((d.filled n page frame bytes f).ctx n).leaf page
    = some { l with valid := true, home := 0, target := frame * 16, busy := false } := by
  have hspan : l.span page = (page, 1) := by simp [Leaf.span, hsmall]
  have htaken : ((d.takeFrames n frame 1).ctx n).leaf page = some l := by
    unfold Dev.takeFrames
    rw [Dev.ctx_updCtx, if_pos rfl]
    exact hl
  have hrewritten := Ctx.leaf_updLeaves (fun i y => { y with valid := true, home := 0, target := (frame + i) * 16, busy := false }) htaken
    (l.mem_span page).1 (l.mem_span page).2
  rw [htaken, hspan, Nat.sub_self] at hrewritten
  unfold Dev.filled
  rw [Dev.ctx_updCtx, if_pos rfl]
  exact hrewritten

include hf in
/-- A page of a far or host backing, fetched without a failed block, is filled into the frame. -/
theorem Dev.fillComplete_fetched (hsmall : l.large = false) (hhome : l.home = 2 ∨ l.home = 3) (hfree : d.framesFree frame 1 = true) :
    d.fillComplete n page frame ⟨data, retries, transient, none⟩
      = ((((d.readCounts retries transient).filled n page frame ((data ++ List.replicate 65536 0#8).take 65536) f).faultsOver n page).bump
          0x3101 6 (b2n !l.pinned)).bump 0x3101 7 (b2n !l.pinned) := by
  have hspan : l.span page = (page, 1) := by simp [Leaf.span, hsmall]
  have hgood : (d.readCounts retries transient).fillBad l 1 none = none := by simp [Dev.fillBad, hhome]
  have hremote : (l.home = 2 || l.home = 3) = true := by simpa using hhome
  unfold Dev.fillComplete
  simp only [hf, hl, hspan, hfree, hgood, hremote, Bool.not_true, Bool.false_eq_true, if_false, if_true, Bool.true_and, Nat.one_mul]
  rfl
end

theorem faultFillComplete_fills {s : State} {n page frame : Nat} {data : List Byte} {l : Leaf} {f : Nat × Nat × Nat} (hs : clocked s)
    (retries : List Nat) (transient : Nat) (hf : (s.dev.t2.fills.find? fun f => f.1 = n && f.2.1 = page) = some f)
    (hl : (s.dev.ctx n).leaf page = some l) (hsmall : l.large = false) (hhome : l.home = 2 ∨ l.home = 3)
    (hfree : s.dev.framesFree frame 1 = true) :
    ∃ t, exec (.faultFillComplete n page frame ⟨data, retries, transient, none⟩) s = .next t
      ∧ (∀ a, memGet t.dev.t2.mem a = if frame * 65536 ≤ a ∧ a < frame * 65536 + 65536 then data.getD (a - frame * 65536) 0#8
          else memGet s.dev.t2.mem a)
      ∧ (t.dev.ctx n).leaf page = some { l with valid := true, home := 0, target := frame * 16, busy := false }
      ∧ t.dev.t2.fills = s.dev.t2.fills.erase f := by
  have hfill := Dev.fillComplete_fetched (d := s.dev.cleared) (data := data) (retries := retries) (transient := transient) hf hl hsmall hhome hfree
  have ht2 : (s.dev.cleared.fillComplete n page frame ⟨data, retries, transient, none⟩).t2 = { s.dev.t2 with
      mem := memWrite s.dev.t2.mem (frame * 65536) ((data ++ List.replicate 65536 0#8).take 65536)
      fills := s.dev.t2.fills.erase f, used := [frame] ++ s.dev.t2.used } := by
    rw [hfill, Dev.t2_bump, Dev.t2_bump, (Dev.faultsOver_rest ..).2, Dev.t2_filled, Dev.t2_readCounts]
    rfl
  refine ⟨_, (exec_faultFillComplete n page frame _ s).trans (onDev_gives hs), fun a => ?_, ?_, ?_⟩
  · rw [State.closing_t2, ht2, memGet_memWrite_padded]
  · have hcounted : ((s.dev.cleared.readCounts retries transient).ctx n).leaf page = some l := by rw [Dev.ctx_readCounts]; exact hl
    rw [State.closing_leaf, hfill, Dev.ctx_bump, Dev.ctx_bump, Dev.ctx_faultsOver, Dev.leaf_filled hcounted _ hsmall]
  · rw [State.closing_t2, ht2]

/-! ### Fetches that get no reply (R317) -/

/-- Below the limit of attempts a fetch is tried again. -/
theorem Dev.fetchTimeout_retries {d : Dev} {n page : Nat} {l : Leaf} {f : Nat × Nat × Nat}
    (hf : (d.t2.fills.find? fun f => f.1 = n && f.2.1 = page) = some f) (hl : (d.ctx n).leaf page = some l) (hhome : 2 ≤ l.home)
    (htries : f.2.2 < d.objD 0x3101 5 2) : d.fetchTimeout n page
      = Dev.ask { d with t2 := { d.t2 with fills := d.t2.fills.map fun g => if g = f then (n, page, f.2.2 + 1) else g } }
          n page (l.place 0) 65536 := by
  unfold Dev.fetchTimeout
  simp only [hf, hl, Nat.not_lt.2 hhome, htries, if_false, if_true]

theorem remoteFetchTimeout_retries {s : State} {n page : Nat} {l : Leaf} {f : Nat × Nat × Nat} (hs : clocked s)
    (hf : (s.dev.t2.fills.find? fun f => f.1 = n && f.2.1 = page) = some f) (hl : (s.dev.ctx n).leaf page = some l) (hhome : 2 ≤ l.home)
    (htries : f.2.2 < s.dev.objD 0x3101 5 2) : ∃ t, exec (.remoteFetchTimeout n page) s = .next t
      ∧ t.dev.t2.fills = s.dev.t2.fills.map fun g => if g = f then (n, page, f.2.2 + 1) else g := by
  refine ⟨_, (exec_remoteFetchTimeout n page s).trans (onDev_gives hs), ?_⟩
  rw [State.closing_t2, foldl_fills Dev.fills_rerunDone, Dev.fetchTimeout_retries (d := s.dev.cleared) hf hl hhome htries, Dev.t2_ask]
  rfl

/-! ### Migrations (R319, R320, R333) -/

theorem Dev.ctx_invalidate (d : Dev) (n page m : Nat) : (d.invalidate n page).ctx m = d.ctx m := Dev.ctx_bump ..

theorem Dev.core_invalidate (d : Dev) (n page : Nat) (e : CoreId) : (d.invalidate n page).core e = d.core e := Dev.core_bump ..

theorem Dev.mem_invalidate (d : Dev) (n page : Nat) : (d.invalidate n page).t2.mem = d.t2.mem := by
  unfold Dev.invalidate
  rw [Dev.t2_bump]

/-- A context whose page is about to migrate to a home. -/
def Ctx.migrating (x : Ctx) (page home : Nat) : Ctx :=
  { x.updLeaves page (fun _ y => { y with busy := true }) with migrate := ⟨2, 0, cPending, x.cachePage page, home, 0, 0⟩ }

/-- Every leaf of the page is busy. -/
theorem Ctx.migrating_busy {x : Ctx} {page home : Nat} {l : Leaf} (hl : (x.migrating page home).leaf page = some l) : l.busy = true := by
  have hleaf : (x.updLeaves page fun _ y => { y with busy := true }).leaf page = some l := hl
  cases hx : x.leaf page with
  | none =>
    unfold Ctx.updLeaves at hleaf
    simp [hx] at hleaf
  | some y =>
    rw [Ctx.leaf_updLeaves _ hx (y.mem_span page).1 (y.mem_span page).2, hx] at hleaf
    obtain rfl := Option.some.inj hleaf
    rfl

/-- A migration to near or far memory that passes its checks marks its page busy, drops its translations and runs. -/
theorem Dev.migrateGo_runs {d : Dev} {n va home : Nat} (hn : d.objD 0x3103 1 0 = n) (hva : d.objD 0x3103 2 0 = va) (hhome : d.objD 0x3103 3 0 = home)
    (hkind : bits home 4 3 ≠ 0) (hcheck : d.migrateCheck n va home = none) : d.migrateGo
      = { (d.updCtx n fun x => x.migrating (va / 65536) home).invalidate n ((d.ctx n).cachePage (va / 65536)) with
          lastReq := nmSet d.lastReq (okey 0x3103 4) n } := by
  unfold Dev.migrateGo
  simp only [hn, hva, hhome, hcheck, if_neg hkind]
  rfl

/-- A target stands when the counters of retries and of blocks have risen. -/
theorem Dev.targetStands_readCounts (d : Dev) (retries : List Nat) (transient n home : Nat) :
    (d.readCounts retries transient).targetStands n home = d.targetStands n home := by
  unfold Dev.readCounts Dev.targetStands Dev.nearTaken
  simp

/-- A migration whose target stands, and that met no failed block on its way to local memory, completes. -/
theorem Dev.migrationComplete_ends {d : Dev} {n : Nat} {data : PageData} {l : Leaf} (hstate : (d.ctx n).migrate.state = 2)
    (hl : (d.ctx n).leaf (d.ctx n).migrate.a = some l) (hgood : data.failed = none)
    (hstands : d.targetStands n (d.ctx n).migrate.b = true) (hkind : bits (d.ctx n).migrate.b 4 3 < 2) :
    ∃ moved : Dev, ∃ page, d.migrationComplete n data = ((moved.updCtx n fun x =>
      { x with migrate := { x.migrate with state := 3, progress := 255, code := cOk } }).faultsOver n page).bump 0x3101 9 1 := by
  unfold Dev.migrationComplete
  have hnear : ¬2 ≤ bits (d.ctx n).migrate.b 4 3 := Nat.not_le.2 hkind
  simp only [hstate, hl, hgood, Dev.targetStands_readCounts, hstands, hnear, ne_eq, not_true_eq_false, if_false, Bool.not_true,
    Bool.false_eq_true, decide_false, Bool.and_false, Option.isSome_none, Bool.false_and, Bool.or_self]
  exact ⟨_, _, rfl⟩

/-! ### The statement -/

/-- A migration that the command requests changes its context alone. -/
theorem migrateGo_migrates {s : State} {n va home : Nat} (hs : clocked s) (hn : s.dev.objD 0x3103 1 0 = n) (hva : s.dev.objD 0x3103 2 0 = va)
    (hhome : s.dev.objD 0x3103 3 0 = home) (hkind : bits home 4 3 ≠ 0) (hcheck : s.dev.migrateCheck n va home = none) :
    ∃ t, exec .migrateGo s = .next t
      ∧ (t.dev.ctx n).migrate = ⟨2, 0, cPending, (s.dev.ctx n).cachePage (va / 65536), home, 0, 0⟩
      ∧ (∀ l, (t.dev.ctx n).leaf (va / 65536) = some l → l.busy = true)
      ∧ t.dev.t2.mem = s.dev.t2.mem ∧ (∀ e, t.dev.core e = s.dev.core e) ∧ ∀ m, m ≠ n → t.dev.ctx m = s.dev.ctx m := by
  have hgo := Dev.migrateGo_runs (d := s.dev.cleared) hn hva hhome hkind hcheck
  have hctx (m : Nat) : s.dev.cleared.migrateGo.ctx m = if m = n then (s.dev.ctx n).migrating (va / 65536) home else s.dev.ctx m := by
    rw [hgo]
    exact (Dev.ctx_invalidate ..).trans (Dev.ctx_updCtx ..)
  refine ⟨_, (exec_migrateGo s).trans (onDev_gives hs), ?_, fun l hl => ?_, ?_, fun e => ?_, fun m hm => ?_⟩
  · obtain ⟨k, hclosing⟩ := s.closing_ctx s.dev.cleared.migrateGo n
    rw [hclosing, hctx, if_pos rfl]
    rfl
  · rw [State.closing_leaf, hctx, if_pos rfl] at hl
    exact Ctx.migrating_busy hl
  · rw [State.closing_t2, hgo]
    exact Dev.mem_invalidate ..
  · rw [State.closing_core, hgo]
    exact Dev.core_invalidate ..
  · exact State.closing_ctx_unchanged ((hctx m).trans (if_neg hm))

/-- Settles O26, one event at a time: walks by what they read, a fill by its bytes and leaf, a lost reply by the attempts made, and
migrations at their request and at their end. -/
theorem pager : Obligations.Pager := by
  intro s n hs
  refine ⟨fun c va write l hctx hl hbusy hvalid hgood => tableWalkComplete_present hs hctx hl hbusy hgood write hvalid,
    fun c va write l hctx hl hbusy hvalid hgood => tableWalkComplete_faults hs hctx hl hbusy hgood write hvalid,
    fun page frame data retries transient l f hf hl hsmall hhome hfree =>
      faultFillComplete_fills hs retries transient hf hl hsmall hhome hfree,
    fun page l f hf hl hhome htries => remoteFetchTimeout_retries hs hf hl hhome htries,
    fun hn hkind hcheck => migrateGo_migrates hs hn rfl rfl hkind hcheck, fun data l hstate hl hgood hstands hkind => ?_⟩
  obtain ⟨moved, page, hend⟩ := Dev.migrationComplete_ends (d := s.dev.cleared) hstate hl hgood hstands hkind
  obtain ⟨k, hctx⟩ := s.closing_ctx (s.dev.cleared.migrationComplete n data) n
  rw [hend, Dev.ctx_bump, Dev.ctx_faultsOver, Dev.ctx_updCtx, if_pos rfl, ← hend] at hctx
  exact ⟨_, (exec_migrationComplete n data s).trans (onDev_gives hs), by rw [hctx], by rw [hctx]⟩

end Sys2Proof.Machine
end

section
/-! O42: keys, orders and leases (R318, R444, R446 to R449). -/

namespace Sys2Proof.Machine

theorem exec_membershipKeysWrite (bs : List Byte) (s : State) : exec (.membershipKeysWrite bs) s = s.onDev fun d => d.setKeys bs := rfl

theorem exec_membershipKWrite (k : Nat) (s : State) : exec (.membershipKWrite k) s = s.onDev fun d => d.setQuorum k := rfl

theorem exec_membershipOrder_written (bs : List Byte) (s : State) :
    exec (.membershipOrder none bs) s = s.onDev fun d => d.order bs 0xFF := rfl

theorem exec_membershipOrder_link (n : Nat) (f : FrameHdr) (bs : List Byte) (s : State) : exec (.membershipOrder (some (n, f)) bs) s
    = s.onDev fun d => d.onFrame n { f with kind := 0, vc := 2 } fun d => d.order bs n := rfl

theorem exec_leaseWrite (sub v : Nat) (s : State) : exec (.leaseWrite sub v) s = s.onDev fun d => d.leaseWrite sub v := rfl

@[simp] theorem State.closing_rack (s : State) (d : Dev) : (s.closing d).dev.rack = d.rack := by
  obtain ⟨_, _, _, _, _, h⟩ := s.closing_dev d
  rw [h]

/-! ### Keys and quorum (R446) -/

theorem Dev.setKeys_installs {d : Dev} {bs : List Byte} (hcheck : d.keysCheck bs = none) (hsome : bs ≠ []) :
    d.setKeys bs = { d with rack := { d.rack with keys := (chunks 2592 7 bs).zipIdx.map fun p => (p.2, p.1) } } := by
  unfold Dev.setKeys
  simp [hcheck, hsome]

theorem Dev.setKeys_removes (d : Dev) : d.setKeys [] = { d with rack := { d.rack with keys := [] } }.setObj 0x6200 2 1 := by
  have hcheck : d.keysCheck [] = none := by simp [Dev.keysCheck, firstFail]
  unfold Dev.setKeys
  rw [hcheck]
  rfl

theorem Dev.setQuorum_sets {d : Dev} {k : Nat} (hpos : 0 < k) (hle : k ≤ d.rack.keys.length) : d.setQuorum k = d.setObj 0x6200 2 k :=
  if_neg (by omega)

/-! ### Frames that are taken (R423, R428 to R431, R436, R449) -/

/-- Between two devices only the links and the outputs differ. -/
def onlyLinks (d e : Dev) : Prop := ∃ links out, e = { d with links := links, out := out }

theorem onlyLinks.rfl {d : Dev} : onlyLinks d d := ⟨_, _, .refl _⟩

theorem onlyLinks.trans {a b c : Dev} (h : onlyLinks a b) (g : onlyLinks b c) : onlyLinks a c := by
  obtain ⟨_, _, rfl⟩ := h
  obtain ⟨_, _, rfl⟩ := g
  exact ⟨_, _, .refl _⟩

theorem onlyLinks.foldl {α : Type} {f : Dev → α → Dev} (h : ∀ d x, onlyLinks d (f d x)) (l : List α) (d : Dev) :
    onlyLinks d (l.foldl f d) := by
  induction l generalizing d with
  | nil => exact .rfl
  | cons x l ih => exact (h d x).trans (ih _)

theorem Dev.updLink_onlyLinks (d : Dev) (n : Nat) (f : LinkSt → LinkSt) : onlyLinks d (d.updLink n f) := ⟨_, _, rfl⟩

theorem Dev.frameFields_onlyLinks (d : Dev) (n : Nat) (f : FrameHdr) : onlyLinks d (d.frameFields n f) :=
  (d.updLink_onlyLinks n _).trans ((Dev.updLink_onlyLinks _ n _).trans ((Dev.updLink_onlyLinks _ n _).trans
    (.foldl (fun d f => d.linkSend_frame n f) _ _)))

theorem Dev.linkControl_onlyLinks (d : Dev) (n : Nat) (h : FrameHdr) : onlyLinks d (d.linkControl n h) := ⟨_, _, rfl⟩

theorem Dev.linkAck_onlyLinks (d : Dev) (n : Nat) : onlyLinks d (d.linkAck n) := by
  unfold Dev.linkAck
  split
  · exact .rfl
  · exact d.linkControl_onlyLinks ..

/-- The device that has taken the next frame of a sequence: what the frame brings, the next number, an acknowledgement that is due, and the frame's credit. -/
def Dev.inSequence (d : Dev) (n : Nat) (f : FrameHdr) : Dev :=
  let d := (d.frameFields n f).updLink n fun l => { l with rxSeq := (l.rxSeq + 1) % 4096, unackedRx := l.unackedRx + 1 }
  let d := if 64 ≤ (d.link n).unackedRx then d.linkAck n else d
  d.linkControl n { d.frameHdr 3 2 0 with credit := 1, creditVc := f.vc, creditSub := f.sub }

theorem Dev.inSequence_onlyLinks (d : Dev) (n : Nat) (f : FrameHdr) : onlyLinks d (d.inSequence n f) := by
  have hcounted := (d.frameFields_onlyLinks n f).trans (Dev.updLink_onlyLinks _ n
    fun l => { l with rxSeq := (l.rxSeq + 1) % 4096, unackedRx := l.unackedRx + 1 })
  unfold Dev.inSequence
  dsimp only
  split
  · exact hcounted.trans ((Dev.linkAck_onlyLinks ..).trans (Dev.linkControl_onlyLinks ..))
  · exact hcounted.trans (Dev.linkControl_onlyLinks ..)

/-- The content of the next frame of a sequence that nothing stands against is acted on. -/
theorem Dev.frameIn_takes {d : Dev} {n : Nat} {f : FrameHdr} (h : d.takesFrame n f) : (d.frameIn n f).2 = true := by
  obtain ⟨hup, hcrc, hver, hkind, hseq, hmember, hcarries⟩ := h
  have hknown : (f.version / 16 != 1 || decide (9 ≤ f.kind)) = false := by
    have : ¬9 ≤ f.kind := by omega
    simp [hver, this]
  have hdata : ¬(1 ≤ f.kind ∧ f.kind ≤ 4) := by omega
  obtain ⟨links, out, hin⟩ := d.inSequence_onlyLinks n f
  have hnotNew : ¬(f.vc ≠ 2 ∧ d.epoch < f.epoch) := by
    rintro ⟨hvc, hlt⟩
    obtain hvc' | ⟨hepoch, -⟩ := hmember
    · exact hvc hvc'
    · omega
  have hnotOld : ¬(f.vc ≠ 2 ∧ f.epoch < (d.inSequence n f).epoch) := by
    rintro ⟨hvc, hlt⟩
    have hepoch' : (d.inSequence n f).epoch = d.epoch := by rw [hin]; rfl
    obtain hvc' | ⟨hepoch, -⟩ := hmember
    · exact hvc hvc'
    · omega
  have hcarried : ¬(!carries ((d.inSequence n f).linkState n) f.vc && f.kind != 5) = true := by
    have hstate : (d.inSequence n f).linkState n = d.linkState n := by rw [hin]; rfl
    rw [hstate]
    obtain hcarries | hkind := hcarries
    · simp [hcarries]
    · simp [hkind]
  have hmemberIn : ¬(f.vc ≠ 2 ∧ ((d.inSequence n f).expelled f.srcDev ∨ (d.inSequence n f).expelled (d.link n).partnerDev)) := by
    rintro ⟨hvc, hexpelled⟩
    rw [hin] at hexpelled
    obtain hvc' | ⟨-, hsrc, hpartner⟩ := hmember
    · exact hvc hvc'
    · obtain h | h := hexpelled
      · exact Bool.false_ne_true (hsrc.symm.trans h)
      · exact Bool.false_ne_true (hpartner.symm.trans h)
  unfold Dev.frameIn
  dsimp only
  rw [if_neg (by simp [hup]), if_neg (by simp [hcrc]), if_neg (by simp [hknown]), if_neg hdata, if_neg (not_not.2 hseq), if_neg hnotNew]
  exact congrArg Prod.snd ((if_neg hnotOld).trans ((if_neg hcarried).trans (if_neg hmemberIn)))

theorem Dev.onFrame_takes {d : Dev} {n : Nat} {f : FrameHdr} (h : d.takesFrame n f) (g : Dev → Dev) :
    d.onFrame n f g = g (d.frameIn n f).1 := by
  unfold Dev.onFrame
  simp only [Dev.frameIn_takes h, if_true]

/-! ### Orders (R447, R448) -/

theorem Dev.countSigs_cleared (d : Dev) (digest : BitVec 512) (blocks : List (List Byte)) (good : List Nat) (bad : Nat) :
    d.cleared.countSigs digest blocks good bad = d.countSigs digest blocks good bad := by
  induction blocks generalizing good bad with
  | nil => rfl
  | cons b blocks ih =>
    unfold Dev.countSigs
    simp only [ih]
    rfl

theorem Dev.orderSigs_cleared (d : Dev) (bs : List Byte) : d.cleared.orderSigs bs = d.orderSigs bs := Dev.countSigs_cleared ..

/-- An order that passes its checks, all its signatures counted and enough of them, is installed. -/
theorem Dev.order_installs {d : Dev} {bs : List Byte} (link : Nat) (hnew : d.orderKnown bs = false) (hcheck : d.orderCheck bs = none)
    (hall : (d.orderSigs bs).2 = 0) (henough : d.objD 0x6200 2 1 ≤ (d.orderSigs bs).1.length) : d.order bs link = d.install bs := by
  unfold Dev.order
  simp only [hnew, hcheck, hall, Bool.and_false, Bool.false_eq_true, if_false]
  exact if_neg (Nat.not_lt.2 henough)

theorem Dev.order_refuses {d : Dev} {bs : List Byte} {code : Code} (link : Nat) (hnew : d.orderKnown bs = false)
    (hcheck : d.orderCheck bs = some code) : d.order bs link = d.orderRefused code link := by
  unfold Dev.order
  simp only [hnew, hcheck, Bool.and_false, Bool.false_eq_true, if_false]

theorem Dev.order_repeats {d : Dev} {bs : List Byte} (link : Nat) (hversion : bits (orderHdr bs) 15 8 = 1) (hknown : d.orderKnown bs = true) :
    d.order bs link = d := if_pos (by simp [hversion, hknown])

theorem firstFail_none {l : List (Bool × Code)} (h : firstFail l = none) (failed : Bool) (code : Code) (hmem : (failed, code) ∈ l) :
    failed = false := by
  induction l with
  | nil => exact nomatch hmem
  | cons p l ih =>
    obtain ⟨failed', code'⟩ := p
    unfold firstFail at h
    split at h
    · exact nomatch h
    · next hpass =>
      rcases List.mem_cons.1 hmem with heq | hmem
      · obtain ⟨rfl, rfl⟩ := Prod.mk.inj heq
        exact Bool.eq_false_iff.2 hpass
      · exact ih h hmem

/-- An order of an epoch that is not newer fails its checks. -/
theorem Dev.orderCheck_stale {d : Dev} {bs : List Byte} (hold : bits (orderHdr bs) 63 32 ≤ d.epoch) : d.orderCheck bs ≠ none := by
  intro hnone
  have hpass := firstFail_none hnone (decide (bits (orderHdr bs) 63 32 ≤ d.epoch)) cEpochStale (by simp)
  exact of_decide_eq_false hpass hold

/-! ### What keeps the installed order (R414, R435, R440, R521) -/

/-- From device d to device e the cores, the installed order, its epoch, its bitmap and whether the device is expelled stay. -/
structure KeepsOrder (d e : Dev) : Prop where
  cores : e.cores = d.cores
  rack : e.rack = d.rack
  epoch : e.objD 0x6200 1 0 = d.objD 0x6200 1 0
  members : e.objD 0x6200 6 0 = d.objD 0x6200 6 0
  expelled : e.objD 0x6200 7 0 = d.objD 0x6200 7 0

theorem KeepsOrder.rfl {d : Dev} : KeepsOrder d d := ⟨.refl _, .refl _, .refl _, .refl _, .refl _⟩

theorem KeepsOrder.trans {a b c : Dev} (h : KeepsOrder a b) (g : KeepsOrder b c) : KeepsOrder a c :=
  ⟨g.cores.trans h.cores, g.rack.trans h.rack, g.epoch.trans h.epoch, g.members.trans h.members, g.expelled.trans h.expelled⟩

theorem KeepsOrder.foldl {α : Type} {f : Dev → α → Dev} (h : ∀ d x, KeepsOrder d (f d x)) (l : List α) (d : Dev) :
    KeepsOrder d (l.foldl f d) := by
  induction l generalizing d with
  | nil => exact .rfl
  | cons x l ih => exact (h d x).trans (ih _)

theorem KeepsOrder.of_onlyLinks {d e : Dev} (h : onlyLinks d e) : KeepsOrder d e := by
  obtain ⟨_, _, rfl⟩ := h
  exact ⟨.refl _, .refl _, .refl _, .refl _, .refl _⟩

/-- An object other than those three is set. -/
theorem Dev.setObj_keepsOrder (d : Dev) {i u : Nat} (v : Nat) (h : okey i u ∉ [okey 0x6200 1, okey 0x6200 6, okey 0x6200 7]) :
    KeepsOrder d (d.setObj i u v) := by
  simp only [List.mem_cons, List.not_mem_nil, or_false, not_or] at h
  obtain ⟨h1, h6, h7⟩ := h
  exact ⟨.refl _, .refl _, (Dev.objD_setObj ..).trans (if_neg (Ne.symm h1)), (Dev.objD_setObj ..).trans (if_neg (Ne.symm h6)),
    (Dev.objD_setObj ..).trans (if_neg (Ne.symm h7))⟩

theorem Dev.bump_keepsOrder (d : Dev) {i u : Nat} (n : Nat) (h : okey i u ∉ [okey 0x6200 1, okey 0x6200 6, okey 0x6200 7]) :
    KeepsOrder d (d.bump i u n) := by
  simp only [List.mem_cons, List.not_mem_nil, or_false, not_or] at h
  obtain ⟨h1, h6, h7⟩ := h
  exact ⟨Dev.cores_bump .., by rw [Dev.bump_frame], Dev.objD_bump_other _ _ _ _ _ _ _ (Ne.symm h1),
    Dev.objD_bump_other _ _ _ _ _ _ _ (Ne.symm h6), Dev.objD_bump_other _ _ _ _ _ _ _ (Ne.symm h7)⟩

theorem Dev.sendReleased_keepsOrder (d : Dev) (r : Released) : KeepsOrder d (d.sendReleased r) := by
  unfold Dev.sendReleased
  split
  · exact d.bump_keepsOrder _ (by decide)
  · next n _ =>
    have hcross : KeepsOrder d (d.crosses n r.ctx) := by
      unfold Dev.crosses
      split
      · exact .rfl
      · exact ⟨.refl _, .refl _, .refl _, .refl _, .refl _⟩
    exact hcross.trans (.of_onlyLinks (Dev.linkSend_frame ..))

theorem Dev.pushReleases_keepsOrder (d : Dev) : KeepsOrder d d.pushReleases := by
  have hlogged : KeepsOrder d { d with inlog := d.pushGo [] d.inlog } := ⟨.refl _, .refl _, .refl _, .refl _, .refl _⟩
  refine hlogged.trans (.foldl (fun d p => ?_) _ _)
  exact d.sendReleased_keepsOrder p.2

theorem Dev.sendOrder_keepsOrder (d : Dev) (n : Nat) : KeepsOrder d (d.sendOrder n) := by
  unfold Dev.sendOrder
  split
  · exact .rfl
  · exact .of_onlyLinks (Dev.linkSend_frame ..)

theorem Dev.alertUpdate_keepsOrder (d : Dev) : KeepsOrder d d.alertUpdate := by
  unfold Dev.alertUpdate
  split
  · split
    · exact .rfl
    · exact ⟨.refl _, .refl _, .refl _, .refl _, .refl _⟩
  · split
    · exact ⟨.refl _, .refl _, .refl _, .refl _, .refl _⟩
    · exact .rfl

theorem Dev.alert_keepsOrder (d : Dev) (cause : Nat) : KeepsOrder d (d.alert cause) := by
  unfold Dev.alert
  exact (d.setObj_keepsOrder _ (by decide)).trans (Dev.alertUpdate_keepsOrder _)

theorem Dev.rackFlip_keepsOrder (d : Dev) : KeepsOrder d d.rackFlip := by
  unfold Dev.rackFlip
  refine ((d.setObj_keepsOrder _ (by decide)).trans (Dev.setObj_keepsOrder _ _ (by decide))).trans (.foldl (fun d n => ?_) _ _)
  split
  · exact .of_onlyLinks (Dev.linkSend_frame ..)
  · exact .rfl

/-! ### Refused orders (R448, R598) -/

theorem Dev.record_keepsOrder (d : Dev) (code : Code) (unit kind ctx logical physical : Nat) (cell : Bool) (d0 d1 : Nat) :
    KeepsOrder d (d.record code unit kind ctx logical physical cell d0 d1) := by
  unfold Dev.record
  dsimp only
  split
  · exact d.bump_keepsOrder _ (by decide)
  · split
    · exact (d.bump_keepsOrder (i := 0x1800) (u := 6) 1 (by decide)).trans ⟨.refl _, .refl _, .refl _, .refl _, .refl _⟩
    · exact ⟨.refl _, .refl _, .refl _, .refl _, .refl _⟩

theorem Dev.eventDev_keepsOrder (d : Dev) {code : Nat} (unit kind d0 d1 : Nat) (hcode : code < 0x10000) :
    KeepsOrder d (d.eventDev code unit kind d0 d1) := by
  have hclass : okey 0x1801 (code / 256 + 1) ∉ [okey 0x6200 1, okey 0x6200 6, okey 0x6200 7] := by
    simp only [okey, List.mem_cons, List.not_mem_nil, or_false]
    omega
  exact (d.bump_keepsOrder 1 hclass).trans (Dev.record_keepsOrder ..)

/-- A refusal leaves the installed order, its epoch and its bitmap. -/
theorem Dev.orderRefused_keepsOrder (d : Dev) {code : Code} (link : Nat) (hcode : code < 0x10000) : KeepsOrder d (d.orderRefused code link) :=
  ((d.bump_keepsOrder (i := 0x6200) (u := 8) 1 (by decide)).trans (Dev.eventDev_keepsOrder _ 18 1 _ 0 hcode)).trans
    ⟨.refl _, .refl _, .refl _, .refl _, .refl _⟩

/-- The codes with which the checks of an order refuse it. -/
theorem Dev.orderCheck_code {d : Dev} {bs : List Byte} {code : Code} (h : d.orderCheck bs = some code) : code < 0x10000 := by
  have hmem := firstFail_mem h
  simp only [List.map_cons, List.map_nil, List.mem_cons, List.not_mem_nil, or_false] at hmem
  rcases hmem with rfl | rfl | rfl | rfl | rfl | rfl <;> decide

/-! ### Orders that expel nobody (R449) -/

/-- The device with an order's epoch and bitmap in force. -/
def Dev.inForce (d : Dev) (bs : List Byte) : Dev :=
  let e := (d.setObj 0x6200 1 (bits (orderHdr bs) 63 32)).setObj 0x6200 6 (orderMembers bs)
  { e with rack := { e.rack with order := bs }, expels := e.expels.filter fun v => !bit (orderMembers bs) v }

/-- That device with the rack configuration that waited for the epoch current, and the alert's cause set (R414, R521). -/
def Dev.inForceAlerted (d : Dev) (bs : List Byte) : Dev :=
  let e := d.inForce bs
  (if e.objD 0x1001 3 0 ≠ 0 ∧ e.objD 0x1001 3 0 ≤ bits (orderHdr bs) 63 32 then (e.setObj 0x1001 3 0).rackFlip else e).alert 2

theorem Dev.inForceAlerted_keepsOrder (d : Dev) (bs : List Byte) : KeepsOrder (d.inForce bs) (d.inForceAlerted bs) := by
  refine KeepsOrder.trans ?_ (Dev.alert_keepsOrder ..)
  split
  · exact ((d.inForce bs).setObj_keepsOrder _ (by decide)).trans (Dev.rackFlip_keepsOrder _)
  · exact .rfl

theorem Dev.inForce_spec (d : Dev) (bs : List Byte) : (d.inForce bs).objD 0x6200 1 0 = bits (orderHdr bs) 63 32
    ∧ (d.inForce bs).objD 0x6200 6 0 = orderMembers bs ∧ (d.inForce bs).objD 0x6200 7 0 = d.objD 0x6200 7 0 := by
  refine ⟨(Dev.objD_setObj ..).trans ((if_neg (by decide)).trans ((Dev.objD_setObj ..).trans (if_pos rfl))),
    (Dev.objD_setObj ..).trans (if_pos rfl),
    (Dev.objD_setObj ..).trans ((if_neg (by decide)).trans ((Dev.objD_setObj ..).trans (if_neg (by decide))))⟩

/-- An order that expels nobody is in force once a device that is not expelled has installed it. -/
theorem Dev.install_keepsOrder {d : Dev} {bs : List Byte}
    (hstay : ∀ v, v < 4096 → bit (d.objD 0x6200 6 0) v = true → bit (orderMembers bs) v = true) (hmember : d.objD 0x6200 7 0 ≠ 1) :
    KeepsOrder (d.inForce bs) (d.install bs) := by
  have hgone : ((List.range 4096).filter fun v => bit (d.objD 0x6200 6 0) v && !bit (orderMembers bs) v) = [] := by
    refine List.filter_eq_nil_iff.2 fun v hv => ?_
    have := hstay v (List.mem_range.1 hv)
    simpa using this
  have hin : (d.inForceAlerted bs).objD 0x6200 7 0 ≠ 1 := by
    rw [(d.inForceAlerted_keepsOrder bs).expelled, (d.inForce_spec bs).2.2]
    exact hmember
  have hnotBack : ¬(bit (orderMembers bs) d.self && decide ((d.inForceAlerted bs).objD 0x6200 7 0 = 1)) = true := by simp [hin]
  unfold Dev.install
  dsimp only
  rw [hgone]
  refine KeepsOrder.trans ?_ (Dev.pushReleases_keepsOrder _)
  refine KeepsOrder.trans ?_ (.foldl (fun d n => d.sendOrder_keepsOrder n) _ _)
  rw [if_neg (by simp)]
  exact (if_neg hnotBack : _ = d.inForceAlerted bs) ▸ d.inForceAlerted_keepsOrder bs

/-! ### Leases (R318, R444) -/

/-- A lookup in a map of which the entries of some keys are kept. -/
theorem nmGet_filter_key {α : Type} (m : NMap α) (q : Nat → Bool) (i : Nat) :
    nmGet (m.filter fun p => q p.1) i = if q i then nmGet m i else none := by
  induction m with
  | nil => exact (ite_self _).symm
  | cons p m ih =>
    obtain ⟨k, v⟩ := p
    by_cases hki : k = i
    · subst hki
      cases hq : q k
      · simp [hq, ih]
      · simp [hq, nmGet]
    · cases hq : q k
      · simp [hq, ih, nmGet, hki]
      · simp [hq, ih, nmGet, hki]

theorem memGet_memClear (m : Mem) (b n a : Nat) : memGet (memClear m b n) a = if b ≤ a ∧ a < b + n then 0#8 else memGet m a := by
  unfold memGet memClear
  rw [nmGet_filter_key m fun k => !(decide (b ≤ k) && decide (k < b + n))]
  by_cases h : b ≤ a ∧ a < b + n
  · simp [h]
  · rw [if_neg h, if_pos (by simp only [Bool.not_eq_true', Bool.and_eq_false_iff, decide_eq_false_iff_not]; omega)]

/-- Frames that are given back are zero-filled. -/
theorem Dev.freeFrames_mem (d : Dev) (first n a : Nat) :
    memGet ((List.range n).foldl (fun d i => d.freeFrame (first + i)) d).t2.mem a
      = if first * 65536 ≤ a ∧ a < (first + n) * 65536 then 0#8 else memGet d.t2.mem a := by
  induction n with
  | zero => rw [if_neg (by omega)]; rfl
  | succ n ih =>
    rw [List.range_succ, List.foldl_append]
    refine (memGet_memClear _ ((first + n) * 65536) 65536 a).trans ?_
    rw [ih, ← ite_or]
    exact if_congr (by omega) rfl rfl

section
variable {d : Dev} {sub v : Nat} (hpos : 0 < sub) (hle : sub ≤ 64)
include hpos hle

/-- A lease is granted on a run of free frames. -/
theorem Dev.leaseWrite_grants {f : Nat} (hfree : nmGet d.rack.leases (sub - 1) = none) (hvalid : bit v 96 = true)
    (hroom : bits v 95 64 ≤ d.freeFrames) (hrun : d.freeRun (bits v 95 64) = some f) : d.leaseWrite sub v = { d with
      t2 := { d.t2 with used := (List.range (bits v 95 64)).map (f + ·) ++ d.t2.used }
      rack := { d.rack with leases := nmSet d.rack.leases (sub - 1) ⟨bits v 15 0, bits v 29 16, bit v 30, bit v 31, f, bits v 95 64⟩ } } := by
  have hback : d.endLease (sub - 1) = d := by unfold Dev.endLease; rw [hfree]
  unfold Dev.leaseWrite
  rw [if_neg (by omega)]
  simp only [hback, hvalid, Bool.not_true, Bool.false_eq_true, if_false, if_pos hroom, hrun]

theorem Dev.leaseWrite_refused (hfree : nmGet d.rack.leases (sub - 1) = none) (hvalid : bit v 96 = true)
    (hroom : d.freeFrames < bits v 95 64) : d.leaseWrite sub v = d.reply cNoMemory := by
  have hback : d.endLease (sub - 1) = d := by unfold Dev.endLease; rw [hfree]
  unfold Dev.leaseWrite
  rw [if_neg (by omega)]
  simp only [hback, hvalid, Bool.not_true, Bool.false_eq_true, if_false, if_neg (Nat.not_le.2 hroom)]

theorem Dev.leaseWrite_ends (hvalid : bit v 96 = false) : d.leaseWrite sub v = d.endLease (sub - 1) := by
  unfold Dev.leaseWrite
  rw [if_neg (by omega)]
  simp only [hvalid, Bool.not_false, if_true]

end

theorem Dev.endLease_of_lease {d : Dev} {k : Nat} {l : Lease} (hl : nmGet d.rack.leases k = some l) : d.endLease k
    = { (List.range l.frames).foldl (fun d i => d.freeFrame (l.first + i)) d with rack := { d.rack with leases := nmErase d.rack.leases k } } := by
  have hrack : ((List.range l.frames).foldl (fun d i => d.freeFrame (l.first + i)) d).rack = d.rack := by
    refine foldl_unchanged Dev.rack (fun d i => ?_) _ d
    rfl
  unfold Dev.endLease
  simp only [hl, hrack]

/-! ### The statement -/

section
variable {s : State} (hs : clocked s)
include hs

theorem membershipOrder_refuses {bs : List Byte} {code : Code} (hnew : s.dev.orderKnown bs = false) (hcheck : s.dev.orderCheck bs = some code) :
    ∃ t, exec (.membershipOrder none bs) s = .next t ∧ t.dev.answer = code ∧ t.dev.rack = s.dev.rack
      ∧ t.dev.objD 0x6200 1 0 = s.dev.objD 0x6200 1 0 ∧ t.dev.objD 0x6200 6 0 = s.dev.objD 0x6200 6 0 := by
  have horder := Dev.order_refuses (d := s.dev.cleared) 0xFF hnew hcheck
  have hkeeps := s.dev.cleared.orderRefused_keepsOrder 0xFF (Dev.orderCheck_code hcheck)
  refine ⟨_, (exec_membershipOrder_written bs s).trans (onDev_gives hs), ?_, ?_, ?_, ?_⟩
  · rw [State.closing_answer, horder]; rfl
  · rw [State.closing_rack, horder]; exact hkeeps.rack
  · rw [State.closing_objD, horder]; exact hkeeps.epoch
  · rw [State.closing_objD, horder]; exact hkeeps.members

theorem leaseWrite_grants {sub v f : Nat} (hpos : 0 < sub) (hle : sub ≤ 64) (hfree : nmGet s.dev.rack.leases (sub - 1) = none)
    (hvalid : bit v 96 = true) (hroom : bits v 95 64 ≤ s.dev.freeFrames) (hrun : s.dev.freeRun (bits v 95 64) = some f) :
    ∃ t, exec (.leaseWrite sub v) s = .next t
      ∧ nmGet t.dev.rack.leases (sub - 1) = some ⟨bits v 15 0, bits v 29 16, bit v 30, bit v 31, f, bits v 95 64⟩
      ∧ (∀ k, k ≠ sub - 1 → nmGet t.dev.rack.leases k = nmGet s.dev.rack.leases k)
      ∧ (∀ g, g ∈ t.dev.t2.used ↔ g ∈ s.dev.t2.used ∨ f ≤ g ∧ g < f + bits v 95 64)
      ∧ t.dev.t2.mem = s.dev.t2.mem ∧ ∀ e, t.dev.core e = s.dev.core e := by
  have hgrant := Dev.leaseWrite_grants (d := s.dev.cleared) hpos hle hfree hvalid hroom hrun
  refine ⟨_, (exec_leaseWrite sub v s).trans (onDev_gives hs), ?_, fun k hk => ?_, fun g => ?_, ?_, fun e => ?_⟩
  · rw [State.closing_rack, hgrant]; exact nmGet_nmSet_same ..
  · rw [State.closing_rack, hgrant]; exact nmGet_nmSet_other _ _ _ _ hk
  · rw [State.closing_t2, hgrant]
    have hrange : g ∈ (List.range (bits v 95 64)).map (f + ·) ↔ f ≤ g ∧ g < f + bits v 95 64 := by
      simp only [List.mem_map, List.mem_range]
      exact ⟨fun ⟨i, hi, hg⟩ => by omega, fun ⟨hlo, hhi⟩ => ⟨g - f, by omega, by omega⟩⟩
    exact List.mem_append.trans ((or_congr hrange Iff.rfl).trans or_comm)
  · rw [State.closing_t2, hgrant]; rfl
  · rw [State.closing_core, hgrant]; rfl

theorem leaseWrite_ends {sub v : Nat} {l : Lease} (hpos : 0 < sub) (hle : sub ≤ 64) (hl : nmGet s.dev.rack.leases (sub - 1) = some l)
    (hvalid : bit v 96 = false) : ∃ t, exec (.leaseWrite sub v) s = .next t ∧ nmGet t.dev.rack.leases (sub - 1) = none
      ∧ (∀ a, memGet t.dev.t2.mem a = if l.first * 65536 ≤ a ∧ a < (l.first + l.frames) * 65536 then 0#8 else memGet s.dev.t2.mem a)
      ∧ ∀ e, t.dev.core e = s.dev.core e := by
  have hend := (Dev.leaseWrite_ends (d := s.dev.cleared) hpos hle hvalid).trans (Dev.endLease_of_lease hl)
  have hcores : ((List.range l.frames).foldl (fun d i => d.freeFrame (l.first + i)) s.dev.cleared).cores = s.dev.cores := by
    refine foldl_unchanged Dev.cores (fun d i => ?_) _ s.dev.cleared
    rfl
  refine ⟨_, (exec_leaseWrite sub v s).trans (onDev_gives hs), ?_, fun a => ?_, fun e => ?_⟩
  · rw [State.closing_rack, hend]; exact (nmGet_nmErase ..).trans (if_pos rfl)
  · rw [State.closing_t2, hend]; exact s.dev.cleared.freeFrames_mem ..
  · rw [State.closing_core, hend]; unfold Dev.core; exact congrArg (fun m => (nmGet m (ckey e)).getD clearCore) hcores

end

/-- Settles O42: keys and orders by the checks that they pass or fail, an order that expels nobody by what installing keeps, and leases by
the frames that they take and give back. -/
theorem membership : Obligations.Membership := by
  refine ⟨fun s hs => ⟨fun bs hcheck hsome => ?_, ?_, fun k hpos hle => ?_, fun bs hnew hcheck hall henough => ?_,
    fun bs code hnew hcheck => membershipOrder_refuses hs hnew hcheck, fun bs hversion hknown => ?_, fun n f bs htakes => ?_,
    fun bs hstay hmember => ?_, fun bs hold => Dev.orderCheck_stale hold⟩, fun s sub v hs hpos hle => ⟨fun hfree hvalid =>
    ⟨fun f hroom hrun => leaseWrite_grants hs hpos hle hfree hvalid hroom hrun, fun hroom => ?_⟩,
    fun l hl hvalid => leaseWrite_ends hs hpos hle hl hvalid⟩⟩
  · have hset := Dev.setKeys_installs (d := s.dev.cleared) hcheck hsome
    refine ⟨_, (exec_membershipKeysWrite bs s).trans (onDev_gives hs), ?_, ?_, fun e => ?_⟩
    · rw [State.closing_rack, hset]; rfl
    · rw [State.closing_objs, hset]; rfl
    · rw [State.closing_core, hset]; rfl
  · refine ⟨_, (exec_membershipKeysWrite [] s).trans (onDev_gives hs), ?_, ?_⟩
    · rw [State.closing_rack, Dev.setKeys_removes]; rfl
    · rw [State.closing_objD, Dev.setKeys_removes, Dev.objD_setObj, if_pos rfl]
  · have hset := Dev.setQuorum_sets (d := s.dev.cleared) hpos hle
    refine ⟨_, (exec_membershipKWrite k s).trans (onDev_gives hs), ?_, ?_, fun e => ?_⟩
    · rw [State.closing_objD, hset, Dev.objD_setObj, if_pos rfl]
    · rw [State.closing_rack, hset]; rfl
    · rw [State.closing_core, hset]; rfl
  · rw [← Dev.orderSigs_cleared] at hall henough
    exact gives_of_onDev hs (exec_membershipOrder_written bs s) (Dev.order_installs (d := s.dev.cleared) 0xFF hnew hcheck hall henough)
  · exact gives_of_onDev hs (exec_membershipOrder_written bs s) (Dev.order_repeats (d := s.dev.cleared) 0xFF hversion hknown)
  · exact gives_of_onDev hs (exec_membershipOrder_link n f bs s) (Dev.onFrame_takes (d := s.dev.cleared) htakes _)
  · have hkeeps := Dev.install_keepsOrder hstay hmember
    obtain ⟨hepoch, hmembers, -⟩ := s.dev.inForce_spec bs
    refine ⟨hkeeps.epoch.trans hepoch, hkeeps.members.trans hmembers, (congrArg Rack.order hkeeps.rack), fun e => ?_⟩
    unfold Dev.core
    rw [hkeeps.cores]
    rfl
  · exact gives_of_onDev hs (exec_leaseWrite sub v s) (Dev.leaseWrite_refused (d := s.dev.cleared) hpos hle hfree hvalid hroom)

end Sys2Proof.Machine
end

section
/-! O45: queue pairs (R332, R417, R470 to R474, R478). -/

namespace Sys2Proof.Machine

theorem exec_qpToRts (s : State) : exec .qpToRts s = s.onDev fun d => d.qpToRts (d.objD 0x2801 1 0) := rfl

theorem exec_qpToReset (s : State) : exec .qpToReset s = s.onDev fun d => d.qpToReset (d.objD 0x2801 1 0) := rfl

theorem exec_reinitQueuePair (n : Nat) (s : State) : exec (.reinitQueuePair n) s
    = s.onDev fun d => if 16640 ≤ n then d.reply cBadArgument else (d.qpToReset n).reinitDone n := rfl

theorem exec_reinitEthernet (s : State) : exec .reinitEthernet s = s.onDev fun d => d.reinitEth.reinitDone 4 := rfl

theorem exec_qpRetryExhausted (n : Nat) (s : State) : exec (.qpRetryExhausted n) s = s.onDev fun d => d.qpError n := rfl

theorem exec_rdmaWriteRequest (n : Nat) (s : State) : exec (.rdmaWriteRequest n) s
    = s.onDev fun d => if (d.qp n).state ≠ 1 then d else (d.emit (.eth 8 [n, 1] [])).qpError n := rfl

theorem exec_atomicRequest (n : Nat) (s : State) : exec (.atomicRequest n) s
    = s.onDev fun d => if (d.qp n).state ≠ 1 then d else d.emit (.eth 8 [n, 2] []) := rfl

theorem exec_rdmaReadRequest (n rkey offset bytes : Nat) (s : State) : exec (.rdmaReadRequest n rkey offset bytes) s
    = s.onDev fun d => if (d.qp n).state ≠ 1 then d
      else if n < 16384 ∧ rkey = (d.qp n).rkey ∧ offset + bytes ≤ 64 then
        d.emit (.eth 7 [n] (((natLe (statusBlock (d.ctx n) (d.qp n) d.uncertain) 64).drop offset).take bytes))
      else (d.emit (.eth 8 [n, 1] [])).qpError n := rfl

theorem exec_rdmaReadResponse (n done : Nat) (s : State) : exec (.rdmaReadResponse n done) s
    = s.onDev fun d => if (d.qp n).state ≠ 1 then d
      else if (d.ctx n).load.busy then d.updCtx n fun x => { x with load :=
        if x.load.busy then { x.load with state := 2, progress := min 255 (done * 256 / max 1 x.load.c) } else x.load }
      else d := rfl

/-- The device after an acknowledgement of a context's granules, before the context may run again. -/
def Dev.hostAcked (d : Dev) (n granules : Nat) : Dev :=
  (d.updCtx n fun x => { x with dmaHold := acknowledged granules x.dmaHold }).holdFree n

theorem exec_roceAckReceive (n granules : Nat) (s : State) : exec (.roceAckReceive n granules) s
    = s.onDev fun d => if (d.qp n).state ≠ 1 then d
      else if ((d.hostAcked n granules).ctx n).blockCause = 0 then (d.hostAcked n granules).unblock n
      else d.hostAcked n granules := rfl

theorem exec_cnpReceive (n : Nat) (s : State) : exec (.cnpReceive n) s = s.onDev fun d => d.updQp n fun q =>
    { q with ecnRate := d.ecnEntry q.ecnStep, ecnStep := min 15 (q.ecnStep + 1) } := rfl

theorem exec_ecnRecoverTimer (n : Nat) (s : State) : exec (.ecnRecoverTimer n) s = s.onDev fun d => d.updQp n fun q =>
    { q with ecnStep := q.ecnStep - 1, ecnRate := d.ecnEntry (q.ecnStep - 1) } := rfl

theorem exec_statusBlockTimer (n : Nat) (s : State) : exec (.statusBlockTimer n) s
    = s.onDev fun d => if (d.ctx n).state.holds then d.statusUpdate n else d := rfl

/-! ### Queue pairs that closing leaves (R478) -/

/-- Closing a command that has left every context updates no status block. -/
theorem State.closing_eth_of_ctxs {s : State} {d : Dev} (h : d.ctxs = s.dev.ctxs) : (s.closing d).dev.eth = d.eth := by
  have heth : (s.closing d).dev.eth = (d.statusNoted s.dev).eth := rfl
  rw [heth]
  unfold Dev.statusNoted
  simp [h, statusChanged_self]

theorem State.closing_qp_of_ctxs {s : State} {d : Dev} (h : d.ctxs = s.dev.ctxs) (m : Nat) : (s.closing d).dev.qp m = d.qp m := by
  unfold Dev.qp
  rw [State.closing_eth_of_ctxs h]

@[simp] theorem State.closing_reinit (s : State) (d : Dev) : (s.closing d).dev.reinit = d.reinit := by
  obtain ⟨_, _, _, _, _, h⟩ := s.closing_dev d
  rw [h]

/-! ### What a change of a queue pair reaches (R417, R471 to R473, R516) -/

/-- Between two devices only queue pairs, sessions, dictionary objects and outputs differ. -/
def onlyPairs (d e : Dev) : Prop := ∃ objs qps sessions out, e =
  { d with objs := objs, eth := { d.eth with qps := qps }, dop := { d.dop with sessions := sessions }, out := out }

theorem onlyPairs.rfl {d : Dev} : onlyPairs d d := ⟨_, _, _, _, .refl _⟩

theorem onlyPairs.trans {a b c : Dev} (h : onlyPairs a b) (g : onlyPairs b c) : onlyPairs a c := by
  obtain ⟨_, _, _, _, rfl⟩ := h
  obtain ⟨_, _, _, _, rfl⟩ := g
  exact ⟨_, _, _, _, .refl _⟩

section
variable {d e : Dev} (h : onlyPairs d e)
include h

theorem onlyPairs.ctxs : e.ctxs = d.ctxs := by
  obtain ⟨_, _, _, _, rfl⟩ := h
  rfl

theorem onlyPairs.core (c : CoreId) : e.core c = d.core c := by
  obtain ⟨_, _, _, _, rfl⟩ := h
  rfl

theorem onlyPairs.t2 : e.t2 = d.t2 := by
  obtain ⟨_, _, _, _, rfl⟩ := h
  rfl

theorem onlyPairs.steerCur : e.eth.steerCur = d.eth.steerCur := by
  obtain ⟨_, _, _, _, rfl⟩ := h
  rfl
end

theorem Dev.updQp_onlyPairs (d : Dev) (n : Nat) (f : Qp → Qp) : onlyPairs d (d.updQp n f) := ⟨_, _, _, _, rfl⟩

theorem Dev.emit_onlyPairs (d : Dev) (o : Out) : onlyPairs d (d.emit o) := ⟨_, _, _, _, rfl⟩

theorem Dev.raised_onlyPairs (d : Dev) (code : Code) : onlyPairs d (d.raised code) := by
  obtain ⟨_, h⟩ := d.raised_frame code
  rw [h]
  exact ⟨_, _, _, _, rfl⟩

theorem onlyPairs.foldl {α : Type} {f : Dev → α → Dev} (h : ∀ d x, onlyPairs d (f d x)) (l : List α) (d : Dev) :
    onlyPairs d (l.foldl f d) := by
  induction l generalizing d with
  | nil => exact .rfl
  | cons x l ih => exact (h d x).trans (ih _)

theorem Dev.rdmaBusy_onlyPairs (d : Dev) (n : Nat) : onlyPairs d (d.rdmaBusy n) := by
  refine onlyPairs.trans ⟨_, _, _, _, rfl⟩ (onlyPairs.foldl (fun e session => ?_) _ _)
  split
  · exact (e.raised_onlyPairs cBusy).trans (Dev.emit_onlyPairs _ _)
  · exact .rfl

/-- Ending the transfers of a pair leaves every pair (R516). -/
@[simp] theorem Dev.qp_rdmaBusy (d : Dev) (n m : Nat) : (d.rdmaBusy n).qp m = d.qp m := by
  refine foldl_unchanged (fun e : Dev => e.qp m) (fun e session => ?_) _ _
  split
  · exact e.qp_raised cBusy m
  · rfl

/-! ### RESET, RTS and the error state (R417, R471 to R473) -/

/-- A pair in RESET: without waiting commands and at the line rate, its configuration and counters as they were (R471). -/
def Qp.inReset (q : Qp) : Qp := { q with state := 0, queue := [], ecnStep := 0, ecnRate := 1024 }

/-- A pair in the error state, with one error more (R472, R473). -/
def Qp.inError (q : Qp) : Qp := { q with state := 2, errors := q.errors + 1 }

/-- A pair in RTS under the rkey that a free value gives (R471, R472). -/
def Qp.inRts (q : Qp) (v : Nat) : Qp := { q with state := 1, rkey := (q.rkey + 1 + v % (2 ^ 32 - 1)) % 2 ^ 32 }

theorem Dev.qp_qpToReset (d : Dev) (n m : Nat) : (d.qpToReset n).qp m
    = if m = n then (d.qp n).inReset else d.qp m :=
  (Dev.qp_rdmaBusy ..).trans (d.qp_updQp ..)

theorem Dev.qpToReset_onlyPairs (d : Dev) (n : Nat) : onlyPairs d (d.qpToReset n) :=
  (d.updQp_onlyPairs n _).trans (Dev.rdmaBusy_onlyPairs ..)

theorem Dev.qp_qpError {d : Dev} {n : Nat} (h : (d.qp n).state = 1) :
    (d.qpError n).qp n = (d.qp n).inError := by
  unfold Dev.qpError
  rw [if_pos h, Dev.qp_rdmaBusy, Dev.qp_updQp, if_pos rfl]
  rfl

theorem Dev.qpError_onlyPairs (d : Dev) (n : Nat) : onlyPairs d (d.qpError n) := by
  unfold Dev.qpError
  split
  · exact (d.updQp_onlyPairs n _).trans (Dev.rdmaBusy_onlyPairs ..)
  · exact .rfl

/-- A pair that is in RESET stays there while pairs are reset. -/
theorem Dev.qpResets_keep {m : Nat} (l : NMap Qp) : ∀ {d : Dev}, (d.qp m).state = 0 →
    ((l.foldl (fun d p => d.qpToReset p.1) d).qp m).state = 0 := by
  induction l with
  | nil => exact id
  | cons p l ih =>
    intro d hreset
    refine ih ?_
    rw [Dev.qp_qpToReset]
    split
    · rfl
    · exact hreset

theorem Dev.qpResets_state {p : Nat × Qp} {l : NMap Qp} (hp : p ∈ l) (d : Dev) :
    ((l.foldl (fun d p => d.qpToReset p.1) d).qp p.1).state = 0 := by
  induction hp generalizing d with
  | head l => exact Dev.qpResets_keep l (by rw [Dev.qp_qpToReset, if_pos rfl]; rfl)
  | tail _ _ ih => exact ih _

theorem Dev.reinitEth_onlyPairs (d : Dev) : onlyPairs d d.reinitEth :=
  (onlyPairs.foldl (fun d (p : Nat × Qp) => d.qpToReset_onlyPairs p.1) _ _).trans ⟨_, _, _, _, rfl⟩

theorem Dev.reinitEth_state {d : Dev} {p : Nat × Qp} (hp : p ∈ d.eth.qps) : (d.reinitEth.qp p.1).state = 0 :=
  Dev.qpResets_state hp d

/-- A status rkey moves by at least 1 and less than 2^32, so that it is another one (R472). -/
theorem Qp.inRts_rkey {q : Qp} (v : Nat) (h : q.rkey < 2 ^ 32) : (q.inRts v).rkey ≠ q.rkey := by
  dsimp only [Qp.inRts]
  omega

theorem Dev.qp_qpToRts {d : Dev} {n : Nat} (h : (d.qp n).state ≠ 1) (m : Nat) : (d.qpToRts n).qp m =
    if m = n then (d.qp n).inRts d.fresh.1 else d.qp m := by
  unfold Dev.qpToRts
  rw [if_neg h]
  exact Dev.qp_updQp ..

theorem Dev.qpToRts_frame (d : Dev) (n : Nat) : (d.qpToRts n).ctxs = d.ctxs ∧ ∀ e, (d.qpToRts n).core e = d.core e := by
  unfold Dev.qpToRts
  split
  · exact ⟨rfl, fun _ => rfl⟩
  · exact ⟨rfl, fun _ => rfl⟩

/-! ### Acknowledged granules (R332) -/

/-- A granule released to the host whose acknowledgement is to come (R332). -/
def HeldGranule.waits (h : HeldGranule) : Bool := h.released && h.dev.isNone && !h.acked

theorem acknowledged_cons (k : Nat) (h : HeldGranule) (l : List HeldGranule) : acknowledged (k + 1) (h :: l)
    = if h.waits then { h with acked := true } :: acknowledged k l else h :: acknowledged (k + 1) l := rfl

theorem HeldGranule.acked_of_waits {h : HeldGranule} (hwaits : h.waits = true) : h.acked = false := by
  simp only [HeldGranule.waits, Bool.and_eq_true, Bool.not_eq_true'] at hwaits
  exact hwaits.2

/-- Clearing the marks of an acknowledgement gives the granules without the marks. -/
theorem acknowledged_granules (k : Nat) (l : List HeldGranule) :
    (acknowledged k l).map (fun h => { h with acked := false }) = l.map fun h => { h with acked := false } := by
  induction l generalizing k with
  | nil => rfl
  | cons h l ih =>
    cases k with
    | zero => rfl
    | succ k =>
      rw [acknowledged_cons]
      split
      · simp [ih]
      · simp [ih]

/-- An acknowledgement marks as many granules as it counts, and all that wait if those are fewer. -/
theorem acknowledged_count (k : Nat) (l : List HeldGranule) : (acknowledged k l).countP (fun h => h.acked)
    = l.countP (fun h => h.acked) + min k (l.countP HeldGranule.waits) := by
  induction l generalizing k with
  | nil => simp [acknowledged]
  | cons h l ih =>
    cases k with
    | zero => simp [acknowledged]
    | succ k =>
      rw [acknowledged_cons]
      by_cases hwaits : h.waits = true
      · simp only [List.countP_cons, ih, hwaits, h.acked_of_waits hwaits, if_true, Bool.false_eq_true, if_false]
        omega
      · simp only [List.countP_cons, ih, hwaits, Bool.false_eq_true, if_false]
        omega

theorem Dev.owed_host (d : Dev) (n : Nat) {h : HeldGranule} (hhost : h.dev = none) : d.owed n h = (h.released && !h.acked) := by
  unfold Dev.owed
  rw [hhost]

/-- Of granules that all go to the host, those of a step stay while one of them is not acknowledged. -/
theorem Dev.hostAcked_dmaHold {d : Dev} {n granules : Nat} {l : List HeldGranule}
    (hl : l = acknowledged granules (d.ctx n).dmaHold) (hhost : ∀ h ∈ l, h.dev = none) :
    (d.hostAcked n granules).ctx n = { d.ctx n with dmaHold := l.filter fun h => !h.released || l.any fun g =>
      g.region = h.region && g.step = h.step && g.released && !g.acked } := by
  subst hl
  unfold Dev.hostAcked Dev.holdFree
  simp only [Dev.ctx_updCtx, if_true]
  congr 1
  refine List.filter_congr fun h _ => congrArg (!h.released || ·) ?_
  rw [Bool.eq_iff_iff, List.any_eq_true, List.any_eq_true]
  refine exists_congr fun g => and_congr_right fun hg => ?_
  rw [Dev.owed_host _ n (hhost g hg), Bool.and_assoc, Bool.and_assoc, Bool.and_assoc]

/-! ### The statement -/

/-- The pairs, cores and tier 2 that a command gives when it changes pairs alone. -/
theorem closing_onlyPairs {s : State} {d : Dev} (h : onlyPairs s.dev.cleared d) :
    (∀ m, (s.closing d).dev.qp m = d.qp m) ∧ (s.closing d).dev.t2 = s.dev.t2 ∧ ∀ e, (s.closing d).dev.core e = s.dev.core e := by
  refine ⟨State.closing_qp_of_ctxs h.ctxs, ?_, fun e => ?_⟩
  · rw [State.closing_t2, h.t2]; rfl
  · rw [State.closing_core, h.core, Dev.core_cleared]

theorem qpToRts_settles {s : State} {n : Nat} (hs : clocked s) (hsel : s.dev.objD 0x2801 1 0 = n) (hst : (s.dev.qp n).state ≠ 1) :
    ∃ t, exec .qpToRts s = .next t ∧ (t.dev.qp n).state = 1
      ∧ ((s.dev.qp n).rkey < 2 ^ 32 → (t.dev.qp n).rkey ≠ (s.dev.qp n).rkey) ∧ (t.dev.qp n).queue = (s.dev.qp n).queue
      ∧ (∀ m, m ≠ n → t.dev.qp m = s.dev.qp m) ∧ ∀ e, t.dev.core e = s.dev.core e := by
  subst hsel
  obtain ⟨hctxs, hcores⟩ := s.dev.cleared.qpToRts_frame (s.dev.objD 0x2801 1 0)
  have hqp := Dev.qp_qpToRts (d := s.dev.cleared) hst
  have hself := (State.closing_qp_of_ctxs (s := s) hctxs _).trans ((hqp _).trans (if_pos rfl))
  refine ⟨_, gives_of_onDev hs (exec_qpToRts s) rfl, ?_, fun hlt => ?_, ?_, fun m hm => ?_,
    fun e => (State.closing_core ..).trans (hcores e)⟩
  · exact congrArg Qp.state hself
  · exact fun hsame => Qp.inRts_rkey _ hlt ((congrArg Qp.rkey hself).symm.trans hsame)
  · exact (congrArg Qp.queue hself :)
  · exact (State.closing_qp_of_ctxs hctxs m).trans ((hqp m).trans (if_neg hm))

theorem qpToReset_settles {s : State} {n : Nat} (hs : clocked s) (hsel : s.dev.objD 0x2801 1 0 = n) :
    ∃ t, exec .qpToReset s = .next t ∧ (t.dev.qp n).state = 0 ∧ (t.dev.qp n).queue = []
      ∧ (t.dev.qp n).ecnRate = 1024 ∧ (t.dev.qp n).errors = (s.dev.qp n).errors ∧ (t.dev.qp n).params = (s.dev.qp n).params
      ∧ (∀ m, m ≠ n → t.dev.qp m = s.dev.qp m) ∧ ∀ e, t.dev.core e = s.dev.core e := by
  subst hsel
  obtain ⟨hqp, -, hcore⟩ := closing_onlyPairs (s.dev.cleared.qpToReset_onlyPairs (s.dev.objD 0x2801 1 0))
  have hself := (hqp _).trans ((Dev.qp_qpToReset ..).trans (if_pos rfl))
  exact ⟨_, gives_of_onDev hs (exec_qpToReset s) rfl, congrArg Qp.state hself, congrArg Qp.queue hself, congrArg Qp.ecnRate hself,
    (congrArg Qp.errors hself :), (congrArg Qp.params hself :), fun m hm => (hqp m).trans ((Dev.qp_qpToReset ..).trans (if_neg hm)), hcore⟩

theorem reinitQueuePair_resets {s : State} {n : Nat} (hs : clocked s) (hn : n < 16640) :
    ∃ t, exec (.reinitQueuePair n) s = .next t ∧ (t.dev.qp n).state = 0 ∧ (t.dev.qp n).queue = []
      ∧ t.dev.reinit.state = 3 ∧ t.dev.reinit.a = n ∧ ∀ e, t.dev.core e = s.dev.core e := by
  have hpairs := s.dev.cleared.qpToReset_onlyPairs n
  have hself : (s.closing ((s.dev.cleared.qpToReset n).reinitDone n)).dev.qp n = (s.dev.qp n).inReset :=
    (State.closing_qp_of_ctxs (d := (s.dev.cleared.qpToReset n).reinitDone n) hpairs.ctxs n).trans ((Dev.qp_qpToReset ..).trans (if_pos rfl))
  refine ⟨_, gives_of_onDev hs (exec_reinitQueuePair n s) (if_neg (by omega)), congrArg Qp.state hself, congrArg Qp.queue hself,
    ?_, ?_, fun e => (State.closing_core ..).trans (hpairs.core e)⟩
  · rw [State.closing_reinit]; rfl
  · rw [State.closing_reinit]; rfl

theorem reinitEthernet_resets {s : State} (hs : clocked s) :
    ∃ t, exec .reinitEthernet s = .next t ∧ (∀ p ∈ s.dev.eth.qps, (t.dev.qp p.1).state = 0) ∧ t.dev.objD 0x2800 2 0 = 1
      ∧ t.dev.eth.steerCur = s.dev.eth.steerCur ∧ t.dev.reinit.state = 3 ∧ ∀ e, t.dev.core e = s.dev.core e := by
  have hpairs := s.dev.cleared.reinitEth_onlyPairs
  refine ⟨_, gives_of_onDev hs (exec_reinitEthernet s) rfl, fun p hp => ?_, ?_, ?_, ?_, fun e => (State.closing_core ..).trans (hpairs.core e)⟩
  · exact (congrArg Qp.state (State.closing_qp_of_ctxs (d := s.dev.cleared.reinitEth.reinitDone 4) hpairs.ctxs p.1)).trans (Dev.reinitEth_state (d := s.dev.cleared) hp)
  · exact (State.closing_objD ..).trans ((Dev.objD_setObj ..).trans (if_pos rfl))
  · exact (congrArg Eth.steerCur (State.closing_eth_of_ctxs (d := s.dev.cleared.reinitEth.reinitDone 4) hpairs.ctxs)).trans hpairs.steerCur
  · rw [State.closing_reinit]; rfl

/-- A refused request leaves its pair, which was in RTS, in the error state, with its NAK sent (R472). -/
theorem refused_errs {s : State} {i : Instr} {n : Nat} (hst : (s.dev.qp n).state = 1) {d : Dev}
    (hd : onlyPairs s.dev.cleared d) (hqp : d.qp n = s.dev.qp n) (hgives : gives i s (d.qpError n)) :
    ∃ t, exec i s = .next t ∧ (t.dev.qp n).state = 2 ∧ (t.dev.qp n).errors = (s.dev.qp n).errors + 1
      ∧ t.dev.t2 = s.dev.t2 ∧ ∀ e, t.dev.core e = s.dev.core e := by
  obtain ⟨hclose, ht2, hcore⟩ := closing_onlyPairs (hd.trans (d.qpError_onlyPairs n))
  have hself := (hclose n).trans (Dev.qp_qpError (d := d) (by rw [hqp, hst]))
  rw [hqp] at hself
  exact ⟨_, hgives, congrArg Qp.state hself, congrArg Qp.errors hself, ht2, hcore⟩

theorem roceAckReceive_frees {s : State} {n granules : Nat} {l : List HeldGranule} (hs : clocked s) (hst : (s.dev.qp n).state = 1)
    (hcause : (s.dev.ctx n).blockCause ≠ 0) (hl : l = acknowledged granules (s.dev.ctx n).dmaHold) (hhost : ∀ h ∈ l, h.dev = none) :
    ∃ t, exec (.roceAckReceive n granules) s = .next t
      ∧ (t.dev.ctx n).dmaHold = l.filter (fun h => !h.released || l.any fun g =>
          g.region = h.region && g.step = h.step && g.released && !g.acked)
      ∧ t.dev.t2 = s.dev.t2 ∧ ∀ e, t.dev.core e = s.dev.core e := by
  have hctx := Dev.hostAcked_dmaHold (d := s.dev.cleared) hl hhost
  have hgives : gives (.roceAckReceive n granules) s (s.dev.cleared.hostAcked n granules) :=
    gives_of_onDev hs (exec_roceAckReceive n granules s) ((if_neg (not_not.mpr hst)).trans (if_neg (by rw [hctx]; exact hcause)))
  obtain ⟨op, hclosed⟩ := s.closing_ctx (s.dev.cleared.hostAcked n granules) n
  refine ⟨_, hgives, ?_, (State.closing_t2 ..).trans rfl, fun e => (State.closing_core ..).trans rfl⟩
  rw [hclosed, hctx]

/-- A congestion step changes the pair it names alone, and closing leaves what it makes of it (R474). -/
theorem updQp_closes (s : State) (n : Nat) (f : Qp → Qp) : (s.closing (s.dev.cleared.updQp n f)).dev.qp n = f (s.dev.qp n)
    ∧ ∀ m, m ≠ n → (s.closing (s.dev.cleared.updQp n f)).dev.qp m = s.dev.qp m := by
  obtain ⟨hqp, -, -⟩ := closing_onlyPairs (s.dev.cleared.updQp_onlyPairs n f)
  exact ⟨(hqp n).trans ((Dev.qp_updQp ..).trans (if_pos rfl)), fun m hm => (hqp m).trans ((Dev.qp_updQp ..).trans (if_neg hm))⟩

/-- Settles O45, clause by clause: what a command makes of its pair, and that it leaves the contexts, so that closing it updates no status block. -/
theorem queuePairs : Obligations.QueuePairs := by
  intro s n hs
  refine ⟨qpToRts_settles hs, qpToReset_settles hs, reinitQueuePair_resets hs, reinitEthernet_resets hs, fun hst => ?_,
    fun k l => ⟨acknowledged_granules k l, acknowledged_count k l⟩, ?_, ?_, fun hholds => ?_⟩
  · have hup : ¬(s.dev.cleared.qp n).state ≠ 1 := not_not.mpr hst
    refine ⟨?_, ?_, ?_, fun offset bytes hn hfits => ?_, fun rkey offset bytes hbad => ?_, fun done hbusy => ?_,
      fun granules l hcause hl hhost => roceAckReceive_frees hs hst hcause hl hhost⟩
    · obtain ⟨t, hexec, hstate, herrors, -⟩ :=
        refused_errs hst .rfl rfl (gives_of_onDev hs (exec_qpRetryExhausted n s) rfl)
      exact ⟨t, hexec, hstate, herrors⟩
    · exact refused_errs hst (Dev.emit_onlyPairs ..) rfl (gives_of_onDev hs (exec_rdmaWriteRequest n s) (if_neg hup))
    · exact gives_of_onDev hs (exec_atomicRequest n s) (if_neg hup)
    · exact gives_of_onDev hs (exec_rdmaReadRequest n _ offset bytes s) ((if_neg hup).trans (if_pos ⟨hn, rfl, hfits⟩))
    · obtain ⟨t, hexec, hstate, -⟩ := refused_errs hst (Dev.emit_onlyPairs ..) rfl
        (gives_of_onDev hs (exec_rdmaReadRequest n rkey offset bytes s) ((if_neg hup).trans (if_neg hbad)))
      exact ⟨t, hexec, hstate⟩
    · refine gives_of_onDev hs (exec_rdmaReadResponse n done s) ((if_neg hup).trans ((if_pos hbusy).trans ?_))
      refine congrArg (s.dev.cleared.setCtx n) ?_
      simp [hbusy]
  · obtain ⟨hself, hothers⟩ := updQp_closes s n fun q => { q with ecnRate := s.dev.ecnEntry q.ecnStep, ecnStep := min 15 (q.ecnStep + 1) }
    exact ⟨_, gives_of_onDev hs (exec_cnpReceive n s) rfl, congrArg Qp.ecnRate hself, congrArg Qp.ecnStep hself,
      (congrArg Qp.state hself :), hothers⟩
  · obtain ⟨hself, hothers⟩ := updQp_closes s n fun q => { q with ecnStep := q.ecnStep - 1, ecnRate := s.dev.ecnEntry (q.ecnStep - 1) }
    exact ⟨_, gives_of_onDev hs (exec_ecnRecoverTimer n s) rfl, congrArg Qp.ecnStep hself, congrArg Qp.ecnRate hself,
      (congrArg Qp.state hself :), hothers⟩
  · exact gives_of_onDev hs (exec_statusBlockTimer n s) (if_pos hholds)

end Sys2Proof.Machine
end

section
/-! O32: commands on contexts, and what a change of state and a failure make of a context (R82, R318, R344, R346, R347, R350, R354, R358, R441). -/

namespace Sys2Proof.Machine

theorem exec_ctxStart (n : Nat) (s : State) : exec (.ctxStart n) s = s.onDev fun d => d.start n := rfl

theorem exec_ctxStop (n : Nat) (s : State) : exec (.ctxStop n) s = s.onDev fun d => d.stopCtx n := rfl

theorem exec_ctxPreemptGate (n : Nat) (s : State) : exec (.ctxPreemptGate n) s = s.onDev fun d => d.preemptGate n false := rfl

theorem exec_ctxPark (n : Nat) (s : State) : exec (.ctxPark n) s = s.onDev fun d => d.preemptGate n true := rfl

theorem exec_ctxPreemptMid (n : Nat) (s : State) : exec (.ctxPreemptMid n) s = s.onDev fun d => d.preemptMid n := rfl

theorem exec_preemptWaitExpiry (n : Nat) (s : State) : exec (.preemptWaitExpiry n) s = s.onDev fun d =>
    if (d.ctx n).gateReq = some false && !(d.ctx n).midStep && !(d.ctx n).entering
        && ((d.ctx n).state = .running || (d.ctx n).state = .blocked) && !((d.ctx n).regions.all (·.parked))
    then d.midStop n else d := rfl

theorem exec_ctxUnload (n : Nat) (s : State) : exec (.ctxUnload n) s = s.onDev fun d => d.unload n := rfl

theorem exec_ctxKill (n : Nat) (s : State) : exec (.ctxKill n) s = s.onDev fun d => d.kill n := rfl

/-! ### Start, stop, pre-emption and kill: which state allows which (R347, R350, R442) -/

section
variable {d : Dev} {n : Nat}

/-- A LOADED context whose devices are all peers starts (R442). -/
theorem Dev.start_loaded (hst : (d.ctx n).state = .loaded)
    (hpeers : ∀ v ∈ (d.ctx n).image.devices, v = 0xFFFF ∨ ∃ p ∈ (d.ctx n).peerList, p.1 = v) :
    d.start n = ((d.toState n .ready).join n).schedule := by
  have hnone : ((d.ctx n).image.devices.any fun v => v != 0xFFFF && !((d.ctx n).peerList.any fun p => p.1 = v)) = false := by
    refine List.any_eq_false.2 fun v hv => ?_
    rcases hpeers v hv with rfl | ⟨p, hp, rfl⟩
    · simp
    · have hany : ((d.ctx n).peerList.any fun q => q.1 = p.1) = true := List.any_eq_true.2 ⟨p, hp, by simp⟩
      simp [hany]
  unfold Dev.start
  simp [firstFail, hst, hnone]

theorem Dev.stopCtx_commitDue (hst : (d.ctx n).state = .running ∨ (d.ctx n).state = .blocked) (hdue : (d.ctx n).noCommit = false) :
    d.stopCtx n = d.updCtx n fun x => { x with stopReq := true } := by
  unfold Dev.stopCtx
  simp only [hst, hdue, if_true, Bool.false_eq_true, if_false]

/-- A stop wins over a pre-emption that leaves no commit to come (R354). -/
theorem Dev.stopCtx_noCommit (hst : (d.ctx n).state = .running ∨ (d.ctx n).state = .blocked) (hnone : (d.ctx n).noCommit = true) :
    d.stopCtx n = (d.updCtx n fun x => { x with midStep := false }).drain n := by
  unfold Dev.stopCtx
  simp only [hst, hnone, if_true]

theorem Dev.preemptGate_preempts (hst : (d.ctx n).state = .running ∨ (d.ctx n).state = .blocked ∨ (d.ctx n).state = .resident) :
    d.preemptGate n false = d.askGate n false := if_pos hst

theorem Dev.preemptGate_parks (hst : (d.ctx n).state = .running) : d.preemptGate n true = d.askGate n true := if_pos hst

theorem Dev.preemptMid_running (hst : (d.ctx n).state = .running) (hin : (d.ctx n).entering = false) :
    d.preemptMid n = d.midStop n := by
  unfold Dev.preemptMid
  simp [hst, hin]

theorem Dev.kill_fails (hfree : (d.ctx n).state ≠ .free) (hloaded : (d.ctx n).state ≠ .loaded) :
    d.kill n = d.fail n (d.ctx n).lastCode := if_neg (not_or.2 ⟨hfree, hloaded⟩)

end

/-! ### A stop in mid-step changes of cores only whether they issue (R82, R350) -/

/-- A core that runs or is at a gate stops issue, for the scan. -/
def Dev.haltLive (d : Dev) (c : CoreId) : Dev :=
  if (d.arch c).live then d.updStat c fun s => { s with run := .scanning } else d

/-- The cores of a region of context n that run or are at a gate stop issue. -/
def Dev.haltRegion (n : Nat) (d : Dev) (r : RegionRt) : Dev := ((d.ctx n).coresIn r.num).foldl Dev.haltLive d

/-- From device d to device e only cores change, and of them only status; a core that no longer does what it did is stopped for a scan. -/
structure OnlyHalts (d e : Dev) : Prop where
  frame : e = { d with cores := e.cores }
  regs : ∀ c, (e.arch c).regs = (d.arch c).regs
  mem : ∀ c, (e.core c).mem = (d.core c).mem
  run : ∀ c, (e.arch c).stat.run = (d.arch c).stat.run ∨ (e.arch c).stat.run = .scanning

theorem OnlyHalts.rfl {d : Dev} : OnlyHalts d d := ⟨.refl _, fun _ => .refl _, fun _ => .refl _, fun _ => .inl (.refl _)⟩

theorem OnlyHalts.ctx {d e : Dev} (h : OnlyHalts d e) (n : Nat) : e.ctx n = d.ctx n := by rw [h.frame]; exact .refl _

/-- A core stopped for a scan stays so. -/
theorem OnlyHalts.scanning {d e : Dev} (h : OnlyHalts d e) {c : CoreId} (hc : (d.arch c).stat.run = .scanning) :
    (e.arch c).stat.run = .scanning := (h.run c).elim (·.trans hc) id

theorem OnlyHalts.trans {a b c : Dev} (h : OnlyHalts a b) (g : OnlyHalts b c) : OnlyHalts a c where
  frame := by rw [g.frame, h.frame]
  regs k := (g.regs k).trans (h.regs k)
  mem k := (g.mem k).trans (h.mem k)
  run k := (h.run k).elim (fun hb => (g.run k).imp_left (·.trans hb)) fun hb => .inr (g.scanning hb)

section
variable {α : Type} {f : Dev → α → Dev} (hf : ∀ d x, OnlyHalts d (f d x))
include hf

theorem OnlyHalts.foldl (l : List α) (d : Dev) : OnlyHalts d (l.foldl f d) := by
  induction l generalizing d with
  | nil => exact .rfl
  | cons x l ih => exact (hf d x).trans (ih _)

/-- A core that one of the steps stops, wherever it stands among them, is stopped after them all. -/
theorem OnlyHalts.foldl_scanning {l : List α} {x : α} (hx : x ∈ l) {c : CoreId} {d : Dev}
    (h : ∀ e, OnlyHalts d e → ((f e x).arch c).stat.run = .scanning) : ((l.foldl f d).arch c).stat.run = .scanning := by
  obtain ⟨before, after, rfl⟩ := List.append_of_mem hx
  rw [List.foldl_append, List.foldl_cons]
  exact (OnlyHalts.foldl hf after _).scanning (h _ (OnlyHalts.foldl hf before d))
end

theorem Dev.haltLive_onlyHalts (d : Dev) (c : CoreId) : OnlyHalts d (d.haltLive c) := by
  unfold Dev.haltLive
  split
  · have hcore (e : CoreId) : (d.updStat c fun s => { s with run := .scanning }).core e
          = { d.core e with arch := { d.arch e with stat := { (d.arch e).stat with run := .scanning } } }
        ∨ (d.updStat c fun s => { s with run := .scanning }).core e = d.core e := by
      rw [Dev.core_updStat, Dev.arch, d.core_of_key c e]
      split
      · exact .inl rfl
      · exact .inr rfl
    refine ⟨rfl, fun e => ?_, fun e => ?_, fun e => ?_⟩
    · unfold Dev.arch; obtain h | h := hcore e <;> rw [h]; rfl
    · obtain h | h := hcore e <;> rw [h]
    · unfold Dev.arch; obtain h | h := hcore e <;> rw [h]
      · exact .inr rfl
      · exact .inl rfl
  · exact .rfl

/-- A core that has been live, and has changed at most by being stopped, is stopped. -/
theorem Dev.haltLive_scanning {d e : Dev} {c : CoreId} (h : OnlyHalts d e) (hlive : (d.arch c).live = true) :
    ((e.haltLive c).arch c).stat.run = .scanning := by
  rcases h.run c with hsame | hstopped
  · have hlive' : (e.arch c).live = true := by unfold Arch.live at hlive ⊢; rw [hsame]; exact hlive
    unfold Dev.haltLive
    rw [if_pos hlive', Dev.arch_updStat]
  · exact (e.haltLive_onlyHalts c).scanning hstopped

theorem Dev.haltRegion_onlyHalts (n : Nat) (d : Dev) (r : RegionRt) : OnlyHalts d (d.haltRegion n r) :=
  .foldl Dev.haltLive_onlyHalts _ d

/-- What a stop in mid-step writes of its context. -/
def Ctx.midStopped (x : Ctx) : Ctx := { x with midStep := true, gateReq := some false }

/-- A context that is not to stop, with no region in a replay or parked, stops issue in every core of its regions (R82, R350). -/
theorem Dev.midStop_eq {d : Dev} {n : Nat} (hstop : (d.ctx n).stopReq = false)
    (hregions : ∀ r ∈ (d.ctx n).regions, r.replay = none ∧ r.parked = false) :
    d.midStop n = ((d.ctx n).regions.foldl (Dev.haltRegion n) d).updCtx n Ctx.midStopped := by
  unfold Dev.midStop
  rw [if_neg (by simp [hstop])]
  refine congrArg (Dev.updCtx · n Ctx.midStopped) (List.foldl_ext _ _ _ fun e r hr => ?_)
  obtain ⟨hreplay, hparked⟩ := hregions r hr
  simp only [hreplay, hparked, Option.isSome_none, Bool.false_and, Bool.false_eq_true, if_false]
  rfl

/-- The device that such a stop gives: cores only halted, every live core of the context's regions among them. -/
theorem Dev.midStop_halts {d : Dev} {n : Nat} (hstop : (d.ctx n).stopReq = false)
    (hregions : ∀ r ∈ (d.ctx n).regions, r.replay = none ∧ r.parked = false) : ∃ e, OnlyHalts d e
      ∧ d.midStop n = e.updCtx n Ctx.midStopped
      ∧ ∀ r ∈ (d.ctx n).regions, ∀ c ∈ (d.ctx n).coresIn r.num, (d.arch c).live = true → (e.arch c).stat.run = .scanning := by
  refine ⟨_, .foldl (Dev.haltRegion_onlyHalts n) _ d, Dev.midStop_eq hstop hregions, fun r hr c hc hlive => ?_⟩
  refine OnlyHalts.foldl_scanning (Dev.haltRegion_onlyHalts n) hr fun e he => ?_
  refine OnlyHalts.foldl_scanning Dev.haltLive_onlyHalts (by rw [he.ctx]; exact hc) fun e' he' => ?_
  exact Dev.haltLive_scanning (he.trans he') hlive

theorem ctxPreemptMid_stops {s : State} {n : Nat} (hs : clocked s) (hst : (s.dev.ctx n).state = .running)
    (hin : (s.dev.ctx n).entering = false) (hstop : (s.dev.ctx n).stopReq = false)
    (hregions : ∀ r ∈ (s.dev.ctx n).regions, r.replay = none ∧ r.parked = false) :
    ∃ t, exec (.ctxPreemptMid n) s = .next t ∧ (t.dev.ctx n).midStep = true ∧ (t.dev.ctx n).gateReq = some false
      ∧ (∀ r ∈ (s.dev.ctx n).regions, ∀ c ∈ (s.dev.ctx n).coresIn r.num, (s.dev.arch c).live = true → (t.dev.arch c).stat.run = .scanning)
      ∧ ∀ c, (t.dev.arch c).regs = (s.dev.arch c).regs ∧ (t.dev.core c).mem = (s.dev.core c).mem := by
  obtain ⟨e, hhalts, heq, hscanning⟩ := Dev.midStop_halts (d := s.dev.cleared) hstop hregions
  obtain ⟨op, hctx⟩ := s.closing_ctx (e.updCtx n Ctx.midStopped) n
  rw [Dev.ctx_updCtx, if_pos rfl] at hctx
  refine ⟨_, gives_of_onDev hs (exec_ctxPreemptMid n s) ((Dev.preemptMid_running (d := s.dev.cleared) hst hin).trans heq),
    by rw [hctx]; rfl, by rw [hctx]; rfl, fun r hr c hc hlive => ?_, fun c => ⟨?_, ?_⟩⟩
  · rw [State.closing_arch]; exact hscanning r hr c hc hlive
  · rw [State.closing_arch]; exact hhalts.regs c
  · rw [State.closing_core]; exact hhalts.mem c

/-! ### Unloading (R318, R344, R347) -/

/-- Frames that are given back are zero-filled, and no other byte changes. -/
theorem Dev.freeFrame_foldl_mem (l : List Nat) (d : Dev) (a : Nat) : memGet (l.foldl Dev.freeFrame d).t2.mem a
    = if ∃ f ∈ l, f * 65536 ≤ a ∧ a < f * 65536 + 65536 then 0#8 else memGet d.t2.mem a := by
  induction l generalizing d with
  | nil => simp
  | cons f l ih =>
    rw [List.foldl_cons, ih]
    have hfree : memGet (d.freeFrame f).t2.mem a = if f * 65536 ≤ a ∧ a < f * 65536 + 65536 then 0#8 else memGet d.t2.mem a :=
      memGet_memClear ..
    rw [hfree, ← ite_or]
    exact if_congr (by simp [or_comm]) rfl rfl

/-- Giving back frames changes tier 2 alone. -/
theorem Dev.freeFrame_foldl_frame (l : List Nat) (d : Dev) : l.foldl Dev.freeFrame d = { d with t2 := (l.foldl Dev.freeFrame d).t2 } := by
  induction l generalizing d with
  | nil => rfl
  | cons f l ih => rw [List.foldl_cons, ih]; rfl

/-- What unloading leaves of a context: a FREE one with its windows, whose long operations under way are cancelled (R344, R355, R475). -/
def Ctx.unloaded (x : Ctx) : Ctx :=
  let kept (o : LongOp) : LongOp := if o.busy then o.cancelled else o
  { clearCtx with
    windows := x.windows, lastOp := x.lastOp
    load := kept x.load, gearLoad := kept x.gearLoad, migrate := kept x.migrate, reshard := kept x.reshard, ckpt := kept x.ckpt }

theorem Dev.ctx_unload {d : Dev} {n : Nat} (hst : (d.ctx n).state = .loaded ∨ (d.ctx n).state = .failed) :
    (d.unload n).ctx n = (d.ctx n).unloaded := by
  unfold Dev.unload
  rw [if_pos hst]
  exact (Dev.ctx_setCtx ..).trans (if_pos rfl)

/-- Unloading gives back the context's frames, and touches no core. -/
theorem Dev.unload_frame {d : Dev} {n : Nat} (hst : (d.ctx n).state = .loaded ∨ (d.ctx n).state = .failed) :
    (d.unload n).t2.mem = (((d.ctx n).frames ++ (d.ctx n).fixed).foldl Dev.freeFrame d).t2.mem
    ∧ ∀ c, (d.unload n).core c = d.core c := by
  unfold Dev.unload
  rw [if_pos hst, Dev.freeFrame_foldl_frame]
  exact ⟨rfl, fun _ => rfl⟩

theorem ctxUnload_frees {s : State} {n : Nat} (hs : clocked s) (hst : (s.dev.ctx n).state = .loaded ∨ (s.dev.ctx n).state = .failed) :
    ∃ t, exec (.ctxUnload n) s = .next t
      ∧ (t.dev.ctx n).state = .free ∧ (t.dev.ctx n).frames = [] ∧ (t.dev.ctx n).fixed = [] ∧ (t.dev.ctx n).windows = (s.dev.ctx n).windows
      ∧ (∀ f ∈ (s.dev.ctx n).frames ++ (s.dev.ctx n).fixed, ∀ a, f * 65536 ≤ a → a < f * 65536 + 65536 → memGet t.dev.t2.mem a = 0#8)
      ∧ (∀ a, (∀ f ∈ (s.dev.ctx n).frames ++ (s.dev.ctx n).fixed, ¬(f * 65536 ≤ a ∧ a < f * 65536 + 65536)) →
          memGet t.dev.t2.mem a = memGet s.dev.t2.mem a)
      ∧ ∀ c, t.dev.core c = s.dev.core c := by
  obtain ⟨hmem, hcore⟩ := Dev.unload_frame (d := s.dev.cleared) hst
  obtain ⟨op, hctx⟩ := s.closing_ctx (s.dev.cleared.unload n) n
  rw [Dev.ctx_unload (d := s.dev.cleared) hst] at hctx
  refine ⟨_, gives_of_onDev hs (exec_ctxUnload n s) rfl, by rw [hctx]; rfl, by rw [hctx]; rfl, by rw [hctx]; rfl,
    by rw [hctx]; rfl, fun f hf a hlo hhi => ?_, fun a hout => ?_, fun c => ?_⟩
  · rw [State.closing_t2, hmem, Dev.freeFrame_foldl_mem, if_pos ⟨f, hf, hlo, hhi⟩]
  · rw [State.closing_t2, hmem, Dev.freeFrame_foldl_mem, if_neg fun ⟨f, hf, hin⟩ => hout f hf hin]
    rfl
  · rw [State.closing_core]; exact hcore c

/-! ### Changes of state (R346, R347, R358, R441) -/

/-- A context in a new state, from device time `now`: its time RUNNING is counted (R358). -/
def Ctx.inState (x : Ctx) (st : CtxState) (now : Nat) : Ctx :=
  { x with
    state := st
    runNs := x.runNs + match x.runSince with
      | some t => now - t
      | none => 0
    runSince := if st = .running then some now else none }

theorem Dev.toState_eq (d : Dev) (n : Nat) (st : CtxState) : d.toState n st =
    if (d.ctx n).state.holds = st.holds then d.updCtx n (Ctx.inState · st d.time)
    else ((d.updCtx n (Ctx.inState · st d.time)).residency n st.holds).clockRise := rfl

/-- Residency frames and the clock leave every core, and every context but for the devices that are to acknowledge the frames. -/
theorem Dev.residency_frame (d : Dev) (n : Nat) (here : Bool) :
    (∀ c, (d.residency n here).clockRise.core c = d.core c)
      ∧ ∀ m, m ≠ n → (d.residency n here).clockRise.ctx m = d.ctx m := by
  have hclock (e : Dev) (c : CoreId) : e.clockRise.core c = e.core c := by
    unfold Dev.clockRise; split <;> rfl
  have hsend (e : Dev) (p : Nat × Nat) (c : CoreId) : (e.sendMgmt p.1 7 n p.2 0 0 (.residency here)).core c = e.core c := by
    obtain ⟨_, _, _, h⟩ := e.sendMgmt_frame p.1 7 n p.2 0 0 (.residency here)
    rw [h]; rfl
  refine ⟨fun c => ?_, fun m hm => ?_⟩
  · exact (hclock ..).trans (foldl_unchanged (fun e : Dev => e.core c) (fun e p => hsend e p c) _ _)
  · refine (Dev.ctx_clockRise ..).trans ((foldl_unchanged (fun e : Dev => e.ctx m) (fun e p => e.ctx_sendMgmt ..) _ _).trans ?_)
    rw [Dev.ctx_updCtx, if_neg hm]

/-- A change of state counts the context's time RUNNING, and leaves of it all else but the devices that are to acknowledge it. -/
theorem Dev.ctx_toState (d : Dev) (n : Nat) (st : CtxState) :
    ∃ l, (d.toState n st).ctx n = { (d.ctx n).inState st d.time with unacked := l } := by
  have hin : (d.updCtx n (Ctx.inState · st d.time)).ctx n = (d.ctx n).inState st d.time := by rw [Dev.ctx_updCtx, if_pos rfl]
  rw [Dev.toState_eq]
  split
  · exact ⟨_, hin⟩
  · obtain ⟨l, h⟩ := Dev.ctx_residency (d.updCtx n (Ctx.inState · st d.time)) n st.holds
    exact ⟨l, by rw [Dev.ctx_clockRise, h, hin]⟩

/-- A change of state touches no core and no other context. -/
theorem Dev.toState_frame (d : Dev) (n : Nat) (st : CtxState) :
    (∀ c, (d.toState n st).core c = d.core c) ∧ ∀ m, m ≠ n → (d.toState n st).ctx m = d.ctx m := by
  have hother (m : Nat) (hm : m ≠ n) : (d.updCtx n (Ctx.inState · st d.time)).ctx m = d.ctx m := by rw [Dev.ctx_updCtx, if_neg hm]
  rw [Dev.toState_eq]
  split
  · exact ⟨fun _ => rfl, hother⟩
  · obtain ⟨hcore, hctx⟩ := (d.updCtx n (Ctx.inState · st d.time)).residency_frame n st.holds
    exact ⟨hcore, fun m hm => (hctx m hm).trans (hother m hm)⟩

/-! ### Failure (R346, R347) -/

@[simp] theorem Dev.ctx_powerCells (d : Dev) (cells : List (Nat × Nat)) (mode m : Nat) : (d.powerCells cells mode).ctx m = d.ctx m := by
  refine foldl_unchanged (fun e : Dev => e.ctx m) (fun e c => ?_) _ d
  rfl

theorem Dev.ctx_wipe (d : Dev) (n m : Nat) : (d.wipe n).ctx m = d.ctx m := by
  refine foldl_unchanged (fun e : Dev => e.ctx m) (fun e c => ?_) _ d
  split <;> rfl

/-- Contents that leave the cells lie in the save area of their context, of which nothing else changes (R199). -/
theorem Dev.ctx_contentsLeave (d : Dev) (n : Nat) : (d.contentsLeave n).ctx n
    = { d.ctx n with savedMem := d.contents n, contentsInPlace := false, copying := false } := by
  unfold Dev.contentsLeave
  dsimp only
  rw [Dev.ctx_powerCells, Dev.ctx_updCtx, if_pos rfl, Dev.ctx_wipe]

/-- Whatever it was, a context that fails is FAILED with its code, without regions and without requests. -/
theorem Dev.toFailed_fails (d : Dev) (n : Nat) (code : Code) :
    ((d.toFailed n code).ctx n).state = .failed ∧ ((d.toFailed n code).ctx n).lastCode = code
    ∧ ((d.toFailed n code).ctx n).regions = [] ∧ ((d.toFailed n code).ctx n).gateReq = none
    ∧ ((d.toFailed n code).ctx n).stopReq = false := by
  unfold Dev.toFailed
  dsimp only
  split
  · rw [Dev.ctx_contentsLeave, Dev.ctx_updCtx, if_pos rfl]
    exact ⟨Dev.state_toState .., rfl, rfl, rfl, rfl⟩
  · rw [Dev.ctx_updCtx, if_pos rfl]
    exact ⟨Dev.state_toState .., rfl, rfl, rfl, rfl⟩

/-! ### The statement -/

/-- Settles O32: each command by the branch of its function that the context's state chooses. -/
theorem contextCommands : Obligations.ContextCommands := by
  refine ⟨fun s n hs => ⟨fun hst hpeers => ?_, fun hst => ⟨fun hdue => ?_, fun hnone => ?_⟩, fun hst => ?_, fun hst => ?_,
      ctxPreemptMid_stops hs, fun hgate hmid hin hst hregion => ?_, ctxUnload_frees hs, fun hfree hloaded => ?_⟩,
    fun d n => ⟨d.toFailed_fails n, fun st => ?_⟩⟩
  · exact gives_of_onDev hs (exec_ctxStart n s) (Dev.start_loaded (d := s.dev.cleared) hst hpeers)
  · exact gives_of_onDev hs (exec_ctxStop n s) (Dev.stopCtx_commitDue (d := s.dev.cleared) hst hdue)
  · exact gives_of_onDev hs (exec_ctxStop n s) (Dev.stopCtx_noCommit (d := s.dev.cleared) hst hnone)
  · exact gives_of_onDev hs (exec_ctxPreemptGate n s) (Dev.preemptGate_preempts (d := s.dev.cleared) hst)
  · exact gives_of_onDev hs (exec_ctxPark n s) (Dev.preemptGate_parks (d := s.dev.cleared) hst)
  · obtain ⟨r, hr, hparked⟩ := hregion
    have hall : (s.dev.ctx n).regions.all (·.parked) = false := List.all_eq_false.2 ⟨r, hr, by simp [hparked]⟩
    exact gives_of_onDev hs (exec_preemptWaitExpiry n s) (if_pos (by simp [hgate, hmid, hin, hst, hall]))
  · exact gives_of_onDev hs (exec_ctxKill n s) (Dev.kill_fails (d := s.dev.cleared) hfree hloaded)
  · obtain ⟨l, hctx⟩ := d.ctx_toState n st
    obtain ⟨hcore, hother⟩ := d.toState_frame n st
    rw [hctx]
    exact ⟨rfl, rfl, rfl, fun t ht => by simp [Ctx.inState, ht], fun ht => by simp [Ctx.inState, ht], hcore, hother⟩

end Sys2Proof.Machine
end

section
/-! O33: quanta, blocks, and the answers to scheduling events (R347, R350, R351, R353). -/

namespace Sys2Proof.Machine

theorem exec_quantumExpiry (n : Nat) (s : State) : exec (.quantumExpiry n) s = s.onDev fun d =>
    if (d.ctx n).state.holds && (d.ctx n).quantumUs != 0 then (d.updCtx n fun x => { x with quantumOver := true }).schedule else d := rfl

theorem exec_blockTimeout (n cause : Nat) (s : State) : exec (.blockTimeout n cause) s = s.onDev fun d =>
    if (d.ctx n).state = .running then ((d.toState n .blocked).updCtx n fun x => { x with blockCause := cause }).schedule else d := rfl

/-! ### One answer per event (R353) -/

/-- What an answer f makes of the device: it takes one of the events that wait, and is nothing while none waits. -/
def Dev.answerEvent (f : Dev → Dev) (d : Dev) : Dev := if d.schedWait = 0 then d else f { d with schedWait := d.schedWait - 1 }

/-- A waiting context moves to the tail of its new class (R351). -/
def Dev.setClass (d : Dev) (n value : Nat) : Dev :=
  let e := (d.leave n).updCtx n fun x => { x with cls := value }
  if (vGet d.ready (d.ctx n).cls []).contains n then e.join n else e

section
variable (n value : Nat) (s : State)

theorem exec_policyDecision_none : exec (.policyDecision 0 n value) s = s.onDev (Dev.answerEvent id) := rfl

theorem exec_policyDecision_dispatch : exec (.policyDecision 1 n value) s
    = s.onDev (Dev.answerEvent fun d => match d.dispatchCheck n with
      | some code => d.reply code
      | none => d.dispatch n) := rfl

theorem exec_policyDecision_park : exec (.policyDecision 2 n value) s = s.onDev (Dev.answerEvent fun d => d.preemptGate n true) := rfl

theorem exec_policyDecision_preemptGate : exec (.policyDecision 3 n value) s
    = s.onDev (Dev.answerEvent fun d => d.preemptGate n false) := rfl

theorem exec_policyDecision_preemptMid : exec (.policyDecision 4 n value) s = s.onDev (Dev.answerEvent fun d => d.preemptMid n) := rfl

theorem exec_policyDecision_class : exec (.policyDecision 5 n value) s
    = s.onDev (Dev.answerEvent fun d => if 8 ≤ value then d.reply cBadArgument else d.setClass n value) := rfl

theorem exec_policyDecision_quantum : exec (.policyDecision 6 n value) s
    = s.onDev (Dev.answerEvent fun d => d.updCtx n fun x => { x with quantumUs := value }) := rfl

theorem exec_policyTimeout : exec .policyTimeout s = s.onDev (Dev.answerEvent fun d => (d.bump 0x5000 9 1).defaultPolicy) := rfl

end

/-- While an event waits, its answer has its effect on the device with one event fewer. -/
theorem gives_answer {s : State} {i : Instr} {f : Dev → Dev} {d : Dev} {k : Nat} (hs : clocked s) (hk : s.dev.schedWait = k + 1)
    (hi : exec i s = s.onDev (Dev.answerEvent f)) (hd : f { s.dev.cleared with schedWait := k } = d) : gives i s d := by
  refine gives_of_onDev hs hi ?_
  have hwait : s.dev.cleared.schedWait = k + 1 := hk
  unfold Dev.answerEvent
  rw [if_neg (by omega), hwait]
  exact hd

/-- A change of class writes the class of its context, and touches no core. -/
theorem Dev.setClass_spec (d : Dev) (n value : Nat) : (d.setClass n value).ctx n = { d.ctx n with cls := value }
    ∧ ∀ c, (d.setClass n value).core c = d.core c := by
  have hctx : ((d.leave n).updCtx n fun x => { x with cls := value }).ctx n = { d.ctx n with cls := value } :=
    (Dev.ctx_updCtx ..).trans (if_pos rfl)
  unfold Dev.setClass
  dsimp only
  split
  · exact ⟨hctx, fun _ => rfl⟩
  · exact ⟨hctx, fun _ => rfl⟩

theorem policyDecision_setsClass {s : State} {n k value : Nat} (hs : clocked s) (hk : s.dev.schedWait = k + 1) (hvalue : value < 8) :
    ∃ t, exec (.policyDecision 5 n value) s = .next t ∧ (t.dev.ctx n).cls = value
      ∧ (t.dev.ctx n).state = (s.dev.ctx n).state ∧ ∀ c, t.dev.core c = s.dev.core c := by
  obtain ⟨hctx, hcore⟩ := Dev.setClass_spec { s.dev.cleared with schedWait := k } n value
  obtain ⟨op, hclosed⟩ := s.closing_ctx (Dev.setClass { s.dev.cleared with schedWait := k } n value) n
  rw [hctx] at hclosed
  exact ⟨_, gives_answer hs hk (exec_policyDecision_class n value s) (if_neg (by omega)), by rw [hclosed], by rw [hclosed]; rfl,
    fun c => (State.closing_core ..).trans (hcore c)⟩

/-! ### The statement -/

/-- Settles O33: the timers by the branch that the context's state chooses, each answer on the device with its event taken, and a scheduling event by who answers it. -/
theorem scheduling : Obligations.Scheduling := by
  refine fun s n hs => ⟨fun hholds hquantum => ?_, fun cause hst => ?_, fun k hk => ⟨fun value => ?_, fun value hcheck => ?_, fun value => ?_,
    fun value => ?_, fun value => ?_, fun value => ?_, fun value => policyDecision_setsClass hs hk, ?_⟩, fun howner => if_pos howner,
    fun hdefault => if_neg hdefault⟩
  · exact gives_of_onDev hs (exec_quantumExpiry n s) (if_pos (by simp [hholds, hquantum]))
  · exact gives_of_onDev hs (exec_blockTimeout n cause s) (if_pos hst)
  · exact gives_answer hs hk (exec_policyDecision_none n value s) rfl
  · exact gives_answer hs hk (exec_policyDecision_dispatch n value s) (by rw [hcheck])
  · exact gives_answer hs hk (exec_policyDecision_park n value s) rfl
  · exact gives_answer hs hk (exec_policyDecision_preemptGate n value s) rfl
  · exact gives_answer hs hk (exec_policyDecision_preemptMid n value s) rfl
  · exact gives_answer hs hk (exec_policyDecision_quantum n value s) rfl
  · exact gives_answer hs hk (exec_policyTimeout s) rfl

end Sys2Proof.Machine
end

section
/-! O46: the command transport (R350, R354, R475 to R479). The statement fails: it says that a mid-step pre-emption stops issue in every RUNNING context whose regions neither replay nor hold, also in one that is asked to stop, where the stop wins and the context drains (R354). Of a context that is not asked to stop the clause holds. -/

namespace Sys2Proof.Machine

theorem exec_bctPreempt (n : Nat) (s : State) :
    exec (.bctPreempt n) s = s.onDev fun d => d.bct n 0x07 fun a d => d.preemptCmd n (bits a 1 0) := rfl

/-! ### A pre-emption in mid-step by the transport -/

theorem Dev.preemptCmd_mid {d : Dev} {n : Nat} (hst : (d.ctx n).state = .running) (hin : (d.ctx n).entering = false) :
    d.preemptCmd n 2 = d.midStop n := Dev.preemptMid_running hst hin

/-- The end of a transport command leaves every core and every context but for its most recent operation. -/
theorem bctEnds_leaves (s : State) {d : Dev} {n : Nat} {w : BctWord} {rest : List BctWord} (hq : (d.qp n).queue = w :: rest) (m : Nat) :
    ∃ k, (s.closing (d.bctEnds n rest)).dev.ctx m = { d.ctx m with lastOp := k } := by
  obtain ⟨⟨_, _, _, _, h⟩, -⟩ := Dev.bctEnds_spec d n w rest hq
  obtain ⟨k, hk⟩ := s.closing_ctx (d.bctEnds n rest) m
  exact ⟨k, by rw [hk, h]; rfl⟩

/-- The clause of O46 on the mid-step pre-emption, of a context that is not asked to stop (R82, R350). -/
theorem bctPreempt_mid {s : State} {n : Nat} {w : BctWord} {rest : List BctWord} (hs : clocked s)
    (hq : (s.dev.qp n).queue = w :: rest) (hop : bctOp w = 0x07) (hmode : bits (bctArgs w) 1 0 = 2)
    (hst : (s.dev.ctx n).state = .running) (hin : (s.dev.ctx n).entering = false) (hstop : (s.dev.ctx n).stopReq = false)
    (hregions : ∀ r ∈ (s.dev.ctx n).regions, r.replay = none ∧ r.parked = false) :
    ∃ t, exec (.bctPreempt n) s = .next t ∧ bctEnded s t n w rest cOk
      ∧ (t.dev.ctx n).midStep = true ∧ (t.dev.ctx n).gateReq = some false
      ∧ (∀ r ∈ (s.dev.ctx n).regions, ∀ c ∈ (s.dev.ctx n).coresIn r.num, (s.dev.arch c).live = true → (t.dev.arch c).stat.run = .scanning)
      ∧ ∀ c, (t.dev.arch c).regs = (s.dev.arch c).regs ∧ (t.dev.core c).mem = (s.dev.core c).mem := by
  obtain ⟨e, hhalts, heq, hscanning⟩ := Dev.midStop_halts (d := s.dev.cleared) hstop hregions
  have hexec := bct_gives hs (exec_bctPreempt n s) hq hop
  rw [hmode, (Dev.preemptCmd_mid (d := s.dev.cleared) hst hin).trans heq] at hexec
  have heth : (e.updCtx n Ctx.midStopped).eth = s.dev.eth := by rw [hhalts.frame]; rfl
  have hanswer : (e.updCtx n Ctx.midStopped).answer = cOk := by rw [hhalts.frame]; rfl
  have hqp : (e.updCtx n Ctx.midStopped).qp n = s.dev.qp n := by unfold Dev.qp; rw [heth]
  have hfront : ((e.updCtx n Ctx.midStopped).qp n).queue = w :: rest := by rw [hqp, hq]
  have hcore := bctEnds_core s (e.updCtx n Ctx.midStopped) n w rest hfront
  obtain ⟨op, hctx⟩ := bctEnds_leaves s hfront n
  rw [Dev.ctx_updCtx, if_pos rfl] at hctx
  refine ⟨_, hexec, by rw [← hanswer]; exact bctEnds_ended hqp hq, by rw [hctx]; rfl, by rw [hctx]; rfl,
    fun r hr c hc hlive => ?_, fun c => ⟨?_, ?_⟩⟩
  · rw [Dev.arch, hcore]; exact hscanning r hr c hc hlive
  · rw [Dev.arch, hcore]; exact hhalts.regs c
  · rw [hcore]; exact hhalts.mem c

/-! ### The counterexample -/

/-- BCT_PREEMPT in mid-step, of version 1 and for context 0. -/
def preemptMidWord : BctWord := 0x100 + 0x07 * 2 ^ 16 + 2 * 2 ^ 128

/-- A RUNNING context that is asked to stop at its next commit. -/
def stopAskedCtx : Ctx := { clearCtx with state := .running, stopReq := true }

/-- The state at reset, but with that context as context 0, and the pre-emption at the front of its queue. -/
def stopAsked : State :=
  { State.reset with dev := { State.reset.dev with
      ctxs := [(0, stopAskedCtx)]
      eth := { State.reset.dev.eth with qps := [(0, { clearQp with state := 1, queue := [preemptMidWord] })] } } }

/-- A context that is asked to stop drains at a mid-step pre-emption (R354). -/
theorem Dev.midStop_drains {d : Dev} {n : Nat} (hstop : (d.ctx n).stopReq = true) : d.midStop n = d.drain n := if_pos hstop

/-- The drain of that context leaves the queue pair as it was, and the context without a stop in mid-step. -/
theorem stopAsked_drained : ((stopAsked.dev.cleared.drain 0).qp 0).queue = [preemptMidWord]
    ∧ ((stopAsked.dev.cleared.drain 0).ctx 0).state = .draining ∧ ((stopAsked.dev.cleared.drain 0).ctx 0).midStep = false := by
  decide

/-- Refutes O46: the mid-step pre-emption of a RUNNING context that is asked to stop drains it, so that its issue is not stopped in mid-step. -/
theorem not_commandTransport : ¬ Obligations.CommandTransport := by
  intro h
  obtain ⟨-, -, -, -, hfront⟩ := h stopAsked 0 preemptMidWord [] rfl
  obtain ⟨-, -, -, -, -, -, hpreempt, -⟩ := hfront rfl
  obtain ⟨-, hmid, -⟩ := hpreempt (by decide)
  obtain ⟨t, ht, -, hstopped, -⟩ := hmid (by decide) rfl rfl (fun r hr => nomatch hr)
  have hdrains := (Dev.preemptCmd_mid (d := stopAsked.dev.cleared) rfl rfl).trans (Dev.midStop_drains (n := 0) rfl)
  have hexec := bct_gives (s := stopAsked) rfl (exec_bctPreempt 0 stopAsked) rfl (by decide : bctOp preemptMidWord = 0x07)
  rw [show bits (bctArgs preemptMidWord) 1 0 = 2 by decide, hdrains] at hexec
  obtain rfl := Host.Outcome.next.inj (ht.symm.trans hexec)
  obtain ⟨hqueue, -, hnot⟩ := stopAsked_drained
  obtain ⟨op, hctx⟩ := bctEnds_leaves stopAsked hqueue 0
  rw [hctx] at hstopped
  exact Bool.false_ne_true (hnot.symm.trans hstopped)

end Sys2Proof.Machine
end

section
/-! O35: gates that settle, steps that commit, and the gate timer (R367 to R373, R380, R383, R604). -/

namespace Sys2Proof.Machine

theorem exec_gateSettle (n num : Nat) (flipA flipB : Bool) (s : State) :
    exec (.gateSettle n num flipA flipB) s = s.onDev fun d => d.gateSettle n num flipA flipB := rfl

theorem exec_stepCommit (n num : Nat) (bad : Option CoreId) (s : State) :
    exec (.stepCommit n num bad) s = s.onDev fun d => d.stepCommit n num bad := rfl

/-! ### A gate that can settle (R369, R380, R383) -/

section
variable {d : Dev} {n num : Nat} {r : RegionRt} (hrt : (d.ctx n).rt? num = some r) (hcan : d.canSettle n r = true)
include hrt hcan

/-- Where the copies of the tree agree outside a replay, the reports decide; a gate that is not clean acts once no packet of the other epoch is in flight. -/
theorem Dev.gateSettle_agreeing {all : Bool} (hall : ((d.gateReports n r).all fun p => p.2.clean) = all) (hreplay : r.replay = none)
    (hready : all = true ∨ d.epochDrain = 0) : d.gateSettle n num false false
      = if all then d.settleClean n num else d.settleBad n num r.gateStep (d.gateReports n r) := by
  unfold Dev.gateSettle
  rcases hready with rfl | hdrain
  · simp [hrt, hcan, hall, hreplay]
  · simp [hrt, hcan, hall, hreplay, hdrain]

/-- Copies of the tree that disagree are counted, and the gate is acted on, whatever its reports say. -/
theorem Dev.gateSettle_disagreeing {flipA flipB : Bool} (hflip : flipA ≠ flipB) (hreplay : r.replay = none) (hdrain : d.epochDrain = 0) :
    d.gateSettle n num flipA flipB = (d.bump 0x6000 0xE 1).settleBad n num r.gateStep (d.gateReports n r) := by
  unfold Dev.gateSettle
  obtain rfl : flipB = !flipA := Bool.eq_not.mpr hflip.symm
  simp [hrt, hcan, hreplay, hdrain]

/-- A gate that is not clean waits while packets of the other epoch are in flight (log entry 117). -/
theorem Dev.gateSettle_waits (hbad : ((d.gateReports n r).all fun p => p.2.clean) = false) (hdrain : d.epochDrain ≠ 0) :
    d.gateSettle n num false false = d := by
  unfold Dev.gateSettle
  simp [hrt, hcan, hbad, hdrain]

/-- In a tandem replay that runs, the records are decided. -/
theorem Dev.gateSettle_replay {p : Replay} {all : Bool} (hall : ((d.gateReports n r).all fun q => q.2.clean) = all)
    (hreplay : r.replay = some p) (hruns : p.waiting = false) (hready : all = true ∨ d.epochDrain = 0) :
    d.gateSettle n num false false = d.settleReplay n num p (d.gateReports n r) all := by
  unfold Dev.gateSettle
  rcases hready with rfl | hdrain
  · simp [hrt, hcan, hall, hreplay, hruns]
  · simp [hrt, hcan, hall, hreplay, hruns, hdrain]

end

/-! ### Commit (R373) -/

/-- The head settled step commits once its read-back is verified. -/
theorem Dev.stepCommit_verified {d : Dev} {n num step : Nat} {rest : List Nat} {r : RegionRt} (hrt : (d.ctx n).rt? num = some r)
    (hsettled : r.settled = step :: rest) : d.stepCommit n num none = d.commitStep n num step (rest.length + 1) := by
  unfold Dev.stepCommit
  simp only [hrt, hsettled, List.length_cons]

/-! ### The gate timer (R370) -/

/-- A core whose last stop is that of the gate timer. -/
def Arch.timedOut (a : Arch) : Prop := a.stat.run = .stopped ∧ a.stat.exc.code = cCadenceDeviation ∧ a.stat.clean = false

/-- What the gate timer makes of one core of a region whose gate is that of a step. -/
def Dev.timerCore (step : Nat) (d : Dev) (c : CoreId) : Dev := if ((d.core c).reportOf step).isNone then d.timerStop c else d

theorem exec_gateTimerExpiry (n num : Nat) (s : State) : exec (.gateTimerExpiry n num) s = s.onDev fun d =>
    match (d.ctx n).rt? num with
    | none => d
    | some r =>
      if !r.timer || r.parked || (d.ctx n).state = .blocked then d else (d.gateCores n num).foldl (Dev.timerCore r.gateStep) d := rfl

/-- A timer that runs, of a region that is neither parked nor of a BLOCKED context, takes the region's cores one by one. -/
theorem gateTimerExpiry_gives {s : State} {n num : Nat} {r : RegionRt} (hs : clocked s) (hrt : (s.dev.ctx n).rt? num = some r)
    (htimer : r.timer = true) (hparked : r.parked = false) (hblocked : (s.dev.ctx n).state ≠ .blocked) :
    gives (.gateTimerExpiry n num) s ((s.dev.gateCores n num).foldl (Dev.timerCore r.gateStep) s.dev.cleared) := by
  refine gives_of_onDev hs (exec_gateTimerExpiry n num s) ?_
  simp only [Dev.ctx_cleared, hrt]
  exact if_neg (by simp [htimer, hparked, hblocked])

section
variable (d : Dev) (c e : CoreId) (step : Nat)

theorem Dev.timerStop_other (he : ckey e ≠ ckey c) : (d.timerStop c).core e = d.core e := by
  simp [Dev.timerStop, he]

theorem Dev.timerStop_same (he : ckey e = ckey c) : ((d.timerStop c).arch e).timedOut ∧ ((d.timerStop c).arch e).regs = (d.arch e).regs
    ∧ ((d.timerStop c).core e).mem = (d.core e).mem := by
  simp [Dev.timerStop, Dev.arch, Arch.timedOut, he, d.core_of_key c e]

theorem Dev.timerCore_other (he : ckey e ≠ ckey c) : (Dev.timerCore step d c).core e = d.core e := by
  unfold Dev.timerCore
  split
  · exact d.timerStop_other c e he
  · rfl

/-- The timer changes neither the registers nor the memory of a core. -/
theorem Dev.timerCore_keeps : ((Dev.timerCore step d c).arch e).regs = (d.arch e).regs
    ∧ ((Dev.timerCore step d c).core e).mem = (d.core e).mem := by
  unfold Dev.timerCore
  split
  · by_cases he : ckey e = ckey c
    · exact (d.timerStop_same c e he).2
    · rw [Dev.arch, d.timerStop_other c e he]; exact ⟨rfl, rfl⟩
  · exact ⟨rfl, rfl⟩

/-- A core that the timer has stopped stays so. -/
theorem Dev.timerCore_timedOut (h : (d.arch e).timedOut) : ((Dev.timerCore step d c).arch e).timedOut := by
  unfold Dev.timerCore
  split
  · by_cases he : ckey e = ckey c
    · exact (d.timerStop_same c e he).1
    · rw [Dev.arch, d.timerStop_other c e he]; exact h
  · exact h

variable (l : List CoreId)

theorem Dev.timerCores_other (he : ∀ c ∈ l, ckey e ≠ ckey c) : (l.foldl (Dev.timerCore step) d).core e = d.core e :=
  List.foldlRecOn (motive := fun f : Dev => f.core e = d.core e) l _ rfl fun (f : Dev) hf c hc => (f.timerCore_other c e step (he c hc)).trans hf

theorem Dev.timerCores_timedOut (h : (d.arch e).timedOut) : ((l.foldl (Dev.timerCore step) d).arch e).timedOut :=
  List.foldlRecOn (motive := fun f : Dev => (f.arch e).timedOut) l _ h fun (f : Dev) hf c _ => f.timerCore_timedOut c e step hf

/-- Every core of the list that has not reported is stopped. -/
theorem Dev.timerCores_stops (hc : c ∈ l) (hnone : ((d.core c).reportOf step).isNone) :
    ((l.foldl (Dev.timerCore step) d).arch c).timedOut := by
  induction l generalizing d with
  | nil => cases hc
  | cons x l ih =>
    rw [List.foldl_cons]
    by_cases hx : ckey c = ckey x
    · have hstops : Dev.timerCore step d x = d.timerStop x := if_pos (by rw [Dev.core, ← hx]; exact hnone)
      exact Dev.timerCores_timedOut _ c step l (hstops ▸ (d.timerStop_same x c hx).1)
    · refine ih _ ((List.mem_cons.mp hc).resolve_left fun h => hx (congrArg ckey h)) ?_
      rw [d.timerCore_other x c step hx]
      exact hnone

end

/-! ### The statement -/

/-- Settles O35: a gate by the reports and the copies of the tree, a commit by the head settled step, and the timer one core at a time. -/
theorem gates : Obligations.Gates := by
  intro s n num r hs hrt
  have hclean (h : ∀ p ∈ s.dev.gateReports n r, p.2.clean = true) : ((s.dev.cleared.gateReports n r).all fun p => p.2.clean) = true :=
    List.all_eq_true.mpr h
  have hbad (h : ∃ p ∈ s.dev.gateReports n r, p.2.clean = false) : ((s.dev.cleared.gateReports n r).all fun p => p.2.clean) = false := by
    obtain ⟨p, hp, hfalse⟩ := h
    exact List.all_eq_false.mpr ⟨p, hp, by simp [hfalse]⟩
  refine ⟨fun hcan hreplay => ⟨fun h => ?_, fun hdrain => ⟨fun h => ?_, fun flipA flipB hflip => ?_⟩, fun hdrain h => ?_⟩,
    fun p hcan hreplay hruns => ⟨fun h => ?_, fun h hdrain => ?_⟩, fun step rest hsettled => ?_, fun htimer hparked hblocked => ?_⟩
  · exact gives_of_onDev hs (exec_gateSettle ..)
      (Dev.gateSettle_agreeing (d := s.dev.cleared) hrt hcan (hclean h) hreplay (.inl rfl))
  · exact gives_of_onDev hs (exec_gateSettle ..)
      (Dev.gateSettle_agreeing (d := s.dev.cleared) hrt hcan (hbad h) hreplay (.inr hdrain))
  · exact gives_of_onDev hs (exec_gateSettle ..)
      (Dev.gateSettle_disagreeing (d := s.dev.cleared) hrt hcan hflip hreplay hdrain)
  · exact gives_of_onDev hs (exec_gateSettle ..) (Dev.gateSettle_waits (d := s.dev.cleared) hrt hcan (hbad h) hdrain)
  · exact gives_of_onDev hs (exec_gateSettle ..)
      (Dev.gateSettle_replay (d := s.dev.cleared) hrt hcan (hclean h) hreplay hruns (.inl rfl))
  · exact gives_of_onDev hs (exec_gateSettle ..)
      (Dev.gateSettle_replay (d := s.dev.cleared) hrt hcan (hbad h) hreplay hruns (.inr hdrain))
  · exact gives_of_onDev hs (exec_stepCommit ..) (Dev.stepCommit_verified (d := s.dev.cleared) hrt hsettled)
  · refine ⟨_, gateTimerExpiry_gives hs hrt htimer hparked hblocked, ?_⟩
    simp only [State.closing_arch, State.closing_core]
    exact ⟨fun c hc hnone => Dev.timerCores_stops _ c _ _ hc hnone, fun e he => Dev.timerCores_other _ e _ _ he,
      fun e => ⟨foldl_unchanged (fun f : Dev => (f.arch e).regs) (fun f c => (f.timerCore_keeps c e _).1) _ _,
        foldl_unchanged (fun f : Dev => (f.core e).mem) (fun f c => (f.timerCore_keeps c e _).2) _ _⟩⟩

end Sys2Proof.Machine
end

section
/-! O1, O2, O3, O58: steps, the queue, stopped clocks, and the store that follows its working copy (R402, R499, R526, R549, R554, R570). -/

namespace Sys2Proof.Machine

/-! ### Every command closes (R402, R549, R570) -/

/-- Whatever a command does to the device, its outcome is the close of it. -/
theorem exec_closes (i : Instr) (s : State) : ∃ d, exec i s = .next (s.closing d) := by
  cases i <;> exact ⟨_, rfl⟩

/-- A command that the clocks drive leaves the device as it found it while they are stopped (R549, R570). -/
theorem exec_clocked {i : Instr} (h : unclocked i = false) (s : State) :
    ∃ d, exec i s = .next (s.closing (if s.dev.pow.stopped then s.dev.cleared else d)) := by
  cases i with
  | pwrGoodAssert | pwrGoodDeassert | sysResetAssert | sysResetRelease | thermalTrip | testAccessPortCycle => cases h
  | _ => exact ⟨_, rfl⟩

theorem State.closing_storeFollows (s : State) (d : Dev) : (s.closing d).storeFollows := by
  rw [State.storeFollows, s.closing_nv, s.closing_keep, s.closing_sec]

/-! ### A step without a command (R554) -/

/-- A tick with nothing that waits for its moment moves TIME alone. -/
theorem Dev.tick_idle {d : Dev} (hfences : d.fenceWaits = []) (hretiring : d.retiring = none) :
    d.tick = { d with time := (d.time + 1) % 2 ^ 64 } := by
  cases d
  subst hfences hretiring
  rfl

/-- A step closes a device over the state without its front command, or over the state itself when no command waits. -/
theorem step_closes (s : State) : ∃ d, step s = .next (({ s with pending := s.pending.tail } : State).closing d) := by
  unfold step
  split
  case h_1 hempty =>
    have hsame : { s with pending := s.pending.tail } = s := by rw [hempty, List.tail_nil, ← hempty]
    exact ⟨_, by rw [hsame]; rfl⟩
  case h_2 c rest hfront => rw [hfront]; exact exec_closes c _

/-! ### The statements -/

/-- Settles O1: by the definition of a step. -/
theorem stepRunsFront : Obligations.StepRunsFront := fun _ _ => rfl

/-- Settles O2: the fences and the retirement that could act in a tick are absent. -/
theorem idleStepTicks : Obligations.IdleStepTicks := by
  intro s hpending hfences hretiring
  have hstep : step s = execTick s := by rw [step, hpending]
  refine ⟨fun hs => ?_, fun hstopped => ?_⟩
  · rw [hstep, execTick, onDev_gives hs, Dev.tick_idle (d := s.dev.cleared) hfences hretiring]
    rfl
  · rw [hstep]; simp [execTick, State.onDev, State.act, Dev.cleared, hstopped]

/-- Settles O3: every outcome is a close, which leaves the queue, and clocked commands look at the clocks first. -/
theorem everyCommandAnswers : Obligations.EveryCommandAnswers := by
  refine ⟨fun i s => ?_, fun s i hstopped hclocked => ?_⟩
  · obtain ⟨d, h⟩ := exec_closes i s
    exact ⟨_, h, rfl⟩
  · obtain ⟨d, h⟩ := exec_clocked hclocked s
    rwa [if_pos hstopped] at h

/-- Settles O58: every step ends in a close, which writes the store from its working copy. -/
theorem storeFollows : Obligations.StoreFollows := by
  refine ⟨rfl, fun s t h => ?_⟩
  obtain ⟨d, hd⟩ := step_closes s
  obtain rfl : _ = t := Host.Outcome.next.inj (hd.symm.trans h)
  exact ⟨State.closing_storeFollows .., rfl⟩

end Sys2Proof.Machine
end

section
/-! O36: the groomer's tests and the watch (R389 to R395, R399 to R401). -/

namespace Sys2Proof.Machine

/-- What the groomer makes of an interval that it may use: the return that is due, or the test of the next cell (R389, R392, R394). -/
def Dev.intervalUsed (d : Dev) : Dev :=
  match d.groom.returns with
  | py :: _ => d.returnRow py
  | [] =>
    match d.pickCell with
    | (d, some (n, demand)) => d.startTest n demand
    | (d, none) => match d.groom.returns, Dev.sweepPick 1025 d with
      | py :: _, _ => d.returnRow py
      | [], (d, some n) => d.startTest n false
      | [], (d, none) => d

theorem exec_groomTestStart (s : State) : exec .groomTestStart s = s.onDev fun d =>
    if d.objD 0x6100 1 1 = 0 ∨ d.groom.test.isSome ∨ d.healBusy ∨ !d.moves.isEmpty then d else d.intervalUsed := rfl

theorem exec_groomTestComplete (e : TestEnd) (rows : List (Nat × Nat × Nat)) (s : State) :
    exec (.groomTestComplete e rows) s = s.onDev fun d => d.testEnds e rows := rfl

theorem exec_groomCellStart (px py : Nat) (s : State) :
    exec (.groomCellStart px py) s = s.onDev fun d => d.groomCellStart px py := rfl

theorem exec_groomCellCancel (s : State) : exec .groomCellCancel s = s.onDev Dev.groomCellCancel := rfl

theorem exec_watchExpiry (s : State) : exec .watchExpiry s = s.onDev fun d => d.closeOld := rfl

/-! ### The interval's end (R389, R392, R394) -/

/-- The groomer uses the interval while it is enabled and nothing of its own or of the healing is under way. -/
theorem groomTestStart_gives {s : State} (hs : clocked s) (hon : s.dev.objD 0x6100 1 1 ≠ 0) (htest : s.dev.groom.test = none)
    (hheal : s.dev.healBusy = false) (hmoves : s.dev.moves = []) : gives .groomTestStart s s.dev.cleared.intervalUsed := by
  refine gives_of_onDev hs (exec_groomTestStart s) (if_neg ?_)
  show ¬(s.dev.objD 0x6100 1 1 = 0 ∨ s.dev.groom.test.isSome ∨ s.dev.healBusy ∨ !s.dev.moves.isEmpty)
  simp [hon, htest, hheal, hmoves]

theorem Dev.intervalUsed_returns {d : Dev} {py : Nat} {rest : List Nat} (h : d.groom.returns = py :: rest) :
    d.intervalUsed = d.returnRow py := by
  simp only [Dev.intervalUsed, h]

theorem Dev.intervalUsed_tests {d d' : Dev} {n : Nat} {demand : Bool} (h : d.groom.returns = [])
    (hpick : d.pickCell = (d', some (n, demand))) : d.intervalUsed = d'.startTest n demand := by
  simp only [Dev.intervalUsed, h, hpick]

/-! ### The end of a test (R390, R393, R400) -/

theorem Dev.testEnds_fail {d : Dev} {t : GroomTest} (rows : List (Nat × Nat × Nat)) (htest : d.groom.test = some t) (hstage : t.stage = 1) :
    d.testEnds .fail rows = ((((((d.testPower t.cell false).bump 0x6100 0xA 1).testRows t.cell rows).bump 0x6100 0xB 1).blamed
      t.cell false).testFences t).demandEnds t true [] := by
  unfold Dev.testEnds
  simp only [htest, hstage, ne_eq, not_true_eq_false, if_false, true_or, if_true]

theorem Dev.keep_testPower (d : Dev) (n : Nat) (on : Bool) : (d.testPower n on).keep = d.keep := by
  refine foldl_unchanged Dev.keep (fun d k => ?_) _ d
  rfl

@[simp] theorem Dev.keep_bump (d : Dev) (i u n : Nat) : (d.bump i u n).keep = d.keep := by rw [Dev.bump_frame]

@[simp] theorem Dev.bump_zero (d : Dev) (i u : Nat) : d.bump i u 0 = d := if_pos rfl

/-- Without open blame a passed test makes no watch record. -/
theorem Dev.blamed_none {d : Dev} (n : Nat) (passed : Bool) (h : d.groom.blame = []) : d.blamed n passed = d := by
  have hsame : { d with groom := { d.groom with blame := [] } } = d := by rw [← h]
  unfold Dev.blamed
  simp only [h, List.filter_nil, List.foldl_nil, hsame, ite_self]

theorem Dev.testEnds_pass {d : Dev} {t : GroomTest} (htest : d.groom.test = some t) (hstage : t.stage = 1)
    (hfenced : d.isFenced (t.cell % 32) (t.cell / 32) = false) (hblame : d.groom.blame = []) :
    d.testEnds .pass [] = (((d.testPower t.cell false).bump 0x6100 0xA 1).testReturns t).demandEnds t false [] := by
  have hkeep : ((d.testPower t.cell false).bump 0x6100 0xA 1).isFenced (t.cell % 32) (t.cell / 32) = false := by
    rw [← hfenced]
    simp only [Dev.isFenced, Dev.fenced, Dev.keep_bump, Dev.keep_testPower]
  have hnone : (((d.testPower t.cell false).bump 0x6100 0xA 1).blamed t.cell true) = (d.testPower t.cell false).bump 0x6100 0xA 1 :=
    Dev.blamed_none _ _ (by rw [Dev.groom_bump, Dev.groom_testPower, hblame])
  unfold Dev.testEnds
  simp [htest, hstage, Dev.rowsShort, Dev.testRows, hkeep, hnone]

/-! ### Cell tests on demand (R399) -/

theorem Dev.groomCellStart_queues {d : Dev} {px py : Nat} (hx : px < 32) (hy : py < 32) (hbusy : d.groomCell.busy = false)
    (hskip : d.skipped (py * 32 + px) = false) : d.groomCellStart px py = { d with
      groomCell := ⟨1, 0, cPending, py * 32 + px, 0, 0, 0⟩
      groom := { d.groom with targets := (py * 32 + px, 1) :: d.groom.targets } } := by
  have hcheck : firstFail [(d.groomCell.busy, cBusy), (decide (32 ≤ px) || decide (32 ≤ py) || d.skipped (py * 32 + px), cBadArgument)] = none := by
    simp [firstFail, hx, hy, hbusy, hskip]
  unfold Dev.groomCellStart
  rw [hcheck]

theorem Dev.groomCellCancel_busy {d : Dev} (h : d.groomCell.busy = true) : d.groomCellCancel = { d with
    groomCell := d.groomCell.cancelled
    groom := { d.groom with
      targets := d.groom.targets.filter fun t => !(t.2 = 1 && t.1 = d.groomCell.a)
      test := d.groom.test.map fun t => { t with demand := false } } } := by
  unfold Dev.groomCellCancel
  rw [h]
  rfl

/-! ### The watch (R401) -/

theorem Dev.closeOld_disciplined {d : Dev} (h : d.disciplined = true) : d.closeOld =
    { d with keep := { d.keep with recs := d.keep.recs.map (fun r =>
      if r.watch && !r.closed && !(d.young r) then { r with closed := true } else r) } } := by
  unfold Dev.closeOld
  rw [h]
  rfl

@[simp] theorem State.closing_groomCell (s : State) (d : Dev) : (s.closing d).dev.groomCell = d.groomCell := by
  obtain ⟨_, _, _, _, _, h⟩ := s.closing_dev d; rw [h]

@[simp] theorem State.closing_groom (s : State) (d : Dev) : (s.closing d).dev.groom = d.groom := by
  obtain ⟨_, _, _, _, _, h⟩ := s.closing_dev d; rw [h]

/-! ### The statement -/

/-- Settles O36: each event by the equation of its function in the case at hand. -/
theorem groomer : Obligations.Groomer := by
  intro s hs
  refine ⟨fun hon htest hheal hmoves => ⟨fun py rest hdue => ?_, fun d n demand hdue hpick => ?_⟩, fun t rows htest hstage => ?_,
    fun t htest hstage hfenced hblame => ?_, fun px py hx hy hbusy hskip => ?_, fun hbusy => ?_, fun hdisc => ?_⟩
  · exact Dev.intervalUsed_returns (d := s.dev.cleared) hdue ▸ groomTestStart_gives hs hon htest hheal hmoves
  · exact Dev.intervalUsed_tests (d := s.dev.cleared) hdue hpick ▸ groomTestStart_gives hs hon htest hheal hmoves
  · exact gives_of_onDev hs (exec_groomTestComplete ..) (Dev.testEnds_fail (d := s.dev.cleared) rows htest hstage)
  · exact gives_of_onDev hs (exec_groomTestComplete ..) (Dev.testEnds_pass (d := s.dev.cleared) htest hstage hfenced hblame)
  · exact gives_of_onDev hs (exec_groomCellStart ..) (Dev.groomCellStart_queues (d := s.dev.cleared) hx hy hbusy hskip)
  · refine ⟨_, (exec_groomCellCancel s).trans (onDev_gives hs), ?_⟩
    rw [Dev.groomCellCancel_busy (d := s.dev.cleared) hbusy]
    refine ⟨State.closing_groomCell .., fun u => ?_, fun e => State.closing_core ..⟩
    rw [State.closing_groom]
    show u ∈ s.dev.groom.targets.filter (fun t => !(t.2 = 1 && t.1 = s.dev.groomCell.a)) ↔ _
    simp [List.mem_filter, imp_iff_not_or]
  · refine ⟨_, (exec_watchExpiry s).trans (onDev_gives hs), ?_⟩
    rw [Dev.closeOld_disciplined (d := s.dev.cleared) hdisc, State.closing_nv]
    exact ⟨rfl, rfl, fun e => State.closing_core ..⟩

end Sys2Proof.Machine
end

section
/-! O38: the patrol scrub, memory tests, recovery, alerts and time capture (R398, R399, R414 to R417). -/

namespace Sys2Proof.Machine

theorem exec_scrubRead (near : Option (CoreId × Nat × Nat)) (blk : Nat) (e : ScrubEnd) (s : State) :
    exec (.scrubRead near blk e) s = s.onDev fun d => d.scrub near blk e := rfl

theorem exec_memtestStart (s : State) : exec .memtestStart s = s.onDev Dev.memtestStart := rfl

theorem exec_memtestCancel (s : State) : exec .memtestCancel s = s.onDev Dev.memtestCancel := rfl

theorem exec_reinitContext (n : Nat) (s : State) : exec (.reinitContext n) s = s.onDev fun d => d.reinitCtx n := rfl

theorem exec_reinitPager (s : State) : exec .reinitPager s = s.onDev Dev.reinitPager := rfl

theorem exec_alertCauseWrite (value : Nat) (s : State) :
    exec (.alertCauseWrite value) s = s.onDev fun d => d.alertClear value := rfl

theorem exec_alertMinWidthExpiry (s : State) : exec .alertMinWidthExpiry s = s.onDev fun d =>
    if d.alertN && !d.alertDue then { d with alertN := false }.emit (.pin 0 false) else d := rfl

theorem exec_ppsInEdge (ptp : Bool) (s : State) :
    exec (.ppsInEdge ptp) s = s.onDev fun d => if ptp then d.bump 0x6104 3 1 else { d with ppsTime := d.time } := rfl

/-! ### Retired frames (R398, R399) -/

theorem Keep.enter_frames (k : Keep) (r : DefRec) : (k.enter r).frames = k.frames := by
  unfold Keep.enter
  dsimp only
  split_ifs <;> rfl

@[simp] theorem Dev.frames_retireFree (d : Dev) (f : Nat) : (d.retireFree f).keep.frames = f :: d.keep.frames :=
  Keep.enter_frames ..

/-- The scrubber retires the free frame of a block that it could not read. -/
theorem Dev.scrub_lost {d : Dev} {blk : Nat} (hkept : d.keep.frames.contains (blk / 16) = false)
    (hfree : d.t2.used.contains (blk / 16) = false) :
    d.scrub none blk .lost = (((d.bump 0x6101 2 1).bump 0x6101 4 1).bump 0x3100 5 1).retireFree (blk / 16) := by
  unfold Dev.scrub
  simp only [Dev.keep_bump, Dev.t2_bump, hkept, hfree, Bool.false_eq_true, if_false]

/-! ### Memory tests (R399) -/

/-- A frame that failed a memory test is retired and gives a partial-result record. -/
def Dev.frameFails (d : Dev) (f : Nat) : Dev := (d.retireFree f).result cBlockCheckFail f

theorem exec_memtestComplete (failed : List Nat) (s : State) : exec (.memtestComplete failed) s = s.onDev fun d =>
    if !d.memtest.busy then d else failed.foldl Dev.frameFails (d.memtestOver (d.memtest.ends cOk)) := rfl

/-- A partial-result record enters the list of results, and the oldest may be counted as dropped. -/
theorem Dev.result_frame (d : Dev) (code : Code) (detail : Nat) :
    ∃ objs results seq, d.result code detail = { d with objs := objs, results := results, resultSeq := seq } := by
  unfold Dev.result
  dsimp only
  split
  · rw [Dev.bump_frame]; exact ⟨_, _, _, rfl⟩
  · exact ⟨_, _, _, rfl⟩

theorem Dev.frameFails_rest (d : Dev) (f : Nat) : (d.frameFails f).keep.frames = f :: d.keep.frames
    ∧ (d.frameFails f).memtest = d.memtest ∧ (d.frameFails f).cores = d.cores := by
  obtain ⟨_, _, _, h⟩ := (d.retireFree f).result_frame cBlockCheckFail f
  rw [Dev.frameFails, h]
  exact ⟨d.frames_retireFree f, rfl, rfl⟩

theorem Dev.frames_frameFails (failed : List Nat) (d : Dev) :
    (failed.foldl Dev.frameFails d).keep.frames = failed.reverse ++ d.keep.frames := by
  induction failed generalizing d with
  | nil => rfl
  | cons f failed ih => rw [List.foldl_cons, ih, (d.frameFails_rest f).1, List.reverse_cons, List.append_assoc, List.singleton_append]

@[simp] theorem State.closing_memtest (s : State) (d : Dev) : (s.closing d).dev.memtest = d.memtest := by
  obtain ⟨_, _, _, _, _, h⟩ := s.closing_dev d; rw [h]

theorem Dev.memtestStart_free {d : Dev} (h : d.memtest.busy = false) : d.memtestStart = { d with
    memtest := ⟨2, 0, cPending, d.testFrames, 0, 0, 0⟩, t2 := { d.t2 with pinned := d.t2.pinned + d.testFrames } } := by
  unfold Dev.memtestStart
  rw [h]
  rfl

theorem Dev.memtestCancel_busy {d : Dev} (h : d.memtest.busy = true) : d.memtestCancel = d.memtestOver d.memtest.cancelled := if_pos h

theorem memtestComplete_retires {s : State} (hs : clocked s) (hbusy : s.dev.memtest.busy = true) (failed : List Nat) :
    ∃ t, exec (.memtestComplete failed) s = .next t ∧ t.dev.memtest.state = 3 ∧ t.dev.memtest.code = cOk
      ∧ t.nv.keep.frames = failed.reverse ++ s.dev.keep.frames ∧ ∀ e, t.dev.core e = s.dev.core e := by
  have hgives : gives (.memtestComplete failed) s
      (failed.foldl Dev.frameFails (s.dev.cleared.memtestOver (s.dev.memtest.ends cOk))) := by
    refine gives_of_onDev hs (exec_memtestComplete failed s) (if_neg ?_)
    show ¬(!s.dev.memtest.busy) = true
    simp [hbusy]
  refine ⟨_, hgives, ?_⟩
  rw [State.closing_memtest, foldl_unchanged Dev.memtest fun d f => (d.frameFails_rest f).2.1, State.closing_nv]
  refine ⟨rfl, rfl, Dev.frames_frameFails .., fun e => ?_⟩
  rw [State.closing_core, Dev.core, foldl_unchanged Dev.cores fun d f => (d.frameFails_rest f).2.2]
  rfl

/-! ### Recovery (R416, R417) -/

theorem exec_recoverCheckpoint_auto (n : Nat) (localOk : Bool) (buddy : Option Ckpt) (s : State) :
    exec (.recoverCheckpoint (some n) localOk buddy) s = s.onDev fun d =>
      if d.objD 0x6105 4 1 = 1 && (d.ctx n).state = .failed then d.recoverCtx n localOk buddy else d := rfl

theorem exec_recoverCheckpoint_asked (localOk : Bool) (buddy : Option Ckpt) (s : State) :
    exec (.recoverCheckpoint none localOk buddy) s = s.onDev fun d =>
      if d.recover.state = 1 then d.recoverCtx d.recover.a localOk buddy
      else if (d.ctx (d.objD 0x5100 1 0)).state != .failed then d.reply cStateInvalid
      else if d.recover.busy then d.reply cBusy
      else d.recoverCtx (d.objD 0x5100 1 0) localOk buddy := rfl

/-- A context is restored from its newest local checkpoint when that verifies and can be read. -/
theorem Dev.recoverCtx_local {d : Dev} {n : Nat} {k : Ckpt} (buddy : Option Ckpt) (hnewest : newest d.ckpts n = some k)
    (hread : k.readable = true) : d.recoverCtx n true buddy =
      ((({ (d.restore n k) with recover := (⟨2, 0, cPending, n, 0, 0, 0⟩ : LongOp).ends cOk }.toState n .preempted).join n).schedule) := by
  have hfound : (some k).filter Ckpt.readable = some k := Option.filter_eq_some_iff.mpr ⟨rfl, hread⟩
  have hall : d.unreadable? [k] = d := if_pos (by simp [hread])
  unfold Dev.recoverCtx
  simp only [hnewest, if_true, Option.toList_some, hall, hfound]

theorem recoverCheckpoint_restores {s : State} (hs : clocked s) {auto : Option Nat} {n : Nat} {k : Ckpt} (buddy : Option Ckpt)
    (hasked : (auto = some n ∧ s.dev.objD 0x6105 4 1 = 1) ∨ (auto = none ∧ n = s.dev.objD 0x5100 1 0 ∧ s.dev.recover.busy = false))
    (hstate : (s.dev.ctx n).state = .failed) (hnewest : newest s.dev.ckpts n = some k) (hread : k.readable = true) :
    gives (.recoverCheckpoint auto true buddy) s
      ((({ (s.dev.cleared.restore n k) with recover := (⟨2, 0, cPending, n, 0, 0, 0⟩ : LongOp).ends cOk }.toState n .preempted).join n).schedule) := by
  rw [← Dev.recoverCtx_local (d := s.dev.cleared) buddy hnewest hread]
  obtain ⟨rfl, hauto⟩ | ⟨rfl, rfl, hidle⟩ := hasked
  · have hasks : (s.dev.cleared.objD 0x6105 4 1 = 1 && (s.dev.cleared.ctx n).state = .failed) = true := by
      simp [hauto, hstate]
    exact gives_of_onDev hs (exec_recoverCheckpoint_auto ..) (if_pos hasks)
  · have hwaits : s.dev.cleared.recover.state ≠ 1 := fun h => by simp [LongOp.busy, show s.dev.recover.state = 1 from h] at hidle
    have hfailed : ¬((s.dev.cleared.ctx (s.dev.objD 0x5100 1 0)).state != .failed) = true := by simp [hstate]
    have hfree : ¬s.dev.cleared.recover.busy = true := Bool.eq_false_iff.mp hidle
    exact gives_of_onDev hs (exec_recoverCheckpoint_asked ..) ((if_neg hwaits).trans ((if_neg hfailed).trans (if_neg hfree)))

theorem Dev.reinitCtx_running {d : Dev} {n : Nat} (hstate : (d.ctx n).state = .running) (hin : (d.ctx n).entering = false)
    (hregions : ∀ r ∈ (d.ctx n).regions, r.shadowed = true ∧ r.scanned = false) : d.reinitCtx n =
      (d.ctx n).image.regions.foldl (fun (d : Dev) r => (d.replayEnds n r.region).parkOrBegin n r.region)
        { (d.rollbackAll n) with reinit := (⟨2, 0, cPending, n, 0, 0, 0⟩ : LongOp).ends cOk } := by
  have hready : ((d.ctx n).regions.any fun r => !r.shadowed || r.scanned) = false := by
    rw [List.any_eq_false]
    intro r hr
    simp [hregions r hr]
  unfold Dev.reinitCtx
  simp [hstate, hin, hready]

/-! ### Alerts (R414) -/

/-- The alert pin follows its causes; nothing but the pin, its time and the outputs changes. -/
theorem Dev.alertUpdate_frame (d : Dev) : ∃ n since out, d.alertUpdate = { d with alertN := n, alertSince := since, out := out } := by
  unfold Dev.alertUpdate
  split
  · split
    · exact ⟨_, _, _, rfl⟩
    · exact ⟨_, _, _, rfl⟩
  · split
    · exact ⟨_, _, _, rfl⟩
    · exact ⟨_, _, _, rfl⟩

/-- Ones written to alert.cause clear its causes. -/
theorem Dev.alertClear_clears (d : Dev) (value : Nat) :
    (d.alertClear value).objD 0x6104 1 0 = d.objD 0x6104 1 0 - (d.objD 0x6104 1 0).land (value % 8)
      ∧ (d.alertClear value).cores = d.cores := by
  obtain ⟨_, _, _, h⟩ := (d.setObj 0x6104 1 (d.objD 0x6104 1 0 - (d.objD 0x6104 1 0).land (value % 8))).alertUpdate_frame
  unfold Dev.alertClear
  rw [h]
  exact ⟨(Dev.objD_setObj ..).trans (if_pos rfl), rfl⟩

/-! ### The statement -/

/-- Settles O38: each event by the equation of its function in the case at hand. -/
theorem maintenance : Obligations.Maintenance := by
  intro s hs
  refine ⟨fun near blk => gives_of_onDev hs (exec_scrubRead ..) rfl, fun near blk => gives_of_onDev hs (exec_scrubRead ..) rfl,
    fun blk hkept hfree => ⟨_, (exec_scrubRead ..).trans (onDev_gives hs), ?_⟩,
    fun hidle => gives_of_onDev hs (exec_memtestStart s) (Dev.memtestStart_free (d := s.dev.cleared) hidle),
    fun hbusy => ⟨gives_of_onDev hs (exec_memtestCancel s) (Dev.memtestCancel_busy (d := s.dev.cleared) hbusy), memtestComplete_retires hs hbusy⟩,
    fun auto n k buddy => recoverCheckpoint_restores hs buddy,
    fun n hstate hin hregions => gives_of_onDev hs (exec_reinitContext n s) (Dev.reinitCtx_running (d := s.dev.cleared) hstate hin hregions),
    ⟨_, (exec_reinitPager s).trans (onDev_gives hs), ?_⟩, fun value => ⟨_, (exec_alertCauseWrite value s).trans (onDev_gives hs), ?_⟩,
    fun hpin hdue => gives_of_onDev hs (exec_alertMinWidthExpiry s) (if_pos ?_),
    gives_of_onDev hs (exec_ppsInEdge false s) rfl, gives_of_onDev hs (exec_ppsInEdge true s) rfl⟩
  · rw [Dev.scrub_lost (d := s.dev.cleared) hkept hfree, State.closing_nv]
    refine ⟨by simp [Dev.cleared], fun e => ?_⟩
    rw [State.closing_core]
    exact (Dev.core_bump ..).trans ((Dev.core_bump ..).trans (Dev.core_bump ..))
  · rw [State.closing_t2, State.closing_reinit]
    refine ⟨rfl, fun f hf => ?_, rfl, rfl, fun e => State.closing_core ..⟩
    obtain ⟨g, -, rfl⟩ := List.mem_map.mp hf
    rfl
  · obtain ⟨hcause, hcores⟩ := s.dev.cleared.alertClear_clears value
    rw [State.closing_objD]
    refine ⟨hcause, fun e => ?_⟩
    rw [State.closing_core, Dev.core, hcores]
    rfl
  · show (s.dev.alertN && !s.dev.alertDue) = true
    rw [hpin, hdue]
    rfl

end Sys2Proof.Machine
end

section
/-! What closing a command leaves as it is when nothing that it watches has changed (R467, R478, R517). -/

namespace Sys2Proof.Machine

/-! ### Objects that notify (R517) -/

theorem nmGet_eq_find? {α : Type} (m : NMap α) (i : Nat) : nmGet m i = (m.find? fun p => p.1 = i).map Prod.snd := by
  induction m with
  | nil => rfl
  | cons p m ih =>
    obtain ⟨k, v⟩ := p
    by_cases h : k = i <;> simp [nmGet, h, ih]

theorem Dev.listed_eq (d : Dev) (key dflt : Nat) : d.listed key dflt = (nmGet d.objs key).getD dflt := by
  rw [Dev.listed, nmGet_eq_find?]

/-- The keys of the dictionary values that notifications watch. -/
def notingKeys : List Nat := [0x2A00 * 256 + 6, 0x2A00 * 256 + 7, 0x6200 * 256 + 1, 0x6104 * 256 + 1, 0x2004 * 256 + 3, 0x2800 * 256 + 2]

/-- From device d to device e nothing changes that a notification reports. -/
structure SameNotes (d e : Dev) : Prop where
  objs : ∀ k ∈ notingKeys, nmGet e.objs k = nmGet d.objs k
  disciplined : e.disciplined = d.disciplined
  replace : e.keep.replace = d.keep.replace
  nextSeq : e.log.nextSeq = d.log.nextSeq

theorem SameNotes.rfl {d : Dev} : SameNotes d d := ⟨fun _ _ => .refl _, .refl _, .refl _, .refl _⟩

theorem SameNotes.trans {a b c : Dev} (h : SameNotes a b) (g : SameNotes b c) : SameNotes a c :=
  ⟨fun k hk => (g.objs k hk).trans (h.objs k hk), g.disciplined.trans h.disciplined, g.replace.trans h.replace, g.nextSeq.trans h.nextSeq⟩

theorem Dev.uncertain_eq (d : Dev) : d.uncertain = (!d.disciplined || (nmGet d.objs (0x2A00 * 256 + 7)).any (· = 1)) := by
  rw [Dev.uncertain, nmGet_eq_find?]
  congr 1
  cases d.objs.find? fun p => p.1 = 0x2A00 * 256 + 7 <;> rfl

theorem SameNotes.uncertain {d e : Dev} (h : SameNotes d e) : e.uncertain = d.uncertain := by
  rw [Dev.uncertain_eq, Dev.uncertain_eq, h.disciplined, h.objs _ (by decide)]

theorem SameNotes.noteVals {d e : Dev} (h : SameNotes d e) : e.noteVals = d.noteVals := by
  have hobjs := h.objs
  simp only [notingKeys, List.forall_mem_cons] at hobjs
  obtain ⟨h1, -, h2, h3, h4, h5, -⟩ := hobjs
  simp only [Dev.noteVals, Dev.listed_eq, h.uncertain, h1, h2, h3, h4, h5, h.replace, h.nextSeq]

theorem SameNotes.setObj {d : Dev} {i u : Nat} (v : Nat) (h : okey i u ∉ notingKeys) : SameNotes d (d.setObj i u v) :=
  ⟨fun _ hk => nmGet_nmSet_other _ _ _ _ fun he => h (he ▸ hk), .refl _, .refl _, .refl _⟩

theorem SameNotes.bump {d : Dev} {i u : Nat} (n : Nat) (h : okey i u ∉ notingKeys) : SameNotes d (d.bump i u n) :=
  ⟨fun _ hk => Dev.bump_objs _ _ _ _ _ fun he => h (he ▸ hk), by rw [Dev.bump_frame], by rw [Dev.bump_frame], by rw [Dev.bump_frame]⟩

/-! ### Closing (R467, R478, R517) -/

/-- Without a change to report no session gets a notification. -/
theorem Dev.noted_same {d old : Dev} (h : SameNotes old d) : d.noted old = d := by
  have hnone : ((d.noteVals.zip old.noteVals).filter fun p => p.1 != p.2) = [] := by
    rw [h.noteVals, List.filter_eq_nil_iff]
    intro p hp
    simp only [List.mem_iff_getElem, List.getElem_zip] at hp
    obtain ⟨i, _, rfl⟩ := hp
    simp
  have hold : ((d.dop.sessions.zip d.dop.sessions).flatMap fun p =>
      (p.2.notes.filter fun n => !p.1.notes.contains n).map fun n => Out.notify p.2.id n) = [] := by
    rw [List.flatMap_eq_nil_iff]
    intro p hp
    simp only [List.mem_iff_getElem, List.getElem_zip] at hp
    obtain ⟨i, _, rfl⟩ := hp
    simp
  unfold Dev.noted
  simp only [hnone, List.map_nil, List.foldl_nil, List.map_id', hold, List.append_nil]

/-- With every context as it was no status block is updated. -/
theorem Dev.statusNoted_same {d old : Dev} (h : d.ctxs = old.ctxs) : d.statusNoted old = d := by
  unfold Dev.statusNoted
  simp [h, statusChanged_self]
  cases d
  subst h
  rfl

theorem State.closing_same {s : State} {d : Dev} (hctxs : d.ctxs = s.dev.ctxs) (hnotes : SameNotes s.dev d) :
    s.closing d = { s with dev := d.txPaused, nv := ⟨d.keep, d.sec.fuses, d.sec.store⟩ } := by
  unfold State.closing
  simp only [Dev.statusNoted_same hctxs, Dev.noted_same hnotes]
  rfl

end Sys2Proof.Machine
end

section
/-! O48: pins, supplies, restarts and power-cycle requests (R30, R417, R418, R547 to R550, R553, R558, R567, R570, R587 to R589). -/

namespace Sys2Proof.Machine

/-- A command that the clocks do not drive gives the device that its function makes (R547, R549, R570, R589). -/
theorem gives_of_act {s : State} {i : Instr} {f : Dev → Dev} {d : Dev} (hi : exec i s = s.act f) (hd : f s.dev.cleared = d) : gives i s d := by
  subst hd; exact hi

theorem exec_pwrGoodAssert (s : State) :
    exec .pwrGoodAssert s = s.act fun d => { d with pow := { d.pow with pwrGood := true } } := rfl

theorem exec_sysResetAssert (s : State) : exec .sysResetAssert s = s.act fun d =>
    if !d.pow.pwrGood || d.pow.tripped then d else { d with pow := { d.pow with inReset := true, stopped := true } } := rfl

theorem exec_thermalTrip (s : State) : exec .thermalTrip s = s.act fun d =>
    if !d.pow.pwrGood then d else { d with pow := { d.pow with tripped := true, stopped := true } }.pin 2 true := rfl

theorem exec_testAccessPortCycle (tms tdi trst : Bool) (s : State) :
    exec (.testAccessPortCycle tms tdi trst) s = s.act fun d => d.tapCycle tms tdi trst := rfl

theorem exec_warmReset (s : State) : exec .warmReset s = s.onDev fun d => d.plainStart false := rfl

theorem exec_cellRowResetRelease (py : Nat) (s : State) : exec (.cellRowResetRelease py) s = s.onDev fun d =>
    if d.pow.railBad || decide (32 ≤ py) then d else { d with pow := { d.pow with rowsOut := d.pow.rowsOut.lor (2 ^ py) } } := rfl

theorem exec_lockstepDisagreement (s : State) : exec .lockstepDisagreement s = s.onDev fun d =>
    if d.pow.lockFail then d.romAlone.pcycReq 1
    else { d with pow := { d.pow with lockFail := true, railFault := false } }.restart false := rfl

theorem exec_vcoreDroop (s : State) : exec .vcoreDroop s = s.onDev fun d => d.levelEight.powerEvent 0 := rfl

theorem exec_vcoreOvercurrent (s : State) : exec .vcoreOvercurrent s = s.onDev fun d => d.levelEight := rfl

/-! ### The loss of the supplies (R549, R558) -/

/-- The pins that the loss of PWR_GOOD takes back to their reset levels. -/
def Dev.pinsReset (d : Dev) : Dev :=
  let d := if d.alertN then { d with alertN := false }.pin 0 false else d
  let d := if d.pow.tripped then d.pin 2 false else d
  if d.pow.pcyc = 0 then d else d.pin 3 false

theorem exec_pwrGoodDeassert (s : State) : exec .pwrGoodDeassert s = s.act fun d => { d.pinsReset with
    pow := { d.pinsReset.pow with pwrGood := false, stopped := true, tripped := false, pcyc := 0, lost := true } } := rfl

theorem Dev.pinsReset_frame (d : Dev) : ∃ alertN out, d.pinsReset = { d with alertN := alertN, out := out } := by
  unfold Dev.pinsReset Dev.pin Dev.emit
  dsimp only
  split_ifs <;> exact ⟨_, _, rfl⟩

theorem pwrGoodDeassert_stops (s : State) : ∃ t, exec .pwrGoodDeassert s = .next t
    ∧ t.dev.pow = { s.dev.pow with pwrGood := false, stopped := true, tripped := false, pcyc := 0, lost := true }
    ∧ t.nv = ⟨s.dev.keep, s.dev.sec.fuses, s.dev.sec.store⟩ ∧ ∀ e, t.dev.core e = s.dev.core e := by
  obtain ⟨_, _, h⟩ := s.dev.cleared.pinsReset_frame
  refine ⟨_, gives_of_act (exec_pwrGoodDeassert s) (by rw [h]), ?_⟩
  exact ⟨State.closing_pow .., State.closing_nv .., fun e => State.closing_core ..⟩

/-! ### Starts (R30, R417, R418, R548) -/

theorem Dev.pcycReq_frame (d : Dev) (cause : Nat) : ∃ pcyc out, d.pcycReq cause = { d with pow := { d.pow with pcyc := pcyc }, out := out }
    ∧ (cause ≠ 0 → pcyc ≠ 0) ∧ (d.pow.pcyc = 0 → pcyc = cause) := by
  unfold Dev.pcycReq
  split
  · next h => exact ⟨_, _, rfl, id, fun _ => rfl⟩
  · next h => exact ⟨_, _, rfl, fun _ => h, fun h0 => absurd h0 h⟩

/-- What a device is after a start of device d, cold or warm: everything at its default but what fuses, store and tier 2 keep, and the faults that a start must remember. -/
structure Restarted (d e : Dev) (cold : Bool) : Prop where
  cores : e.cores = []
  ctxs : e.ctxs = []
  sessions : e.dop.sessions = []
  i3cStatic : e.dop.i3cStatic = d.dop.i3cStatic
  mem : e.t2.mem = []
  keep : e.keep = d.retiring.elim d.keep d.keep.retire
  fuses : e.sec.fuses = d.sec.fuses
  store : e.sec.store = d.sec.store
  objs : e.objs = if d.pow.railFault then d.faultCounters else []
  ckpts : e.ckpts = if cold = false ∧ d.objD 0x6105 3 0 = 1 then d.ckpts.filter fun k => k.complete else []
  buddies : e.buddies = if cold = false ∧ d.objD 0x6105 3 0 = 1 then d.buddies else []
  stopped : e.pow.stopped = false
  inReset : e.pow.inReset = false
  mgmt : e.pow.mgmt = 0
  wasCold : e.pow.cold = cold
  lockFail : e.pow.lockFail = d.pow.lockFail
  railFault : e.pow.railFault = d.pow.railFault

section
variable {d e : Dev} {cold : Bool}

theorem Restarted.pcycReq (h : Restarted d e cold) (cause : Nat) : Restarted d (e.pcycReq cause) cold := by
  unfold Dev.pcycReq
  split
  · exact ⟨h.cores, h.ctxs, h.sessions, h.i3cStatic, h.mem, h.keep, h.fuses, h.store, h.objs, h.ckpts, h.buddies, h.stopped, h.inReset,
      h.mgmt, h.wasCold, h.lockFail, h.railFault⟩
  · exact h

theorem Restarted.asks (h : Restarted d e cold) (p : Prop) [Decidable p] (cause : Nat) : Restarted d (if p then e.pcycReq cause else e) cold := by
  split
  · exact h.pcycReq cause
  · exact h

end

theorem Dev.restart_restarts (d : Dev) (cold : Bool) : Restarted d (d.restart cold) cold := by
  unfold Dev.restart
  refine Restarted.asks ?_ _ 2
  refine ⟨rfl, rfl, rfl, rfl, rfl, ?_, rfl, rfl, rfl, ?_, ?_, rfl, rfl, rfl, rfl, rfl, rfl⟩
  · cases d.retiring <;> rfl
  · simp
  · simp

theorem Dev.plainStart_restarts (d : Dev) (cold : Bool) :
    Restarted { d with pow := { d.pow with lockFail := false, railFault := false } } (d.plainStart cold) cold := Dev.restart_restarts ..

section
variable {s : State} {d e : Dev} {cold : Bool} (h : Restarted d e cold)
include h

theorem Restarted.closing_ctxs : (s.closing e).dev.ctxs = [] := by
  have hctxs : (s.closing e).dev.ctxs = (e.statusNoted s.dev).ctxs := rfl
  rw [hctxs]
  unfold Dev.statusNoted
  dsimp only
  rw [statusUpdates_frame, h.ctxs]
  rfl

theorem Restarted.closing_core (c : CoreId) : (s.closing e).dev.core c = clearCore := by
  rw [State.closing_core, Dev.core, h.cores]
  rfl

theorem Restarted.closing_sessions : (s.closing e).dev.dop.sessions = [] := by
  have hsessions : (s.closing e).dev.dop.sessions = ((e.statusNoted s.dev).noted s.dev).dop.sessions := rfl
  rw [hsessions]
  unfold Dev.noted Dev.statusNoted
  dsimp only
  rw [statusUpdates_frame, h.sessions]
  rfl

theorem Restarted.closing_nv : (s.closing e).nv = ⟨d.retiring.elim d.keep d.keep.retire, d.sec.fuses, d.sec.store⟩ := by
  rw [State.closing_nv, h.keep, h.fuses, h.store]

end

@[simp] theorem State.closing_i3cStatic (s : State) (d : Dev) : (s.closing d).dev.dop.i3cStatic = d.dop.i3cStatic := by
  obtain ⟨_, _, _, _, _, h⟩ := s.closing_dev d; rw [h]

/-! ### SYS_RESET_N (R550, R557, R587) -/

/-- The device that SYS_RESET_N leaves, with its straps sampled, at the beginning of its start. -/
def Dev.released (d : Dev) (straps : Nat) : Dev :=
  { d with dop := { d.dop with i3cStatic := 0x50 + straps % 8 } }.plainStart d.pow.lost

theorem exec_sysResetRelease (straps : Nat) (railsOk : Bool) (s : State) : exec (.sysResetRelease straps railsOk) s = s.act fun d =>
    if !d.pow.pwrGood || d.pow.tripped || !d.pow.stopped then d
    else if railsOk then d.released straps
    else { d.released straps with pow := { (d.released straps).pow with railBad := true } }.romAlone.pcycReq 3 := rfl

section
variable {s : State} (hgood : s.dev.pow.pwrGood = true) (htrip : s.dev.pow.tripped = false) (hstopped : s.dev.pow.stopped = true)
include hgood htrip hstopped

theorem sysResetRelease_gives (straps : Nat) (railsOk : Bool) : gives (.sysResetRelease straps railsOk) s
    (if railsOk then s.dev.cleared.released straps
     else { s.dev.cleared.released straps with pow := { (s.dev.cleared.released straps).pow with railBad := true } }.romAlone.pcycReq 3) := by
  refine gives_of_act (exec_sysResetRelease ..) (if_neg ?_)
  show ¬(!s.dev.pow.pwrGood || s.dev.pow.tripped || !s.dev.pow.stopped) = true
  simp [hgood, htrip, hstopped]

theorem sysResetRelease_starts (straps : Nat) : ∃ t, exec (.sysResetRelease straps true) s = .next t
    ∧ t.dev.pow.stopped = false ∧ t.dev.pow.inReset = false ∧ t.dev.pow.mgmt = 0 ∧ t.dev.pow.cold = s.dev.pow.lost
    ∧ t.dev.dop.i3cStatic = 0x50 + straps % 8 ∧ t.dev.dop.sessions = [] ∧ t.dev.ctxs = [] ∧ (∀ e, t.dev.core e = clearCore)
    ∧ t.dev.t2.mem = [] ∧ t.nv = ⟨s.dev.retiring.elim s.dev.keep s.dev.keep.retire, s.dev.sec.fuses, s.dev.sec.store⟩ := by
  have h := Dev.plainStart_restarts { s.dev.cleared with dop := { s.dev.dop with i3cStatic := 0x50 + straps % 8 } } s.dev.pow.lost
  refine ⟨_, sysResetRelease_gives hgood htrip hstopped straps true, ?_⟩
  rw [State.closing_pow, State.closing_t2, State.closing_i3cStatic]
  exact ⟨h.stopped, h.inReset, h.mgmt, h.wasCold, h.i3cStatic, h.closing_sessions, h.closing_ctxs, h.closing_core, h.mem, h.closing_nv⟩

theorem sysResetRelease_badRail (straps : Nat) : ∃ t, exec (.sysResetRelease straps false) s = .next t
    ∧ t.dev.pow.railBad = true ∧ t.dev.pow.mgmt = 3 ∧ t.dev.pow.pcyc ≠ 0 := by
  refine ⟨_, sysResetRelease_gives hgood htrip hstopped straps false, ?_⟩
  obtain ⟨_, _, h, hpcyc, -⟩ := Dev.pcycReq_frame
    { s.dev.cleared.released straps with pow := { (s.dev.cleared.released straps).pow with railBad := true } }.romAlone 3
  rw [State.closing_pow, if_neg Bool.false_ne_true, h]
  exact ⟨rfl, rfl, hpcyc (by decide)⟩

end

theorem warmReset_starts {s : State} (hs : clocked s) : ∃ t, exec .warmReset s = .next t ∧ t.dev.pow.stopped = false
    ∧ t.dev.pow.mgmt = 0 ∧ t.dev.pow.cold = false ∧ t.dev.ctxs = [] ∧ (∀ e, t.dev.core e = clearCore) ∧ t.dev.t2.mem = []
    ∧ (s.dev.objD 0x6105 3 0 ≠ 1 → t.dev.ckpts = [] ∧ t.dev.buddies = [])
    ∧ (s.dev.objD 0x6105 3 0 = 1 → t.dev.ckpts = s.dev.ckpts.filter (fun k => k.complete) ∧ t.dev.buddies = s.dev.buddies)
    ∧ t.nv = ⟨s.dev.retiring.elim s.dev.keep s.dev.keep.retire, s.dev.sec.fuses, s.dev.sec.store⟩ := by
  have h := s.dev.cleared.plainStart_restarts false
  refine ⟨_, (exec_warmReset s).trans (onDev_gives hs), ?_⟩
  rw [State.closing_pow, State.closing_t2, State.closing_ckpts, State.closing_buddies]
  refine ⟨h.stopped, h.mgmt, h.wasCold, h.closing_ctxs, h.closing_core, h.mem, fun hdrop => ?_, fun hkeep => ?_, h.closing_nv⟩
  · exact ⟨h.ckpts.trans (if_neg fun hk => hdrop hk.2), h.buddies.trans (if_neg fun hk => hdrop hk.2)⟩
  · exact ⟨h.ckpts.trans (if_pos ⟨rfl, hkeep⟩), h.buddies.trans (if_pos ⟨rfl, hkeep⟩)⟩

/-! ### Faults of rails, clocks and processors (R418, R550) -/

/-- A fault that persists after the start that it caused leaves the boot ROM alone and asks for a power cycle. -/
theorem Dev.romAlone_pcycReq {d : Dev} {cause : Nat} (hfirst : d.pow.pcyc = 0) :
    (d.romAlone.pcycReq cause).pow = { d.pow with mgmt := 3, pcyc := cause } ∧ (d.romAlone.pcycReq cause).cores = d.cores := by
  obtain ⟨_, _, h, -, hpcyc⟩ := d.romAlone.pcycReq_frame cause
  rw [h, hpcyc hfirst]
  exact ⟨rfl, rfl⟩

theorem Dev.railFault_starts {d : Dev} (h : d.pow.railFault = false) :
    Restarted { d with pow := { d.pow with railFault := true, lockFail := false } } d.railFault false := by
  have hfirst : ¬(d.pow.railFault && !d.inService) = true := by simp [h]
  rw [Dev.railFault, if_neg hfirst]
  exact Dev.restart_restarts ..

theorem Dev.railFault_persists {d : Dev} (h : d.pow.railFault = true) (hserve : d.inService = false) :
    d.railFault = { d with pow := { d.pow with railBad := true } }.romAlone.pcycReq 3 := by
  have hagain : (d.pow.railFault && !d.inService) = true := by simp [h, hserve]
  rw [Dev.railFault, if_pos hagain]

section
variable {s : State} {i : Instr} {idx sub : Nat} (hs : clocked s) (hi : exec i s = s.onDev fun d => (d.bump idx sub 1).railFault)
include hs hi

/-- A fault of a rail or a lock is counted and restarts the device; its counter and the other of its kind outlive the start. -/
theorem railFault_restarts (hkey : okey idx sub = okey 0x2100 0xA ∨ okey idx sub = okey 0x2103 5) (hfirst : s.dev.pow.railFault = false) :
    ∃ t, exec i s = .next t ∧ t.dev.pow.railFault = true ∧ t.dev.pow.mgmt = 0 ∧ t.dev.pow.stopped = false
      ∧ nmGet t.dev.objs (okey idx sub) = some ((nmGet s.dev.objs (okey idx sub)).getD 0 + 1) ∧ (∀ e, t.dev.core e = clearCore) ∧ t.dev.ctxs = []
      ∧ t.nv = ⟨s.dev.retiring.elim s.dev.keep s.dev.keep.retire, s.dev.sec.fuses, s.dev.sec.store⟩ := by
  have hobjs : (s.dev.cleared.bump idx sub 1) = { s.dev.cleared with
      objs := nmSet s.dev.objs (okey idx sub) ((nmGet s.dev.objs (okey idx sub)).getD 0 + 1) } := if_neg (by decide)
  have h := Dev.railFault_starts (d := s.dev.cleared.bump idx sub 1) (by rw [hobjs]; exact hfirst)
  refine ⟨_, hi.trans (onDev_gives hs), ?_⟩
  rw [State.closing_pow, State.closing_objs, h.objs]
  refine ⟨h.railFault, h.mgmt, h.stopped, ?_, h.closing_core, h.closing_ctxs, ?_⟩
  · rw [if_pos rfl, Dev.faultCounters, hobjs,
      nmGet_filter_key _ (fun k => decide (k = okey 0x2100 0xA) || decide (k = okey 0x2103 5)), if_pos (by simpa using hkey), nmGet_nmSet_same]
  · rw [h.closing_nv, hobjs]
    rfl

theorem railFault_asks (hkey : okey 0x2104 2 ≠ okey idx sub) (hagain : s.dev.pow.railFault = true) (hserve : s.dev.inService = false)
    (hpcyc : s.dev.pow.pcyc = 0) : ∃ t, exec i s = .next t ∧ t.dev.pow.pcyc = 3 ∧ t.dev.pow.mgmt = 3 ∧ t.dev.pow.railBad = true
      ∧ ∀ e, t.dev.core e = s.dev.core e := by
  have hframe : s.dev.cleared.bump idx sub 1 = { s.dev.cleared with objs := (s.dev.cleared.bump idx sub 1).objs } := Dev.bump_frame ..
  have hserve' : (s.dev.cleared.bump idx sub 1).inService = false := by
    rw [← hserve, Dev.inService, Dev.objD_bump_other _ _ _ _ _ _ _ hkey]
    rfl
  obtain ⟨hpow, hcores⟩ := Dev.romAlone_pcycReq (cause := 3) (d := { s.dev.cleared.bump idx sub 1 with
    pow := { (s.dev.cleared.bump idx sub 1).pow with railBad := true } }) (by rw [hframe]; exact hpcyc)
  refine ⟨_, hi.trans (onDev_gives hs), ?_⟩
  rw [Dev.railFault_persists (by rw [hframe]; exact hagain) hserve', State.closing_pow, hpow]
  refine ⟨rfl, rfl, rfl, fun e => ?_⟩
  rw [State.closing_core, Dev.core, hcores, hframe]
  rfl

end

theorem exec_railFault (s : State) : exec .railFault s = s.onDev fun d => (d.bump 0x2100 0xA 1).railFault := rfl

theorem exec_pllUnlock (s : State) : exec .pllUnlock s = s.onDev fun d => (d.bump 0x2103 5 1).railFault := rfl

theorem lockstepDisagreement_restarts {s : State} (hs : clocked s) (hfirst : s.dev.pow.lockFail = false) :
    ∃ t, exec .lockstepDisagreement s = .next t ∧ t.dev.pow.lockFail = true ∧ t.dev.pow.mgmt = 0
      ∧ (∀ e, t.dev.core e = clearCore) ∧ t.dev.ctxs = [] := by
  have h := Dev.restart_restarts { s.dev.cleared with pow := { s.dev.pow with lockFail := true, railFault := false } } false
  refine ⟨_, gives_of_onDev hs (exec_lockstepDisagreement s) (if_neg (Bool.eq_false_iff.mp hfirst)), ?_⟩
  rw [State.closing_pow]
  exact ⟨h.lockFail, h.mgmt, h.closing_core, h.closing_ctxs⟩

theorem lockstepDisagreement_asks {s : State} (hs : clocked s) (hagain : s.dev.pow.lockFail = true) (hpcyc : s.dev.pow.pcyc = 0) :
    ∃ t, exec .lockstepDisagreement s = .next t ∧ t.dev.pow.pcyc = 1 ∧ t.dev.pow.mgmt = 3 ∧ ∀ e, t.dev.core e = s.dev.core e := by
  obtain ⟨hpow, hcores⟩ := Dev.romAlone_pcycReq (d := s.dev.cleared) (cause := 1) hpcyc
  refine ⟨_, gives_of_onDev hs (exec_lockstepDisagreement s) (if_pos hagain), ?_⟩
  rw [State.closing_pow, hpow]
  refine ⟨rfl, rfl, fun e => ?_⟩
  rw [State.closing_core, Dev.core, hcores]
  rfl

/-- A droop of VCORE throttles and is recorded (R550). -/
theorem vcoreDroop_throttles {s : State} (hs : clocked s) : ∃ t, exec .vcoreDroop s = .next t
    ∧ t.dev.pow.limit = max s.dev.pow.limit 8 ∧ t.dev.pow.cap = s.dev.pow.cap ∧ ∀ e, t.dev.core e = s.dev.core e := by
  obtain ⟨_, _, _, h⟩ := s.dev.cleared.levelEight.eventDev_frame (Config.powerCode 0).toNat 17 0 0 0
  refine ⟨_, gives_of_onDev hs (exec_vcoreDroop s) h, ?_⟩
  rw [State.closing_pow]
  exact ⟨rfl, rfl, fun e => State.closing_core ..⟩

/-! ### The test access port (R589) -/

/-- What a rising edge of TCK does in each state of the controller before it moves on. -/
def Dev.tapActs (d : Dev) (tdi : Bool) : Dev :=
  match d.pow.tapState with
  | 3 =>
    match d.pow.tapInstr with
    | 0 => { d with pow := { d.pow with tapDr := tapId } }
    | 1 => { d with pow := { d.pow with tapDr := 0 } }
    | _ => let (v, d') := d.fresh
      { d' with pow := { d.pow with tapDr := v } }
  | 4 => { d with pow := { d.pow with tapDr := shiftIn d.pow.tapDr (if d.pow.tapInstr = 1 then 1 else 32) tdi } }.pin 4 (d.pow.tapDr % 2 = 1)
  | 10 => { d with pow := { d.pow with tapIr := 1 } }
  | 11 => { d with pow := { d.pow with tapIr := shiftIn d.pow.tapIr Config.tapIrBits tdi } }.pin 4 (d.pow.tapIr % 2 = 1)
  | 15 => { d with pow := { d.pow with tapInstr := d.tapSelect d.pow.tapIr } }
  | _ => d

theorem Dev.tapCycle_clocked (d : Dev) (tms tdi : Bool) : d.tapCycle tms tdi false = { d.tapActs tdi with pow := { (d.tapActs tdi).pow with
    tapState := tapNext d.pow.tapState tms
    tapInstr := if tapNext d.pow.tapState tms = 0 then 0 else (d.tapActs tdi).pow.tapInstr } } := rfl

theorem Dev.tapActs_frame (d : Dev) (tdi : Bool) : ∃ free out pow, d.tapActs tdi = { d with free := free, out := out, pow := pow } := by
  unfold Dev.tapActs
  split
  · split <;> exact ⟨_, _, _, rfl⟩
  all_goals exact ⟨_, _, _, rfl⟩

/-- A cycle of the test access port is closed with nothing to report but its own outputs. -/
theorem testAccessPortCycle_out {s : State} {tms tdi : Bool} {name : Nat} {level : Bool}
    (h : (s.dev.cleared.tapActs tdi).out = [.pin name level]) :
    (s.closing (s.dev.cleared.tapCycle tms tdi false)).dev.out = [.pin name level] := by
  obtain ⟨_, _, _, hframe⟩ := s.dev.cleared.tapActs_frame tdi
  rw [State.closing_same (by rw [Dev.tapCycle_clocked, hframe]; rfl) (by rw [Dev.tapCycle_clocked, hframe]; exact ⟨fun _ _ => rfl, rfl, rfl, rfl⟩)]
  show (s.dev.cleared.tapActs tdi).out.filter _ = _
  rw [h]
  rfl

theorem testAccessPortCycle_moves (s : State) (tms tdi : Bool) :
    ∃ t, exec (.testAccessPortCycle tms tdi false) s = .next t
      ∧ t.dev.pow.tapState = tapNext s.dev.pow.tapState tms
      ∧ (s.dev.pow.tapState = 3 → s.dev.pow.tapInstr = 0 → t.dev.pow.tapDr = tapId)
      ∧ (s.dev.pow.tapState = 3 → s.dev.pow.tapInstr = 1 → t.dev.pow.tapDr = 0)
      ∧ (s.dev.pow.tapState = 4 → t.dev.out = [.pin 4 (decide (s.dev.pow.tapDr % 2 = 1))])
      ∧ (s.dev.pow.tapState = 15 → t.dev.pow.tapInstr = s.dev.tapSelect s.dev.pow.tapIr)
      ∧ ∀ e, t.dev.core e = s.dev.core e := by
  refine ⟨_, exec_testAccessPortCycle tms tdi false s, ?_⟩
  rw [State.closing_pow]
  refine ⟨rfl, fun h3 h0 => ?_, fun h3 h1 => ?_, fun h4 => testAccessPortCycle_out ?_, fun h15 => ?_, fun e => ?_⟩
  · show (s.dev.cleared.tapActs tdi).pow.tapDr = tapId
    simp only [Dev.tapActs, Dev.cleared, h3, h0]
  · show (s.dev.cleared.tapActs tdi).pow.tapDr = 0
    simp only [Dev.tapActs, Dev.cleared, h3, h1]
  · simp only [Dev.tapActs, Dev.cleared, h4]
    rfl
  · have hmoves : tapNext s.dev.pow.tapState tms ≠ 0 := by rw [h15]; cases tms <;> decide
    show (if tapNext s.dev.pow.tapState tms = 0 then 0 else (s.dev.cleared.tapActs tdi).pow.tapInstr) = _
    rw [if_neg hmoves]
    simp only [Dev.tapActs, Dev.cleared, h15]
    rfl
  · obtain ⟨_, _, _, hframe⟩ := s.dev.cleared.tapActs_frame tdi
    show (s.closing (s.dev.cleared.tapCycle tms tdi false)).dev.core e = _
    rw [State.closing_core, Dev.tapCycle_clocked, hframe]
    rfl

/-! ### The statement -/

/-- Settles O48: a start by what it leaves of the device, the rest by the equation of each function. -/
theorem resetsAndSupplies : Obligations.ResetsAndSupplies := by
  refine ⟨fun s => ⟨gives_of_act (exec_pwrGoodAssert s) rfl, pwrGoodDeassert_stops s, fun hgood htrip =>
      ⟨gives_of_act (exec_sysResetAssert s) (if_neg ?_), sysResetRelease_starts hgood htrip, sysResetRelease_badRail hgood htrip⟩,
      fun hgood => gives_of_act (exec_thermalTrip s) (if_neg ?_), fun hs => warmReset_starts hs,
      fun tms tdi => ⟨_, exec_testAccessPortCycle tms tdi true s, ?_⟩, fun tms tdi _ => testAccessPortCycle_moves s tms tdi⟩,
    fun s hs => ⟨fun py hpy hrail => gives_of_onDev hs (exec_cellRowResetRelease py s) (if_neg ?_), ?_,
      lockstepDisagreement_restarts hs, lockstepDisagreement_asks hs, vcoreDroop_throttles hs,
      gives_of_onDev hs (exec_vcoreOvercurrent s) rfl⟩⟩
  · show ¬(!s.dev.pow.pwrGood || s.dev.pow.tripped) = true
    simp [hgood, htrip]
  · show ¬(!s.dev.pow.pwrGood) = true
    simp [hgood]
  · rw [State.closing_pow]
    exact ⟨rfl, rfl, fun e => State.closing_core ..⟩
  · show ¬(s.dev.pow.railBad || decide (32 ≤ py)) = true
    simp [hrail, hpy]
  · rintro i sub (⟨rfl, rfl⟩ | ⟨rfl, rfl⟩)
    · exact ⟨railFault_restarts hs (exec_railFault s) (.inl rfl), railFault_asks hs (exec_railFault s) (by decide)⟩
    · exact ⟨railFault_restarts hs (exec_pllUnlock s) (.inr rfl), railFault_asks hs (exec_pllUnlock s) (by decide)⟩

end Sys2Proof.Machine
end

section
/-! O56: the I3C sideband (R414, R522, R523). -/

namespace Sys2Proof.Machine

theorem exec_i3cRead (i k : Nat) (s : State) : exec (.i3cRead i k) s = s.onDev fun d => d.i3cAsk fun d => d.i3cRead i k := rfl

theorem exec_i3cWrite (i k : Nat) (data : List Byte) (s : State) :
    exec (.i3cWrite i k data) s = s.onDev fun d => d.i3cAsk fun d => d.i3cWrite i k data := rfl

theorem exec_i3cDynamicAddress (address : Nat) (s : State) : exec (.i3cDynamicAddress address) s =
    s.onDev fun d => d.i3cAsk fun d => { d with dop := { d.dop with i3cAddr := some (address % 128) } } := rfl

/-- What a private read makes of the device: the kept answer is gone and its bytes go out. -/
def Dev.i3cTaken (d : Dev) : Dev :=
  match d.dop.i3cLast with
  | none => d
  | some (c, data) => { d with dop := { d.dop with i3cLast := none } }.emit (.bytes 3 (natLe c 2 ++ natLe data.length 1 ++ data))

theorem exec_i3cPrivateRead (s : State) : exec .i3cPrivateRead s = s.onDev fun d => d.i3cAsk Dev.i3cTaken := rfl

@[simp] theorem State.closing_i3cLast (s : State) (d : Dev) : (s.closing d).dev.dop.i3cLast = d.dop.i3cLast := by
  obtain ⟨_, _, _, _, _, h⟩ := s.closing_dev d; rw [h]

/-- The sideband answers while it is enabled and the management complex is out of reset (R522, R523). -/
theorem gives_of_i3cAsk {s : State} {i : Instr} {f : Dev → Dev} {d : Dev} (hs : clocked s) (hon : s.dev.objD 0x1103 1 1 ≠ 0)
    (hup : s.dev.pow.mgmt ≠ 0) (hi : exec i s = s.onDev fun d => d.i3cAsk f) (hd : f s.dev.cleared = d) : gives i s d := by
  refine gives_of_onDev hs hi ((if_neg ?_).trans hd)
  show ¬(decide (s.dev.objD 0x1103 1 1 = 0) || decide (s.dev.pow.mgmt = 0)) = true
  simp [hon, hup]

section
variable {d : Dev} {i k : Nat} (hfw : d.fwOnI3c = true)
include hfw

theorem Dev.i3cRead_listed {o : ObjDef} (hreads : i3cReads i k = true) (ho : findObj i k = some o) :
    d.i3cRead i k = d.i3cKeep (natLe (d.objRead o i k) o.len) := by
  simp [Dev.i3cRead, hfw, hreads, ho]

theorem Dev.i3cRead_refused (hreads : i3cReads i k = false) : d.i3cRead i k = (d.reply cRoleInsufficient).i3cKeep [] := by
  simp [Dev.i3cRead, hfw, hreads]

theorem Dev.i3cWrite_alert (b : Byte) : d.i3cWrite 0x6104 1 [b] = (d.alertClear (leNat [b])).i3cKeep [] := by
  simp [Dev.i3cWrite, hfw]

theorem Dev.i3cWrite_refused (data : List Byte) (hother : ¬(i = 0x6104 ∧ k = 1)) :
    d.i3cWrite i k data = (d.reply cRoleInsufficient).i3cKeep [] := by
  simp [Dev.i3cWrite, hfw, ← not_and_or, hother]

end

theorem Dev.alertClear_answer (d : Dev) (value : Nat) : (d.alertClear value).answer = d.answer := by
  obtain ⟨_, _, _, h⟩ := (d.setObj 0x6104 1 (d.objD 0x6104 1 0 - (d.objD 0x6104 1 0).land (value % 8))).alertUpdate_frame
  unfold Dev.alertClear
  rw [h]
  rfl

/-- Settles O56: each request by the branch of its function that the hypotheses name. -/
theorem sideband : Obligations.Sideband := by
  intro s hs hon hup
  have hfw (h2 : s.dev.pow.mgmt = 2) (h0 : s.dev.pow.pcyc = 0) : s.dev.cleared.fwOnI3c = true := by
    simp [Dev.fwOnI3c, Dev.cleared, h2, h0]
  refine ⟨fun i k o h2 h0 hreads ho => ?_, fun i k h2 h0 hreads => ?_, fun b h2 h0 => ?_, fun i k data h2 h0 hother => ?_,
    fun code data hlast => ?_, fun address => gives_of_i3cAsk hs hon hup (exec_i3cDynamicAddress address s) rfl⟩
  · exact gives_of_i3cAsk hs hon hup (exec_i3cRead i k s) (Dev.i3cRead_listed (hfw h2 h0) hreads ho)
  · refine ⟨_, gives_of_i3cAsk hs hon hup (exec_i3cRead i k s) (Dev.i3cRead_refused (hfw h2 h0) hreads), ?_⟩
    rw [State.closing_i3cLast, State.closing_answer]
    exact ⟨rfl, rfl⟩
  · refine ⟨_, gives_of_i3cAsk hs hon hup (exec_i3cWrite _ _ _ s) (Dev.i3cWrite_alert (hfw h2 h0) b), ?_⟩
    obtain ⟨hcause, -⟩ := s.dev.cleared.alertClear_clears (leNat [b])
    have hb : leNat [b] = b.toNat := by simp [leNat]
    rw [State.closing_i3cLast, State.closing_objD]
    refine ⟨?_, ?_⟩
    · rw [← hb]
      exact hcause
    · show some ((s.dev.cleared.alertClear (leNat [b])).answer, []) = _
      rw [Dev.alertClear_answer]
      rfl
  · refine ⟨_, gives_of_i3cAsk hs hon hup (exec_i3cWrite i k data s) (Dev.i3cWrite_refused (hfw h2 h0) data hother), ?_⟩
    obtain ⟨_, h⟩ := s.dev.cleared.reply_frame cRoleInsufficient
    rw [State.closing_i3cLast, State.closing_keep, State.closing_mesh, h]
    exact ⟨rfl, rfl, rfl⟩
  · refine gives_of_i3cAsk hs hon hup (exec_i3cPrivateRead s) ?_
    unfold Dev.i3cTaken
    rw [show s.dev.cleared.dop.i3cLast = some (code, data) from hlast]
    rfl

end Sys2Proof.Machine
end

section
/-! O44: the Ethernet port's own protocols (R463 to R468, R485 to R487). -/

namespace Sys2Proof.Machine

/-! ### What a pause holds back (R467) -/

theorem State.closing_txHeld {s : State} {d : Dev} {p : Nat × Out} (hp : p ∈ d.txHeld) : p ∈ (s.closing d).dev.txHeld := by
  have hheld : ((d.statusNoted s.dev).noted s.dev).txHeld = d.txHeld := by
    unfold Dev.noted Dev.statusNoted
    dsimp only
    rw [statusUpdates_frame]
  refine List.mem_append_left _ ?_
  rw [hheld]
  exact hp

/-- An output goes out or waits for the end of a pause. -/
theorem Dev.txPaused_carries {d : Dev} {o : Out} (ho : o ∈ d.out) : o ∈ d.txPaused.out ++ d.txPaused.txHeld.map Prod.snd := by
  rw [List.mem_append]
  by_cases hheld : d.held o = true
  · right
    refine List.mem_map.2 ⟨((d.pfcOf o).getD 0, o), List.mem_append_right _ ?_, rfl⟩
    exact List.mem_map.2 ⟨o, List.mem_filter.2 ⟨ho, hheld⟩, rfl⟩
  · left
    exact List.mem_filter.2 ⟨ho, by simpa using hheld⟩

theorem State.closing_carries {s : State} {d : Dev} {o : Out} (ho : o ∈ d.out) :
    o ∈ (s.closing d).dev.out ++ (s.closing d).dev.txHeld.map Prod.snd :=
  Dev.txPaused_carries (List.mem_append_left _ (d.out_statusNoted s.dev ho))

/-! ### The port (R463 to R468, R487) -/

theorem exec_ethPortDown (s : State) : exec .ethPortDown s = s.onDev fun d => d.setObj 0x2800 2 0 := rfl

theorem exec_ethPortUp (s : State) : exec .ethPortUp s = s.onDev fun d => (d.setObj 0x2800 2 2).sendLldp := rfl

theorem exec_arpRequest (target asker mac : Nat) (s : State) : exec (.arpRequest target asker mac) s = s.onDev fun d =>
    if d.portUp && target != 0 && target = d.objD 0x2800 4 0 then d.emit (.eth 4 [target, d.sec.fuses.mac, asker, mac] []) else d := rfl

theorem exec_neighbourSolicitation (target asker mac : Nat) (s : State) : exec (.neighbourSolicitation target asker mac) s = s.onDev fun d =>
    if d.portUp && target != 0 && target = d.objD 0x2800 5 0 then d.emit (.eth 5 [target, d.sec.fuses.mac, asker, mac] []) else d := rfl

theorem exec_lldpReceive (chassis port : Nat) (s : State) : exec (.lldpReceive chassis port) s = s.onDev fun d =>
    d.setObj 0x2800 9 (chassis % 2 ^ 256 + 2 ^ 256 * (port % 2 ^ 256)) := rfl

theorem exec_lldpTimer (s : State) : exec .lldpTimer s = s.onDev Dev.sendLldp := rfl

theorem Dev.sendLldp_up {d : Dev} (h : d.portUp = true) :
    d.sendLldp = d.emit (.eth 3 [d.sec.fuses.serial, 1, 120, d.objD 0x2800 8 0] []) := if_pos h

theorem ethPortUp_gives {s : State} (hs : clocked s) :
    gives .ethPortUp s ((s.dev.cleared.setObj 0x2800 2 2).emit (.eth 3 [s.dev.sec.fuses.serial, 1, 120, s.dev.objD 0x2800 8 0] [])) := by
  have hup : (s.dev.cleared.setObj 0x2800 2 2).portUp = true := by
    rw [Dev.portUp, Dev.objD_setObj, if_pos rfl]
    rfl
  have hname : (s.dev.cleared.setObj 0x2800 2 2).objD 0x2800 8 0 = s.dev.objD 0x2800 8 0 := (Dev.objD_setObj ..).trans (if_neg (by decide))
  refine gives_of_onDev hs (exec_ethPortUp s) ?_
  rw [Dev.sendLldp_up hup, hname]
  rfl

/-- A request for the device's own address is answered, another's is not (R465). -/
theorem addressRequest_gives {s : State} (hs : clocked s) {i : Instr} {target sub : Nat} {o : Dev → Out} (hup : s.dev.portUp = true) (h0 : target ≠ 0)
    (hi : exec i s = s.onDev fun d => if d.portUp && target != 0 && target = d.objD 0x2800 sub 0 then d.emit (o d) else d) :
    (target = s.dev.objD 0x2800 sub 0 → gives i s (s.dev.cleared.emit (o s.dev.cleared)))
      ∧ (target ≠ s.dev.objD 0x2800 sub 0 → gives i s s.dev.cleared) := by
  refine ⟨fun hown => gives_of_onDev hs hi (if_pos ?_), fun hother => gives_of_onDev hs hi (if_neg ?_)⟩
  · show (s.dev.portUp && target != 0 && decide (target = s.dev.objD 0x2800 sub 0)) = true
    simp [hup, h0, ← hown]
  · show ¬(s.dev.portUp && target != 0 && decide (target = s.dev.objD 0x2800 sub 0)) = true
    simp [hother]

theorem lldpReceive_keeps {s : State} (hs : clocked s) (chassis port : Nat) : ∃ t, exec (.lldpReceive chassis port) s = .next t
    ∧ t.dev.objD 0x2800 9 0 = chassis % 2 ^ 256 + 2 ^ 256 * (port % 2 ^ 256) ∧ t.dev.eth = s.dev.eth ∧ ∀ e, t.dev.core e = s.dev.core e := by
  refine ⟨_, gives_of_onDev hs (exec_lldpReceive chassis port s) rfl, ?_, State.closing_eth_of_ctxs rfl, fun e => State.closing_core ..⟩
  rw [State.closing_objD]
  exact (Dev.objD_setObj ..).trans (if_pos rfl)

/-! ### Pauses received (R467) -/

/-- A pause on priority index i begins or ends: its end lets out what has waited. -/
def Dev.pauseReceived (d : Dev) (i : Nat) (pause : Bool) : Dev :=
  let d := { d with eth := { d.eth with pauseRx := vSet d.eth.pauseRx i pause } }
  if pause then d else { d with out := d.out ++ (d.txHeld.filter fun p => p.1 = i).map Prod.snd, txHeld := d.txHeld.filter fun p => p.1 != i }

theorem exec_pfcPauseReceive (prio : Nat) (pause : Bool) (s : State) : exec (.pfcPauseReceive prio pause) s = s.onDev fun d =>
    match d.pfcIndex prio with
    | none => d
    | some i => d.pauseReceived i pause := rfl

theorem Dev.pfcIndex_lt {d : Dev} {prio i : Nat} (h : d.pfcIndex prio = some i) : i < 2 := by
  unfold Dev.pfcIndex at h
  dsimp only at h
  split_ifs at h <;> cases h <;> decide

theorem Dev.pauseReceived_frame (d : Dev) (i : Nat) (pause : Bool) : ∃ out held, d.pauseReceived i pause =
    { d with eth := { d.eth with pauseRx := vSet d.eth.pauseRx i pause }, out := out, txHeld := held } := by
  cases pause <;> exact ⟨_, _, rfl⟩

theorem State.closing_pauseReceived (s : State) (i : Nat) (pause : Bool) :
    (s.closing (s.dev.cleared.pauseReceived i pause)).dev = (s.dev.cleared.pauseReceived i pause).txPaused := by
  obtain ⟨_, _, h⟩ := s.dev.cleared.pauseReceived_frame i pause
  rw [State.closing_same (by rw [h]; rfl) (by rw [h]; exact ⟨fun _ _ => rfl, rfl, rfl, rfl⟩)]

/-- Nothing of what waits is lost when a pause begins or ends. -/
theorem Dev.pauseReceived_carries {d : Dev} {i : Nat} {pause : Bool} {p : Nat × Out} (hp : p ∈ d.txHeld) :
    p.2 ∈ (d.pauseReceived i pause).out ∨ p ∈ (d.pauseReceived i pause).txHeld := by
  cases pause with
  | true => exact .inr hp
  | false =>
    by_cases hi : p.1 = i
    · exact .inl (List.mem_append_right _ (List.mem_map.2 ⟨p, List.mem_filter.2 ⟨hp, by simpa using hi⟩, rfl⟩))
    · exact .inr (List.mem_filter.2 ⟨hp, by simpa using hi⟩)

/-- The end of a pause sends what has waited for it. -/
theorem Dev.pauseReceived_sends {d : Dev} {i : Nat} {p : Nat × Out} (hi : i < 2) (hp : p ∈ d.txHeld) (hwaits : p.1 = i)
    (hprio : d.pfcOf p.2 = some i) : p.2 ∈ (d.pauseReceived i false).txPaused.out := by
  refine List.mem_filter.2 ⟨List.mem_append_right _ (List.mem_map.2 ⟨p, List.mem_filter.2 ⟨hp, by simpa using hwaits⟩, rfl⟩), ?_⟩
  have hprio' : (d.pauseReceived i false).pfcOf p.2 = some i := hprio
  have hfree : vGet (d.pauseReceived i false).eth.pauseRx i false = false := vGet_vSet_same _ _ _ _ hi
  simp [Dev.held, hprio', hfree]

theorem pfcPauseReceive_pauses {s : State} (hs : clocked s) {prio i : Nat} (pause : Bool) (hprio : s.dev.pfcIndex prio = some i) :
    ∃ t, exec (.pfcPauseReceive prio pause) s = .next t
      ∧ vGet t.dev.eth.pauseRx i false = pause ∧ (∀ j, j ≠ i → vGet t.dev.eth.pauseRx j false = vGet s.dev.eth.pauseRx j false)
      ∧ t.dev.eth.fill = s.dev.eth.fill ∧ (∀ p ∈ s.dev.txHeld, p.2 ∈ t.dev.out ++ t.dev.txHeld.map Prod.snd)
      ∧ (pause = false → ∀ p ∈ s.dev.txHeld, p.1 = i → s.dev.pfcOf p.2 = some i → p.2 ∈ t.dev.out)
      ∧ (pause = true → ∀ p ∈ s.dev.txHeld, p ∈ t.dev.txHeld) ∧ ∀ e, t.dev.core e = s.dev.core e := by
  have hi := Dev.pfcIndex_lt hprio
  have hgives : gives (.pfcPauseReceive prio pause) s (s.dev.cleared.pauseReceived i pause) := by
    refine gives_of_onDev hs (exec_pfcPauseReceive prio pause s) ?_
    rw [show s.dev.cleared.pfcIndex prio = some i from hprio]
  have heth : (s.dev.cleared.pauseReceived i pause).txPaused.eth = { s.dev.eth with pauseRx := vSet s.dev.eth.pauseRx i pause } := by
    cases pause <;> rfl
  refine ⟨_, hgives, ?_⟩
  rw [State.closing_pauseReceived, heth]
  refine ⟨vGet_vSet_same _ _ _ _ hi, fun j hj => vGet_vSet_other _ _ _ _ _ hj, rfl, fun p hp => ?_, ?_, ?_, fun e => ?_⟩
  · obtain hout | hheld := Dev.pauseReceived_carries (d := s.dev.cleared) (i := i) (pause := pause) hp
    · exact Dev.txPaused_carries hout
    · exact List.mem_append_right _ (List.mem_map_of_mem (List.mem_append_left _ hheld))
  · rintro rfl p hp hwaits hof
    exact Dev.pauseReceived_sends (d := s.dev.cleared) hi hp hwaits hof
  · rintro rfl p hp
    exact List.mem_append_left _ hp
  · cases pause <;> rfl

/-! ### Pauses sent (R467) -/

section
variable {d : Dev} {i n : Nat} (hi : i < 2)
include hi

theorem Dev.pfcFill_pauses (hoff : vGet d.eth.pauseTx i false = false) (hn : 3 * 2 ^ 20 < n) :
    vGet (d.pfcFill i n).eth.pauseTx i false = true := by
  unfold Dev.pfcFill
  rw [if_pos (by simpa [hoff] using hn)]
  simp only [Dev.emit]
  rw [Dev.bump_frame]
  exact vGet_vSet_same _ _ _ _ hi

theorem Dev.pfcFill_releases (hon : vGet d.eth.pauseTx i false = true) (hn : n < 2 * 2 ^ 20) :
    vGet (d.pfcFill i n).eth.pauseTx i false = false := by
  unfold Dev.pfcFill
  rw [if_neg (by simp [hon]), if_pos (by simpa [hon] using hn)]
  exact vGet_vSet_same _ _ _ _ hi

end

theorem Dev.pfcFill_between {d : Dev} {i n : Nat} (hlow : 2 * 2 ^ 20 ≤ n) (hhigh : n ≤ 3 * 2 ^ 20) :
    vGet (d.pfcFill i n).eth.pauseTx i false = vGet d.eth.pauseTx i false := by
  unfold Dev.pfcFill
  rw [if_neg (by simpa using fun _ => hhigh), if_neg (by simpa using fun _ => hlow)]

/-! ### Time (R401, R485, R486) -/

theorem exec_ptpEventMessage (m : Nat) (s : State) : exec (.ptpEventMessage m) s = s.onDev fun d =>
    (d.setObj 0x2800 0xE (((d.time : Int) - m) % 2 ^ 64).toNat).emit (.words 1 [d.time]) := rfl

theorem exec_timeDisciplined (time : Nat) (s : State) : exec (.timeDisciplined time) s = s.onDev fun d =>
    if d.disciplined then d
    else { d with
      time := time, disciplined := true
      pow := { d.pow with startAt := d.pow.startAt + time - d.time }
      keep := { d.keep with recs := d.keep.recs.map fun r => if r.uncertain then { r with time := time, uncertain := false } else r } } := rfl

theorem exec_ppsOutSecond (s : State) : exec .ppsOutSecond s = s.onDev fun d =>
    if d.disciplined then (d.emit (.pin 1 true)).emit (.pin 1 false) else d := rfl

@[simp] theorem State.closing_time (s : State) (d : Dev) : (s.closing d).dev.time = d.time := by
  obtain ⟨_, _, _, _, _, h⟩ := s.closing_dev d; rw [h]

@[simp] theorem State.closing_disciplined (s : State) (d : Dev) : (s.closing d).dev.disciplined = d.disciplined := by
  obtain ⟨_, _, _, _, _, h⟩ := s.closing_dev d; rw [h]

theorem timeDisciplined_dates {s : State} (hs : clocked s) (time : Nat) (hfree : s.dev.disciplined = false) :
    ∃ t, exec (.timeDisciplined time) s = .next t ∧ t.dev.time = time ∧ t.dev.disciplined = true
      ∧ (∀ r ∈ s.dev.keep.recs, r.uncertain = true → { r with time := time, uncertain := false } ∈ t.nv.keep.recs)
      ∧ (∀ r ∈ s.dev.keep.recs, r.uncertain = false → r ∈ t.nv.keep.recs) ∧ ∀ e, t.dev.core e = s.dev.core e := by
  have hnot : ¬s.dev.cleared.disciplined = true := Bool.eq_false_iff.mp hfree
  refine ⟨_, gives_of_onDev hs (exec_timeDisciplined time s) (if_neg hnot), State.closing_time .., State.closing_disciplined .., ?_, ?_,
    fun e => State.closing_core ..⟩
  · intro r hr hunc
    rw [State.closing_nv]
    exact List.mem_map.2 ⟨r, hr, if_pos hunc⟩
  · intro r hr hdated
    rw [State.closing_nv]
    exact List.mem_map.2 ⟨r, hr, if_neg (Bool.eq_false_iff.mp hdated)⟩

/-! ### The statement -/

/-- Settles O44: each protocol by its function; what waits for a pause is followed through the close. -/
theorem ethernetPort : Obligations.EthernetPort := by
  intro s hs
  refine ⟨gives_of_onDev hs (exec_ethPortDown s) rfl, ethPortUp_gives hs, fun target asker mac hup h0 => ?_, lldpReceive_keeps hs,
    fun hup => gives_of_onDev hs (exec_lldpTimer s) (Dev.sendLldp_up (d := s.dev.cleared) hup), fun prio pause i => pfcPauseReceive_pauses hs pause,
    fun i n hi => ⟨Dev.pfcFill_pauses hi, Dev.pfcFill_releases hi, Dev.pfcFill_between⟩,
    fun m => gives_of_onDev hs (exec_ptpEventMessage m s) rfl, timeDisciplined_dates hs,
    fun hdisc => gives_of_onDev hs (exec_ppsOutSecond s) (if_pos hdisc)⟩
  obtain ⟨harp, harpOther⟩ := addressRequest_gives hs hup h0 (exec_arpRequest target asker mac s)
  obtain ⟨hns, hnsOther⟩ := addressRequest_gives hs hup h0 (exec_neighbourSolicitation target asker mac s)
  exact ⟨harp, harpOther, hns, hnsOther⟩

end Sys2Proof.Machine
end

section
/-! O53 and O55 fail: in a state with a session of identifier 0 on the Ethernet port, an anonymous refusal waits for the end of a pause (R467, R510, R513). -/

namespace Sys2Proof.Machine

theorem exec_read (who : Option Nat) (r : OpRec) (s : State) :
    exec (.read who r) s = s.onDev fun d => d.operate who r true fun _ role d => d.readOp role r := rfl

theorem exec_hello (path : DopPath) (body : List Byte) (s : State) : exec (.hello path body) s = s.onDev fun d => d.hello path body := rfl

theorem gives.next {i : Instr} {s t : State} {d : Dev} (h : gives i s d) (ht : exec i s = .next t) : t = s.closing d := by
  rw [gives, ht] at h
  exact Host.Outcome.next.inj h

/-- An output that a pause holds back does not go out. -/
theorem Dev.txPaused_holds {d : Dev} {o : Out} (h : d.held o = true) : o ∉ d.txPaused.out := by
  intro ho
  simpa [h] using (List.mem_filter.1 ho).2

theorem SameNotes.cleared {d : Dev} : SameNotes d d.cleared := ⟨fun _ _ => .refl _, .refl _, .refl _, .refl _⟩

theorem SameNotes.emit {d e : Dev} (h : SameNotes d e) (o : Out) : SameNotes d (e.emit o) := ⟨h.objs, h.disciplined, h.replace, h.nextSeq⟩

theorem SameNotes.reply {d : Dev} {code : Code} (h : okey 0x1801 (code / 256 + 1) ∉ notingKeys) : SameNotes d (d.reply code) := by
  unfold Dev.reply
  split
  · exact ⟨fun _ _ => .refl _, .refl _, .refl _, .refl _⟩
  · exact SameNotes.trans (SameNotes.bump 1 h) ⟨fun _ _ => .refl _, .refl _, .refl _, .refl _⟩

/-- The device after it has refused an anonymous message for its authentication. -/
def Dev.refusesAnon (d : Dev) (req : Nat) : Dev := ((d.bump 0x1100 6 1).reply cAuthFailed).emit (.dop 0 req cAuthFailed 0 [])

theorem Dev.refusesAnon_frame (d : Dev) (req : Nat) : ∃ objs, d.refusesAnon req =
    { d with objs := objs, answer := cAuthFailed, out := d.out ++ [.dop 0 req cAuthFailed 0 []] } := by
  obtain ⟨_, h⟩ := (d.bump 0x1100 6 1).reply_frame cAuthFailed
  unfold Dev.refusesAnon
  rw [h, Dev.bump_frame]
  exact ⟨_, rfl⟩

theorem State.closing_refusesAnon (s : State) (req : Nat) :
    (s.closing (s.dev.cleared.refusesAnon req)).dev = (s.dev.cleared.refusesAnon req).txPaused := by
  have hbump : SameNotes s.dev (s.dev.cleared.bump 0x1100 6 1) := SameNotes.cleared.trans (SameNotes.bump 1 (by decide))
  have hnotes : SameNotes s.dev (s.dev.cleared.refusesAnon req) := (hbump.trans (SameNotes.reply (by decide))).emit _
  obtain ⟨_, h⟩ := s.dev.cleared.refusesAnon_frame req
  rw [State.closing_same (by rw [h]; rfl) hnotes]

/-- A session of identifier 0, open, that has come by the Ethernet port. -/
def sessionZero : Session :=
  { id := 0, key := 0, role := 0, path := ⟨0, 0⟩, isOpen := true, transcript := 0, keyC2d := 0, keyD2c := 0, highest := 0, seen := []
    nextSeq := 0, lastUse := 0, stage := [], kept := [], subs := [], notes := [], seg := none, snaps := [], selects := [], nonce := none
    rdma := none }

/-- The device after reset with its firmware running, that session, and a pause received on the priority of DOP. -/
def pausedState : State := { State.reset with dev := { State.reset.dev with
  pow := { State.reset.dev.pow with mgmt := 2 }
  eth := { State.reset.dev.eth with pauseRx := #v[false, true] }
  dop := { State.reset.dev.dop with sessions := [sessionZero] } } }

/-- In that state the refusal of an anonymous message waits. -/
theorem pausedState_holds (req : Nat) :
    Out.dop 0 req cAuthFailed 0 [] ∉ (pausedState.closing (pausedState.dev.cleared.refusesAnon req)).dev.out := by
  rw [State.closing_refusesAnon]
  obtain ⟨_, h⟩ := pausedState.dev.cleared.refusesAnon_frame req
  refine Dev.txPaused_holds ?_
  rw [h]
  rfl

/-! ### O53 -/

/-- A READ of object 0x1000:01, which any Observer may read. -/
def readArch : OpRec := ⟨1, false, false, false, false, 0, 0x1000, 1, 0, 0, 0⟩

/-- That object's row. -/
def archObj : ObjDef := ⟨0x1000, 1, 1, 12, 16, 0, 0, 0, 1907970636974308352332, false⟩

theorem findObj_readArch : findObj readArch.index readArch.sub = some archObj := by decide +kernel

/-- While anonymous reads are disabled an anonymous READ is refused (R513). -/
theorem Dev.anonOp_disabled {d : Dev} {r : OpRec} (allowed : Bool) (f : Dev → Dev × DopAns) (hfw : d.pow.mgmt = 2)
    (hoff : d.objD 0x1100 3 0 = 0) : d.anonOp r allowed f = d.refusesAnon r.reqId := by
  simp only [Dev.anonOp, hfw, hoff]
  rfl

/-- Refutes O53: the last clause wants the refusal of an anonymous READ among the outputs, but with a session of identifier 0 on the port and a pause of DOP's priority it waits for the end of the pause (R467). -/
theorem not_operations : ¬ Obligations.Operations := by
  intro h
  obtain ⟨-, -, -, -, -, -, hanon⟩ := h pausedState 0 sessionZero readArch rfl
  obtain ⟨-, hrefused⟩ := hanon archObj rfl (by decide) findObj_readArch rfl rfl rfl rfl (by decide) (by decide)
  obtain ⟨t, hexec, hout⟩ := hrefused rfl
  have hgives : gives (.read none readArch) pausedState (pausedState.dev.cleared.refusesAnon 0) := by
    refine gives_of_onDev rfl (exec_read none readArch pausedState) ?_
    exact Dev.anonOp_disabled (r := readArch) true (fun d => d.readOp 0 readArch) rfl rfl
  rw [hgives.next hexec] at hout
  exact pausedState_holds 0 hout

/-! ### O55 -/

theorem Dev.hello_refused {d : Dev} {path : DopPath} {body : List Byte} (hfw : d.pow.mgmt = 2) (hcheck : d.helloCheck body = some cAuthFailed) :
    d.hello path body = d.refusesAnon 0 := by
  simp only [Dev.hello, hfw, hcheck]
  rfl

/-- Refutes O55: the clause of a HELLO that fails wants its anonymous refusal among the outputs, but with a session of identifier 0 on the port and a pause of DOP's priority it waits for the end of the pause (R467). -/
theorem not_sessions : ¬ Obligations.Sessions := by
  intro h
  obtain ⟨-, hfails, -⟩ := h pausedState rfl
  have hcheck : pausedState.dev.helloCheck [] = some cAuthFailed := rfl
  obtain ⟨t, hexec, -, hout, -⟩ := hfails ⟨0, 0⟩ [] cAuthFailed rfl hcheck
  have hgives : gives (.hello ⟨0, 0⟩ []) pausedState (pausedState.dev.cleared.refusesAnon 0) :=
    gives_of_onDev rfl (exec_hello ⟨0, 0⟩ [] pausedState) (Dev.hello_refused rfl hcheck)
  rw [hgives.next hexec] at hout
  exact pausedState_holds 0 hout

end Sys2Proof.Machine
end

section
/-! Operations of a session: what selections, the response and the close make of them (R494, R505 to R508). -/

namespace Sys2Proof.Machine

/-! ### Sessions -/

/-- A change of a session that leaves its identifier and whether it is open. -/
def keepsName (f : Session → Session) : Prop := ∀ x, (f x).id = x.id ∧ (f x).isOpen = x.isOpen

theorem Dev.session?_id {d : Dev} {id : Nat} {w : Session} (h : d.session? id = some w) : w.id = id := by
  have := List.find?_some h
  simp only [Bool.and_eq_true, decide_eq_true_eq] at this
  exact this.1

/-- A session that is found after each session has been changed, its name kept, is the one found before, changed. -/
theorem find?_mapSessions {l : List Session} {id : Nat} {g : Session → Session} (h : keepsName g) :
    ((l.map g).find? fun x => x.id = id && x.isOpen) = (l.find? fun x => x.id = id && x.isOpen).map g := by
  rw [List.find?_map]
  congr 2
  funext x
  simp only [Function.comp, (h x).1, (h x).2]

theorem Dev.session?_updSession {d : Dev} {id : Nat} {f : Session → Session} {w : Session} (hf : keepsName f) (hw : d.session? id = some w) :
    (d.updSession id f).session? id = some (f w) := by
  have hkeep : keepsName fun x => if x.id = id then f x else x := by
    intro x
    show (if x.id = id then f x else x).id = _ ∧ (if x.id = id then f x else x).isOpen = _
    split
    · exact hf x
    · exact ⟨rfl, rfl⟩
  refine (find?_mapSessions hkeep).trans ?_
  rw [show (d.dop.sessions.find? fun x => x.id = id && x.isOpen) = some w from hw, Option.map_some, if_pos (Dev.session?_id hw)]

/-- A write of one session leaves that session as it is (R501). -/
theorem Dev.session?_overtake {d : Dev} {id : Nat} {w : Session} (i s : Nat) (hw : d.session? id = some w) :
    (d.overtake id i s).session? id = some w := by
  unfold Dev.overtake
  split
  · exact hw
  · refine (find?_mapSessions (fun x => ?_)).trans ?_
    · split <;> exact ⟨rfl, rfl⟩
    · rw [show (d.dop.sessions.find? fun x => x.id = id && x.isOpen) = some w from hw, Option.map_some, if_pos (Dev.session?_id hw)]

theorem Session.mem_remember (x : Session) (k : Kept) : k ∈ (x.remember k).kept := by
  show k ∈ (x.kept ++ [k]).drop (x.kept.length - 31)
  rw [List.drop_append_of_le_length (Nat.sub_le ..)]
  exact List.mem_append_right _ (List.mem_singleton.2 rfl)

/-! ### Selections (R494) -/

theorem nmGet_withSelects (objs sel : NMap Nat) (k : Nat) :
    nmGet (withSelects objs sel) k = if selectKeys.contains k then nmGet sel k else nmGet objs k := by
  have hfold (l : List Nat) (m : NMap Nat) : nmGet (l.foldl (fun m k => match nmGet sel k with
      | some v => nmSet m k v
      | none => nmErase m k) m) k = if k ∈ l then nmGet sel k else nmGet m k := by
    induction l generalizing m with
    | nil => rfl
    | cons j l ih =>
      rw [List.foldl_cons, ih]
      by_cases hj : k = j
      · subst hj
        cases hsel : nmGet sel k <;> simp [nmGet_nmErase]
      · cases hsel : nmGet sel j <;> simp [hj, nmGet_nmErase, nmGet_nmSet]
  simp only [List.contains_iff_mem]
  exact hfold selectKeys objs

theorem nmGet_selectsOf (objs : NMap Nat) (k : Nat) : nmGet (selectsOf objs) k = if selectKeys.contains k then nmGet objs k else none :=
  nmGet_filter_key objs (fun k => selectKeys.contains k) k

/-- A dictionary after it has been seen under other selections. -/
theorem nmGet_restored (objs sel : NMap Nat) (k : Nat) : nmGet (withSelects (withSelects objs sel) (selectsOf objs)) k = nmGet objs k := by
  rw [nmGet_withSelects, nmGet_selectsOf, nmGet_withSelects]
  split <;> simp_all

/-! ### What a session's operation leaves (R505 to R508) -/

/-- Between two devices only sessions, the next routing banks, the answer and the outputs differ. -/
def onlySessions (d e : Dev) : Prop := ∃ sessions mesh answer out, e =
  { d with mesh := mesh, dop := { d.dop with sessions := sessions }, answer := answer, out := out }

theorem onlySessions.rfl {d : Dev} : onlySessions d d := ⟨_, _, _, _, .refl _⟩

theorem onlySessions.trans {a b c : Dev} (h : onlySessions a b) (g : onlySessions b c) : onlySessions a c := by
  obtain ⟨_, _, _, _, rfl⟩ := h
  obtain ⟨_, _, _, _, rfl⟩ := g
  exact ⟨_, _, _, _, .refl _⟩

theorem onlySessions.updSession {d e : Dev} (h : onlySessions d e) (id : Nat) (f : Session → Session) : onlySessions d (e.updSession id f) :=
  h.trans ⟨_, _, _, _, .refl _⟩

theorem onlySessions.emit {d e : Dev} (h : onlySessions d e) (o : Out) : onlySessions d (e.emit o) := h.trans ⟨_, _, _, _, .refl _⟩

theorem onlySessions.overtake {d e : Dev} (h : onlySessions d e) (id i s : Nat) : onlySessions d (e.overtake id i s) := by
  unfold Dev.overtake
  split
  · exact h
  · exact h.trans ⟨_, _, _, _, .refl _⟩

/-- The device d after an operation of session id under its selections has made e of it: the others' selections are back and the session has changed by g. -/
def Dev.servedBy (d e : Dev) (id : Nat) (g : Session → Session) : Dev :=
  { e with objs := withSelects e.objs (selectsOf d.objs) }.updSession id g

/-- The operation under way and its device as a session with selections sel sees it. -/
def Dev.underSelects (d : Dev) (sel : NMap Nat) : Dev := { d with objs := withSelects d.objs sel }

theorem Dev.selecting_running {α : Type} {d : Dev} {sel : NMap Nat} {f : Dev → Dev × α} {e : Dev} {a : α}
    (hf : f (d.underSelects sel) = (e, a)) (hfw : e.pow.mgmt = 2) :
    d.selecting sel f = ({ e with objs := withSelects e.objs (selectsOf d.objs) }, selectsOf e.objs, a) := by
  have hrun : f { d with objs := withSelects d.objs sel } = (e, a) := hf
  simp [Dev.selecting, hrun, hfw]

section
variable {d e : Dev} {sel : NMap Nat} {id : Nat} {g : Session → Session}

theorem onlySessions.servedBy_frame (h : onlySessions (d.underSelects sel) e) : ∃ sessions, d.servedBy e id g =
    { d with objs := withSelects (withSelects d.objs sel) (selectsOf d.objs), mesh := e.mesh, dop := { d.dop with sessions := sessions }
             answer := e.answer, out := e.out } := by
  obtain ⟨_, _, _, _, rfl⟩ := h
  exact ⟨_, .refl _⟩

theorem onlySessions.session?_servedBy {w : Session} (hg : keepsName g) (hw : e.session? id = some w) :
    (d.servedBy e id g).session? id = some (g w) :=
  Dev.session?_updSession (d := { e with objs := withSelects e.objs (selectsOf d.objs) }) hg hw

end

/-- A response record: kept by its session and sent. -/
def Dev.answering (d : Dev) (id req arg : Nat) (data : List Byte) : Dev :=
  (d.updSession id fun x => x.remember ⟨req, d.answer, arg, data⟩).emit (.dop id req d.answer arg data)

theorem Dev.respond_some (d : Dev) (id req arg : Nat) (data : List Byte) : d.respond id req (some (arg, data)) = d.answering id req arg data := rfl

section
variable {s : State} {e : Dev} {sel : NMap Nat} {id : Nat} {g : Session → Session} {w : Session}
  (honly : onlySessions (s.dev.cleared.underSelects sel) e) (hg : keepsName g) (hw : e.session? id = some w)
include honly

/-- After an operation that waits for its end the close changes nothing but what a pause holds back. -/
theorem onlySessions.closing_served : (s.closing (s.dev.cleared.servedBy e id g)).dev = (s.dev.cleared.servedBy e id g).txPaused := by
  obtain ⟨_, h⟩ := honly.servedBy_frame (id := id) (g := g)
  rw [State.closing_same]
  · rw [h]
    exact .refl _
  · rw [h]
    exact ⟨fun k _ => nmGet_restored .., .refl _, .refl _, .refl _⟩

/-- After an operation that answers the close changes nothing but what a pause holds back. -/
theorem onlySessions.closing_answering (req arg : Nat) (data : List Byte) :
    (s.closing ((s.dev.cleared.servedBy e id g).answering id req arg data)).dev
      = ((s.dev.cleared.servedBy e id g).answering id req arg data).txPaused := by
  obtain ⟨_, h⟩ := honly.servedBy_frame (id := id) (g := g)
  rw [State.closing_same]
  · rw [h]
    exact .refl _
  · rw [h]
    exact ⟨fun k _ => nmGet_restored .., .refl _, .refl _, .refl _⟩

include hg hw

/-- An operation that waits for its end leaves the session changed and its outputs sent or held back. -/
theorem waits_of_gives {i : Instr} (hgives : gives i s (s.dev.cleared.servedBy e id g)) :
    ∃ t, exec i s = .next t ∧ t.dev.session? id = some (g w) ∧ sameObjs s t ∧ ∀ o ∈ e.out, o ∈ t.dev.out ++ t.dev.txHeld.map Prod.snd := by
  refine ⟨_, hgives, ?_⟩
  rw [sameObjs, honly.closing_served]
  obtain ⟨_, h⟩ := honly.servedBy_frame (id := id) (g := g)
  refine ⟨onlySessions.session?_servedBy hg hw, fun k => ?_, fun o ho => Dev.txPaused_carries (d := s.dev.cleared.servedBy e id g) ho⟩
  rw [h]
  exact nmGet_restored ..

/-- An operation that ends is answered with its code, result and data. -/
theorem answered_of_gives {i : Instr} {req arg : Nat} {data : List Byte}
    (hgives : gives i s ((s.dev.cleared.servedBy e id g).answering id req arg data)) :
    ∃ t, exec i s = .next t ∧ answered s t id req e.answer arg data ((g w).remember ⟨req, e.answer, arg, data⟩) ∧ sameObjs s t
      ∧ t.dev.mesh = e.mesh := by
  refine ⟨_, hgives, ?_⟩
  obtain ⟨_, h⟩ := honly.servedBy_frame (id := id) (g := g)
  have hanswer : (s.dev.cleared.servedBy e id g).answer = e.answer := rfl
  have hserved : (s.dev.cleared.servedBy e id g).session? id = some (g w) := onlySessions.session?_servedBy hg hw
  rw [sameObjs, answered, honly.closing_answering]
  refine ⟨⟨Dev.txPaused_carries (List.mem_append_right _ (List.mem_singleton.2 rfl)), ?_, Session.mem_remember .., fun c => ?_⟩, fun k => ?_, rfl⟩
  · exact Dev.session?_updSession (f := fun x => x.remember ⟨req, e.answer, arg, data⟩) (fun _ => ⟨rfl, rfl⟩) hserved
  · show (s.dev.cleared.servedBy e id g).core c = _
    rw [h]
    rfl
  · show nmGet (s.dev.cleared.servedBy e id g).objs k = _
    rw [h]
    exact nmGet_restored ..

end

/-- A session's use of an operation: its selections as the operation has left them, and the time. -/
def Session.using (sel : NMap Nat) (time : Nat) (x : Session) : Session := { x with selects := sel, lastUse := time }

theorem keepsName_using (sel : NMap Nat) (time : Nat) : keepsName (Session.using sel time) := fun _ => ⟨rfl, rfl⟩

section
variable {s : State} {id : Nat} {w : Session} {r : OpRec}

/-- An operation that passes the first rows of R507 runs under its session's selections. -/
theorem Dev.dopOp_asks {d e : Dev} {f : Session → Dev → Dev × DopAns} {a : DopAns} (hasks : d.asks id w r)
    (hf : f w (d.underSelects w.selects) = (e, a)) (honly : onlySessions (d.underSelects w.selects) e) :
    d.dopOp id r f = (d.servedBy e id (Session.using (selectsOf e.objs) d.time)).respond id r.reqId a := by
  obtain ⟨hfw, hw, hkept, hres⟩ := hasks
  have hfw' : e.pow.mgmt = 2 := by
    obtain ⟨_, _, _, _, rfl⟩ := honly
    exact hfw
  simp only [Dev.dopOp, hfw, hw, hkept, hres, Dev.selecting_running hf hfw']
  rfl

variable {i : Instr} {anon : Bool} {f : Nat → Nat → Dev → Dev × DopAns} {e : Dev} {w' : Session} (hs : clocked s) (hasks : s.dev.asks id w r)
  (hi : exec i s = s.onDev fun d => d.operate (some id) r anon f) (honly : onlySessions (s.dev.asSeenBy w) e) (hw' : e.session? id = some w')
include hs hasks hi honly hw'

theorem operation_answers {arg : Nat} {data : List Byte} (hf : f id w.role (s.dev.asSeenBy w) = (e, some (arg, data))) :
    ∃ t, exec i s = .next t ∧ answered s t id r.reqId e.answer arg data
        ((w'.using (selectsOf e.objs) s.dev.time).remember ⟨r.reqId, e.answer, arg, data⟩) ∧ sameObjs s t ∧ t.dev.mesh = e.mesh :=
  answered_of_gives honly (keepsName_using _ _) hw' (gives_of_onDev hs hi
    (Dev.dopOp_asks (d := s.dev.cleared) (f := fun x => f id x.role) hasks hf honly))

theorem operation_waits (hf : f id w.role (s.dev.asSeenBy w) = (e, none)) :
    ∃ t, exec i s = .next t ∧ t.dev.session? id = some (w'.using (selectsOf e.objs) s.dev.time) ∧ sameObjs s t
      ∧ ∀ o ∈ e.out, o ∈ t.dev.out ++ t.dev.txHeld.map Prod.snd :=
  waits_of_gives honly (keepsName_using _ _) hw' (gives_of_onDev hs hi
    (Dev.dopOp_asks (d := s.dev.cleared) (f := fun x => f id x.role) hasks hf honly))

end

end Sys2Proof.Machine
end

section
/-! O54: transfers of DOMAIN values and notifications (R514 to R517). -/

namespace Sys2Proof.Machine

theorem exec_segRead (who : Option Nat) (r : OpRec) (s : State) :
    exec (.segRead who r) s = s.onDev fun d => d.operate who r false fun id role d => d.segReadOp id role r := rfl

theorem exec_segWrite (who : Option Nat) (r : OpRec) (data : List Byte) (s : State) :
    exec (.segWrite who r data) s = s.onDev fun d => d.operate who r false fun id role d => d.segWriteOp id role r data := rfl

theorem exec_domainRdma (who : Option Nat) (r : OpRec) (data : List Byte) (s : State) :
    exec (.domainRdma who r data) s = s.onDev fun d => d.operate who r false fun id role d => d.rdmaOp id role r data := rfl

theorem exec_domainRdmaComplete (id : Nat) (data : List Byte) (s : State) :
    exec (.domainRdmaComplete id data) s = s.onDev fun d => d.rdmaDone id data := rfl

theorem exec_segTransferTimeout (id : Nat) (snap : Option (Nat × Nat)) (s : State) :
    exec (.segTransferTimeout id snap) s = s.onDev fun d => d.updSession id fun t => match snap with
      | none => { t with seg := none }
      | some p => { t with snaps := t.snaps.filter fun n => !(n.index = p.1 && n.sub = p.2) } := rfl

theorem exec_subscribe (who : Option Nat) (r : OpRec) (s : State) :
    exec (.subscribe who r) s = s.onDev fun d => d.operate who r false fun id _ d => d.subscribeOp id r := rfl

theorem exec_ack (who : Option Nat) (r : OpRec) (s : State) : exec (.ack who r) s = s.onDev fun d => d.operate who r false fun id _ d =>
    ended (d.updSession id fun s => { s with notes := s.notes.filter fun n => n.seq % 2 ^ 32 != r.arg }) := rfl

theorem exec_notifyResendTimer (id seq : Nat) (s : State) :
    exec (.notifyResendTimer id seq) s = s.onDev fun d => d.notifyAgain id seq := rfl

/-! ### SEG_READ (R515) -/

theorem Dev.opCheck_ok {role : Nat} {r : OpRec} {permits : ObjDef → Bool} {o : ObjDef} (ho : findObj r.index r.sub = some o)
    (hrole : o.role ≤ role) (hpermits : permits o = true) : Dev.opCheck role r permits = .ok o := by
  simp [Dev.opCheck, ho, Nat.not_lt.2 hrole, hpermits]

/-- An object whose snapshot is its value. -/
def plainDomain (i : Nat) : Prop := i ≠ 0x7000 ∧ i ≠ 0x5103 ∧ i ≠ 0x7004

theorem Dev.snapshot_plain {d : Dev} {i : Nat} (id k : Nat) (h : plainDomain i) : d.snapshot id i k = .ok (d, d.domainRead i k) := by
  obtain ⟨hreport, hresults, hlife⟩ := h
  simp [Dev.snapshot, hreport, hresults, hlife]

/-- The snapshots of other objects. -/
def otherSnaps (r : OpRec) (l : List Snap) : List Snap := l.filter fun n => !(n.index = r.index && n.sub = r.sub)

/-- The snapshot that a SEG_READ from the start keeps: none when it has given the whole value. -/
def keptSnap (r : OpRec) (value : List Byte) : List Snap := if r.length < value.length then [⟨r.index, r.sub, value⟩] else []

section
variable {d : Dev} {id role : Nat} {r : OpRec} {o : ObjDef} {w : Session}
  (ho : findObj r.index r.sub = some o) (hrole : o.role ≤ role) (hdomain : o.isDomain = true) (haccess : o.access = 0 ∨ o.access = 2)
  (hlen : r.length ≤ 1024)
include ho hrole hdomain haccess hlen

theorem Dev.segReadOp_begins (hplain : plainDomain r.index) (harg : r.arg = 0) :
    d.segReadOp id role r = (d.updSession id fun x => { x with snaps := otherSnaps r x.snaps ++ keptSnap r (d.domainRead r.index r.sub) },
      some (0, (d.domainRead r.index r.sub).take r.length)) := by
  have hcheck : Dev.opCheck role r (fun o => (o.isDomain && (o.access = 0 || o.access = 2)) || o.index = 0x7004) = .ok o :=
    Dev.opCheck_ok ho hrole (by simp [hdomain, haccess])
  simp only [Dev.segReadOp, hcheck, Nat.not_lt.2 hlen, harg, d.snapshot_plain id r.sub hplain, if_true, if_false, List.drop_zero, Nat.zero_add]
  by_cases hmore : r.length < (d.domainRead r.index r.sub).length
  · simp [hmore, otherSnaps, keptSnap]
  · simp [hmore, otherSnaps, keptSnap]

/-- A SEG_READ that goes on reads from the snapshot, and the last one discards it. -/
theorem Dev.segReadOp_goesOn {n : Snap} (harg : r.arg ≠ 0) (hw : d.session? id = some w)
    (hsnap : (w.snaps.find? fun n => n.index = r.index && n.sub = r.sub) = some n) : d.segReadOp id role r =
      (d.updSession id fun x => { x with snaps := if n.data.length ≤ r.arg + r.length then otherSnaps r x.snaps else x.snaps },
        some (0, (n.data.drop r.arg).take r.length)) := by
  have hcheck : Dev.opCheck role r (fun o => (o.isDomain && (o.access = 0 || o.access = 2)) || o.index = 0x7004) = .ok o :=
    Dev.opCheck_ok ho hrole (by simp [hdomain, haccess])
  simp only [Dev.segReadOp, hcheck, Nat.not_lt.2 hlen, harg, hw, Option.map_some, Option.getD_some, hsnap, if_false]
  split
  · rfl
  · simp [Dev.updSession]

end

/-! ### DOMAIN_RDMA (R516) -/

/-- A session whose DOMAIN_RDMA is under way, with the snapshot that it moves. -/
def Session.rdmaUnder (op : Nat × Bool × Nat × Nat × Nat) (snap : Snap) (x : Session) : Session :=
  { x with rdma := some op, snaps := x.snaps ++ [snap] }

/-- A DOMAIN_RDMA that reads an object begins: its value goes out through the queue pair, and the response waits. -/
theorem Dev.rdmaOp_reads {d : Dev} {id role : Nat} {r : OpRec} {o : ObjDef} {w : Session} {data : List Byte}
    (ho : findObj r.index r.sub = some o) (hrole : o.role ≤ role) (hdomain : o.isDomain = true) (haccess : o.access = 0 ∨ o.access = 2)
    (hplain : plainDomain r.index) (hdata : data.length = 24) (hres : bits (leNat data) 127 96 = 0) (hout : bit r.arg 8 = false)
    (hw : d.session? id = some w) (hfree : w.rdma = none) (hready : (d.qp (16384 + bits r.arg 7 0)).state = 1)
    (hfits : (d.domainRead r.index r.sub).length ≤ bits (leNat data) 191 128) :
    d.rdmaOp id role r data = ((d.updSession id (Session.rdmaUnder (16384 + bits r.arg 7 0, false, r.index, r.sub, r.reqId)
        ⟨r.index, r.sub, d.domainRead r.index r.sub⟩)).emit
      (.eth 13 [16384 + bits r.arg 7 0, bits (leNat data) 63 0, bits (leNat data) 95 64] (d.domainRead r.index r.sub)), none) := by
  have hcheck : Dev.opCheck role r (fun o => if !bit r.arg 8 then o.isDomain && (o.access = 0 || o.access = 2) else o.takesDomain) = .ok o :=
    Dev.opCheck_ok ho hrole (by simp [hdomain, haccess, hout])
  simp only [Dev.rdmaOp, hcheck]
  simp [hout, firstFail, hdata, hres, hw, hfree, hready, d.snapshot_plain id r.sub hplain, Nat.not_lt.2 hfits]
  rfl

/-! ### Values that are applied (R514, R516) -/

/-- The next bank of the routing table, written by a session. -/
theorem Dev.domainWrite_routes {d : Dev} {id sub : Nat} {bs : List Byte} (hlen : bs.length = 8192) :
    d.domainWrite id 0x2A01 sub bs = { d with answer := cOk, mesh := { d.mesh with routeNext := tableOf bs 4096 2 7 } } := by
  simp [Dev.domainWrite, hlen, Dev.answers]

/-- The device after a session has written the next bank of the routing table. -/
def Dev.routed (d : Dev) (id sub : Nat) (bs : List Byte) : Dev :=
  { d with answer := cOk, mesh := { d.mesh with routeNext := tableOf bs 4096 2 7 } }.overtake id 0x2A01 sub

section
variable {d e : Dev} {id sub : Nat} {bs : List Byte} {w : Session}

theorem onlySessions.routed (h : onlySessions d e) : onlySessions d (e.routed id sub bs) :=
  onlySessions.overtake (h.trans ⟨_, _, _, _, .refl _⟩) id 0x2A01 sub

theorem Dev.session?_routed (hw : d.session? id = some w) : (d.routed id sub bs).session? id = some w :=
  Dev.session?_overtake (d := { d with answer := cOk, mesh := { d.mesh with routeNext := tableOf bs 4096 2 7 } }) _ _ hw

theorem Dev.routed_does : (d.routed id sub bs).mesh = { d.mesh with routeNext := tableOf bs 4096 2 7 } ∧ (d.routed id sub bs).answer = cOk := by
  unfold Dev.routed Dev.overtake
  split <;> exact ⟨rfl, rfl⟩

end

/-! ### SEG_WRITE (R514) -/

section
variable {d : Dev} {id role : Nat} {r : OpRec} {o : ObjDef} {w : Session} {data got : List Byte}
  (ho : findObj r.index r.sub = some o) (hrole : o.role ≤ role) (htakes : o.takesDomain = true) (hdata : data.length = r.length)
  (hlen : r.length ≤ 1024) (hfits : r.arg + r.length ≤ o.len) (harg : r.arg = got.length) (hw : d.session? id = some w)
  (hseg : (w.seg = none ∧ got = []) ∨ w.seg = some ⟨r.index, r.sub, got⟩)
include ho hrole htakes hdata hlen hfits harg hw hseg

/-- A part of a value that fits behind the parts before it is taken. -/
theorem Dev.segWriteOp_takes : d.segWriteOp id role r data =
    if r.last then ended ((d.updSession id fun x => { x with seg := none }).domainIn id o r (got ++ data))
    else ended (d.updSession id fun x => { x with seg := some ⟨r.index, r.sub, got ++ data⟩ }) := by
  have hbuf : (w.seg.map (·.data)).getD [] = got ∧ (w.seg.any fun b => !(b.index = r.index && b.sub = r.sub)) = false := by
    obtain ⟨hnone, rfl⟩ | hsome := hseg
    · simp [hnone]
    · simp [hsome]
  obtain ⟨hgot, hother⟩ := hbuf
  have hpasses : firstFail [(decide (1024 < data.length) || r.length != data.length, cBadArgument),
      (decide (o.len < r.arg + data.length), cBounds), (false || r.arg != got.length, cBadArgument)] = none := by
    simp [firstFail, hdata, Nat.not_lt.2 hlen, Nat.not_lt.2 hfits, harg.symm]
  simp only [Dev.segWriteOp, Dev.opCheck_ok ho hrole htakes, hw, Option.bind_some, hgot, hother, hpasses]

theorem Dev.segWriteOp_routes (hlast : r.last = true) (hnow : r.stage = false) (hindex : r.index = 0x2A01)
    (hwhole : (got ++ data).length = 8192) : d.segWriteOp id role r data =
      ended ((d.updSession id fun x => { x with seg := none }).routed id r.sub (got ++ data)) := by
  rw [Dev.segWriteOp_takes ho hrole htakes hdata hlen hfits harg hw hseg, if_pos hlast]
  unfold Dev.domainIn Dev.writeOrStage Dev.applyWrite
  simp only [hnow, hindex, Dev.domainWrite_routes hwhole]
  rfl

end

/-! ### The end of a DOMAIN_RDMA (R365, R516) -/

section
variable {d e : Dev} {id n i sub req : Nat} {w : Session} {data : List Byte} {inward : Bool}

theorem keepsName_selects (sel : NMap Nat) : keepsName fun x => { x with selects := sel } := fun _ => ⟨rfl, rfl⟩

/-- The session after its transfer of an object has ended. -/
def Session.rdmaOver (i sub : Nat) (x : Session) : Session := { x with rdma := none, snaps := x.snaps.filter fun n => !(n.index = i && n.sub = sub) }

/-- The bytes that a transfer has moved. -/
def Session.moved (x : Session) (inward : Bool) (i sub : Nat) (data : List Byte) : List Byte :=
  if inward then data else ((x.snaps.find? fun n => n.index = i && n.sub = sub).map (·.data)).getD []

/-- A transfer's end applies what came from the host, and its response carries the CRC-64 of the bytes moved. -/
theorem Dev.rdmaDone_ends (hw : d.session? id = some w) (hrdma : w.rdma = some (n, inward, i, sub, req)) (hfw : e.pow.mgmt = 2)
    (he : e = if inward then (((d.underSelects w.selects).updSession id (Session.rdmaOver i sub)).domainWrite id i sub (w.moved inward i sub data)).overtake id i sub
      else (d.underSelects w.selects).updSession id (Session.rdmaOver i sub)) :
    d.rdmaDone id data = (d.servedBy e id fun x => { x with selects := selectsOf e.objs }).answering id req 0
      (natLe (crc64 (w.moved inward i sub data)) 8) := by
  have hrun : (if inward then ended ((((d.underSelects w.selects).updSession id (Session.rdmaOver i sub)).domainWrite id i sub
      (w.moved inward i sub data)).overtake id i sub) else ended ((d.underSelects w.selects).updSession id (Session.rdmaOver i sub))) = (e, some (0, [])) := by
    rw [he]
    cases inward <;> rfl
  have hselects := Dev.selecting_running (d := d.updSession id (Session.rdmaOver i sub)) (sel := w.selects)
    (f := fun d => if inward then ended ((d.domainWrite id i sub (w.moved inward i sub data)).overtake id i sub) else ended d) hrun hfw
  unfold Dev.rdmaDone
  simp only [hw, hrdma]
  refine (congrArg (fun p : Dev × NMap Nat × DopAns => (p.1.updSession id fun s => { s with selects := p.2.1 }).respond id req
    (some (0, natLe (crc64 (w.moved inward i sub data)) 8))) hselects).trans ?_
  rfl

end

section
variable {s : State} {id n sub req : Nat} {w : Session} (hs : clocked s) (hw : s.dev.session? id = some w) (hfw : s.dev.pow.mgmt = 2)
include hs hw hfw

theorem domainRdmaComplete_answers {i : Nat} {bs : List Byte} (data : List Byte) (hrdma : w.rdma = some (n, false, i, sub, req))
    (hsnap : (w.snaps.find? fun x => x.index = i && x.sub = sub) = some ⟨i, sub, bs⟩) :
    ∃ t w', exec (.domainRdmaComplete id data) s = .next t ∧ answered s t id req cOk 0 (natLe (crc64 bs) 8) w' ∧ w'.rdma = none ∧ sameObjs s t := by
  have hmoved : w.moved false i sub data = bs := by simp [Session.moved, hsnap]
  have honly : onlySessions (s.dev.asSeenBy w) ((s.dev.asSeenBy w).updSession id (Session.rdmaOver i sub)) := onlySessions.rfl.updSession id _
  have hover : ((s.dev.asSeenBy w).updSession id (Session.rdmaOver i sub)).session? id = some (Session.rdmaOver i sub w) :=
    Dev.session?_updSession (fun _ => ⟨rfl, rfl⟩) hw
  have hends := Dev.rdmaDone_ends (d := s.dev.cleared) (e := (s.dev.asSeenBy w).updSession id (Session.rdmaOver i sub)) (data := data)
    hw hrdma hfw (if_neg Bool.false_ne_true).symm
  rw [hmoved] at hends
  obtain ⟨t, ht, hans, hobjs, -⟩ := answered_of_gives honly (keepsName_selects _) hover
    (gives_of_onDev hs (exec_domainRdmaComplete id data s) hends)
  exact ⟨t, _, ht, hans, rfl, hobjs⟩

theorem domainRdmaComplete_routes {data : List Byte} (hrdma : w.rdma = some (n, true, 0x2A01, sub, req)) (hlen : data.length = 8192) :
    ∃ t w', exec (.domainRdmaComplete id data) s = .next t ∧ answered s t id req cOk 0 (natLe (crc64 data) 8) w' ∧ w'.rdma = none
      ∧ t.dev.mesh = { s.dev.mesh with routeNext := tableOf data 4096 2 7 } ∧ sameObjs s t := by
  have honly : onlySessions (s.dev.asSeenBy w) (((s.dev.asSeenBy w).updSession id (Session.rdmaOver 0x2A01 sub)).routed id sub data) :=
    (onlySessions.rfl.updSession id _).routed
  have hover : (((s.dev.asSeenBy w).updSession id (Session.rdmaOver 0x2A01 sub)).routed id sub data).session? id =
      some (Session.rdmaOver 0x2A01 sub w) := Dev.session?_routed (Dev.session?_updSession (fun _ => ⟨rfl, rfl⟩) hw)
  have hrun : (((s.dev.asSeenBy w).updSession id (Session.rdmaOver 0x2A01 sub)).routed id sub data).pow.mgmt = 2 := by
    obtain ⟨_, _, _, _, h⟩ := honly
    rw [h]
    exact hfw
  have hmoved : w.moved true 0x2A01 sub data = data := rfl
  have hends := Dev.rdmaDone_ends (d := s.dev.cleared) (data := data) hw hrdma hrun (by
    rw [if_pos rfl, hmoved, Dev.domainWrite_routes hlen]
    exact .refl _)
  rw [hmoved] at hends
  obtain ⟨hmesh, hanswer⟩ := Dev.routed_does (d := (s.dev.asSeenBy w).updSession id (Session.rdmaOver 0x2A01 sub)) (id := id) (sub := sub) (bs := data)
  obtain ⟨t, ht, hans, hobjs, hroute⟩ := answered_of_gives honly (keepsName_selects _) hover
    (gives_of_onDev hs (exec_domainRdmaComplete id data s) hends)
  rw [hanswer] at hans
  exact ⟨t, _, ht, hans, rfl, hroute.trans hmesh, hobjs⟩

end

/-! ### Notifications (R517) -/

theorem Dev.subscribeOp_adds {d : Dev} {id : Nat} {r : OpRec} {w : Session} (hadd : r.cancel = false) (hrange : r.index ≤ r.arg % 65536)
    (hw : d.session? id = some w) (hroom : w.subs.length < 16) : d.subscribeOp id r = ended (d.updSession id fun x => { x with
      subs := if x.subs.contains (r.index, r.arg % 65536) then x.subs else x.subs ++ [(r.index, r.arg % 65536)] }) := by
  simp [Dev.subscribeOp, hadd, hw, Nat.not_lt.2 hrange, Nat.not_le.2 hroom]

theorem Dev.subscribeOp_cancels {d : Dev} {id : Nat} {r : OpRec} (hcancel : r.cancel = true) : d.subscribeOp id r =
    ended (d.updSession id fun x => { x with subs := x.subs.filter (· != (r.index, r.arg % 65536)) }) := by
  simp [Dev.subscribeOp, hcancel]

/-- A session that has sent a record once more. -/
def Session.resends (seq : Nat) (x : Session) : Session :=
  { x with notes := x.notes.map fun m => if m.seq = seq then { m with sent := m.sent + 1 } else m }

/-- A session that gives a record up. -/
def Session.dropsNote (seq : Nat) (x : Session) : Session := { x with notes := x.notes.filter fun m => m.seq != seq }

section
variable {d : Dev} {id : Nat} {w : Session} {n : Note} (hw : d.session? id = some w) (hn : (w.notes.find? fun m => m.seq = n.seq) = some n)
include hw hn

theorem Dev.notifyAgain_sends (hfew : n.sent < 5) : d.notifyAgain id n.seq =
    (d.updSession id (Session.resends n.seq)).emit (.notify id { n with sent := n.sent + 1 }) := by
  simp only [Dev.notifyAgain, hw, Option.bind_some, hn, Nat.not_le.2 hfew, if_false]
  rfl

theorem Dev.notifyAgain_drops (hmany : 5 ≤ n.sent) : d.notifyAgain id n.seq =
    (d.updSession id (Session.dropsNote n.seq)).bump 0x1100 9 1 := by
  simp only [Dev.notifyAgain, hw, Option.bind_some, hn, hmany, if_true]
  rfl

end

theorem Dev.session?_txPaused (d : Dev) (id : Nat) : d.txPaused.session? id = d.session? id := rfl

theorem Dev.session?_emit (d : Dev) (o : Out) (id : Nat) : (d.emit o).session? id = d.session? id := rfl

theorem SameNotes.updSession {d e : Dev} {id : Nat} {f : Session → Session} (h : SameNotes d e) : SameNotes d (e.updSession id f) :=
  ⟨h.objs, h.disciplined, h.replace, h.nextSeq⟩

/-- A change of one session is closed with nothing to report. -/
theorem State.closing_updSession (s : State) (id : Nat) (f : Session → Session) :
    (s.closing (s.dev.cleared.updSession id f)).dev = (s.dev.cleared.updSession id f).txPaused := by
  rw [State.closing_same (d := s.dev.cleared.updSession id f) rfl SameNotes.cleared.updSession]

section
variable {s : State} {id : Nat} {w : Session} (hs : clocked s) (hw : s.dev.session? id = some w)
include hs hw

theorem segTransferTimeout_discards (snap : Option (Nat × Nat)) : ∃ t, exec (.segTransferTimeout id snap) s = .next t
    ∧ t.dev.session? id = some (match snap with
      | none => { w with seg := none }
      | some p => { w with snaps := w.snaps.filter fun n => !(n.index = p.1 && n.sub = p.2) }) := by
  refine ⟨_, gives_of_onDev hs (exec_segTransferTimeout id snap s) rfl, ?_⟩
  rw [State.closing_updSession]
  exact Dev.session?_updSession (d := s.dev.cleared) (fun _ => by cases snap <;> exact ⟨rfl, rfl⟩) hw

theorem notifyResendTimer_resends {n : Note} (hn : (w.notes.find? fun m => m.seq = n.seq) = some n) (hfew : n.sent < 5) :
    ∃ t w', exec (.notifyResendTimer id n.seq) s = .next t
      ∧ Out.notify id { n with sent := n.sent + 1 } ∈ t.dev.out ++ t.dev.txHeld.map Prod.snd ∧ t.dev.session? id = some w'
      ∧ w'.notes = w.notes.map (fun m => if m.seq = n.seq then { m with sent := m.sent + 1 } else m) := by
  have hgives := gives_of_onDev hs (exec_notifyResendTimer id n.seq s) (Dev.notifyAgain_sends (d := s.dev.cleared) hw hn hfew)
  have hsent : Out.notify id { n with sent := n.sent + 1 }
      ∈ ((s.dev.cleared.updSession id (Session.resends n.seq)).emit (.notify id { n with sent := n.sent + 1 })).out :=
    List.mem_append_right _ (List.mem_singleton.2 rfl)
  have hctxs : ((s.dev.cleared.updSession id (Session.resends n.seq)).emit (.notify id { n with sent := n.sent + 1 })).ctxs = s.dev.ctxs := rfl
  have hsession : (s.closing ((s.dev.cleared.updSession id (Session.resends n.seq)).emit (.notify id { n with sent := n.sent + 1 }))).dev.session? id
      = some (Session.resends n.seq w) := by
    rw [State.closing_same hctxs (SameNotes.cleared.updSession.emit _), Dev.session?_txPaused, Dev.session?_emit]
    exact Dev.session?_updSession (d := s.dev.cleared) (fun _ => ⟨rfl, rfl⟩) hw
  have hcarries := State.closing_carries (s := s) hsent
  exact ⟨_, Session.resends n.seq w, hgives, hcarries, hsession, rfl⟩

theorem notifyResendTimer_drops {n : Note} (hn : (w.notes.find? fun m => m.seq = n.seq) = some n) (hmany : 5 ≤ n.sent) :
    ∃ t w', exec (.notifyResendTimer id n.seq) s = .next t ∧ t.dev.session? id = some w'
      ∧ w'.notes = w.notes.filter (fun m => m.seq != n.seq) ∧ t.dev.objD 0x1100 9 0 = s.dev.objD 0x1100 9 0 + 1 := by
  have hgives := gives_of_onDev hs (exec_notifyResendTimer id n.seq s) (Dev.notifyAgain_drops (d := s.dev.cleared) hw hn hmany)
  refine ⟨_, Session.dropsNote n.seq w, hgives, ?_, rfl, ?_⟩
  · rw [State.closing_same (by rw [Dev.bump_frame]; rfl) (SameNotes.cleared.updSession.trans (SameNotes.bump 1 (by decide))), Dev.bump_frame]
    exact Dev.session?_updSession (d := s.dev.cleared) (fun _ => ⟨rfl, rfl⟩) hw
  · rw [State.closing_objD]
    exact Dev.objD_bump ..

end

/-! ### The statement -/

section
variable {s : State} {i : Instr} {id arg : Nat} {w : Session} {r : OpRec} {anon : Bool} {f : Nat → Nat → Dev → Dev × DopAns} {g : Session → Session}
  {data : List Byte} (hs : clocked s) (hasks : s.dev.asks id w r) (hi : exec i s = s.onDev fun d => d.operate (some id) r anon f)
include hs hasks hi

/-- An operation that changes its session alone is answered with OK. -/
theorem operation_changes (hf : f id w.role (s.dev.asSeenBy w) = ((s.dev.asSeenBy w).updSession id g, some (arg, data))) (hg : keepsName g) :
    ∃ t sel, exec i s = .next t
      ∧ answered s t id r.reqId cOk arg data (((g w).using sel s.dev.time).remember ⟨r.reqId, cOk, arg, data⟩) ∧ sameObjs s t := by
  obtain ⟨t, ht, hans, hobjs, -⟩ := operation_answers hs hasks hi (onlySessions.rfl.updSession id g)
    (Dev.session?_updSession (d := s.dev.asSeenBy w) hg hasks.2.1) hf
  exact ⟨t, _, ht, hans, hobjs⟩

end

/-- Settles O54: each operation by what it makes of its session, then its response or its wait by the layer of operations. -/
theorem domainTransfers : Obligations.DomainTransfers := by
  intro s id w r hs hw
  have hseen : (s.dev.asSeenBy w).session? id = some w := hw
  refine ⟨fun o hasks ho hrole hdomain haccess h1 h2 h3 => ⟨fun harg hlen => ?_, fun n harg hlen hsnap => ?_,
      fun data hdata hres hout hfree hready hfits => ?_⟩,
    fun o data got hasks ho hrole htakes hdata hlen hfits harg hseg => ⟨fun hlast => ?_, fun hlast hnow hindex hwhole => ?_⟩,
    fun n sub req hfw => ⟨fun i bs data => domainRdmaComplete_answers hs hw hfw data, fun data => domainRdmaComplete_routes hs hw hfw⟩,
    ?_, fun p => ?_, fun hasks hadd hrange hroom => ?_, fun hasks hcancel => ?_, fun hasks => ?_,
    fun n hn => ⟨notifyResendTimer_resends hs hw hn, notifyResendTimer_drops hs hw hn⟩⟩
  · obtain ⟨t, sel, ht, hans, hobjs⟩ := operation_changes hs hasks (exec_segRead _ r s)
      (Dev.segReadOp_begins ho hrole hdomain haccess hlen ⟨h1, h2, h3⟩ harg) fun _ => ⟨rfl, rfl⟩
    refine ⟨t, _, ht, hans, hobjs, fun hmore => List.mem_append_right _ ?_⟩
    rw [keptSnap, if_pos hmore]
    exact List.mem_singleton.2 rfl
  · obtain ⟨t, sel, ht, hans, hobjs⟩ := operation_changes hs hasks (exec_segRead _ r s)
      (Dev.segReadOp_goesOn ho hrole hdomain haccess hlen harg hseen hsnap) fun _ => ⟨rfl, rfl⟩
    exact ⟨t, _, ht, hans, hobjs⟩
  · have hreads := Dev.rdmaOp_reads ho hrole hdomain haccess ⟨h1, h2, h3⟩ hdata hres hout hseen hfree hready hfits
    obtain ⟨t, ht, hsess, hobjs, hsent⟩ := operation_waits hs hasks (exec_domainRdma _ r data s) ((onlySessions.rfl.updSession id _).emit _)
      (Dev.session?_updSession (d := s.dev.asSeenBy w) (f := Session.rdmaUnder _ _) (fun _ => ⟨rfl, rfl⟩) hw) hreads
    exact ⟨t, _, ht, hsess, rfl, hobjs, hsent _ (List.mem_append_right _ (List.mem_singleton.2 rfl))⟩
  · obtain ⟨t, sel, ht, hans, hobjs⟩ := operation_changes hs hasks (exec_segWrite _ r data s)
      ((Dev.segWriteOp_takes ho hrole htakes hdata hlen hfits harg hseen hseg).trans (if_neg (Bool.eq_false_iff.mp hlast))) fun _ => ⟨rfl, rfl⟩
    exact ⟨t, _, ht, hans, rfl, hobjs⟩
  · have hroutes := Dev.segWriteOp_routes ho hrole htakes hdata hlen hfits harg hseen hseg hlast hnow hindex hwhole
    obtain ⟨hmesh, hanswer⟩ := Dev.routed_does (d := (s.dev.asSeenBy w).updSession id fun x => { x with seg := none })
      (id := id) (sub := r.sub) (bs := got ++ data)
    obtain ⟨t, ht, hans, hobjs, hroute⟩ := operation_answers hs hasks (exec_segWrite _ r data s) (onlySessions.rfl.updSession id _).routed
      (Dev.session?_routed (Dev.session?_updSession (d := s.dev.asSeenBy w) (f := fun x => { x with seg := none }) (fun _ => ⟨rfl, rfl⟩) hw))
      hroutes
    rw [hanswer] at hans
    exact ⟨t, _, ht, hans, rfl, hroute.trans hmesh, hobjs⟩
  · obtain ⟨t, ht, hsess⟩ := segTransferTimeout_discards hs hw none
    exact ⟨t, _, ht, hsess, rfl, rfl⟩
  · obtain ⟨t, ht, hsess⟩ := segTransferTimeout_discards hs hw (some p)
    refine ⟨t, _, ht, hsess, rfl, fun n => ?_⟩
    show n ∈ w.snaps.filter (fun n => !(n.index = p.1 && n.sub = p.2)) ↔ _
    simp only [List.mem_filter, Bool.not_eq_true', Bool.and_eq_false_iff, decide_eq_false_iff_not, not_and_or]
  · obtain ⟨t, sel, ht, hans, hobjs⟩ := operation_changes hs hasks (exec_subscribe _ r s)
      (Dev.subscribeOp_adds hadd hrange hseen hroom) fun _ => ⟨rfl, rfl⟩
    refine ⟨t, _, ht, hans, hobjs, fun q => ?_⟩
    show q ∈ (if w.subs.contains (r.index, r.arg % 65536) then w.subs else w.subs ++ [(r.index, r.arg % 65536)]) ↔ _
    split
    · next hin => exact ⟨.inl, fun h => h.elim (fun hq => hq) fun hq => by rw [hq]; simpa using hin⟩
    · simp
  · obtain ⟨t, sel, ht, hans, hobjs⟩ := operation_changes hs hasks (exec_subscribe _ r s) (Dev.subscribeOp_cancels hcancel) fun _ => ⟨rfl, rfl⟩
    refine ⟨t, _, ht, hans, hobjs, fun q => ?_⟩
    show q ∈ w.subs.filter _ ↔ _
    simp
  · obtain ⟨t, sel, ht, hans, hobjs⟩ := operation_changes hs hasks (exec_ack _ r s) rfl fun _ => ⟨rfl, rfl⟩
    exact ⟨t, _, ht, hans, hobjs, rfl⟩

end Sys2Proof.Machine
end

section
/-! O52: the object dictionary (R491, R495, R499, R507, R509, R512, R521). -/

namespace Sys2Proof.Machine

theorem exec_registerWrite (i k v : Nat) (s : State) : exec (.registerWrite i k v) s = s.onDev fun d => d.registerWrite i k v := rfl

theorem exec_dictSave (s : State) : exec .dictSave s = s.onDev Dev.dictSave := rfl

theorem exec_cfgRackFlip (s : State) : exec .cfgRackFlip s = s.onDev Dev.rackFlip := rfl

theorem exec_dopKeysWrite (sub : Nat) (bs : List Byte) (s : State) : exec (.dopKeysWrite sub bs) s = s.onDev fun d => d.keyWrite sub bs := rfl

/-! ### Writes (R495 to R499, R507) -/

theorem Dev.registerWrite_unknown {d : Dev} {i k : Nat} (v : Nat) (h : findObj i k = none) :
    d.registerWrite i k v = d.reply (if 0x8000 ≤ i ∧ i < 0xF000 then cReservedNonzero else cBadArgument) := by
  simp [Dev.registerWrite, h]

section
variable {d : Dev} {o : ObjDef} {i k v : Nat}

/-- A write of a value that its object can hold reaches the checks of its value. -/
theorem Dev.registerWrite_fits (ho : findObj i k = some o) (haccess : o.access = 2) (hdomain : o.isDomain = false) (hfits : v < 256 ^ o.len)
    (hbool : o.type = 1 → v ≤ 1) : d.registerWrite i k v = d.writeObj 0 o i k v false := by
  have hbool' : (decide (o.type = 1) && decide (1 < v)) = false := by
    simpa using hbool
  simp [Dev.registerWrite, ho, firstFail, haccess, hdomain, Nat.not_le.2 hfits, hbool']

theorem Dev.writeObj_outside {session : Nat} {quiesce : Bool} (h : d.valueOk o k v = false) :
    d.writeObj session o i k v quiesce = (d.answers cOk).reply (rangeCode o.index k) := if_pos (by rw [show (d.answers cOk).valueOk o k v = false from h]; rfl)

/-- An object of a listed index is set under its own key. -/
theorem Dev.plainWrite_listed (happly : o.apply = 1) (hlisted : listedIndex o.index) :
    d.plainWrite o i k v = { d with objs := nmSet d.objs (okey i k) v } := by
  have hkey : o.key i k = okey i k := by simp [ObjDef.key, happly]
  unfold Dev.plainWrite
  obtain h | h | h | h | h := hlisted <;> simp only [h, hkey]

section
variable {session : Nat} {quiesce : Bool} (htakes : d.takes o i k v)
include htakes

theorem Dev.writeObj_listed (happly : o.apply = 1) (hlisted : listedIndex o.index) :
    d.writeObj session o i k v quiesce = { d with answer := cOk, objs := nmSet d.objs (okey i k) v } := by
  obtain ⟨-, haccess, -, -, -, hvalue⟩ := htakes
  have hvalue' : (d.answers cOk).valueOk o k v = true := hvalue
  have hindex : o.index ≠ 0x2B00 := by
    intro h
    rw [h] at hlisted
    exact absurd hlisted (by unfold listedIndex; decide)
  have hsets : (d.answers cOk).plainWrite o i k v = { d with answer := cOk, objs := nmSet d.objs (okey i k) v } := Dev.plainWrite_listed happly hlisted
  simp [Dev.writeObj, hvalue', hindex, haccess, happly, hsets]

theorem Dev.writeObj_reset (happly : o.apply = 5) (hindex : o.index ≠ 0x2B00) :
    d.writeObj session o i k v quiesce = (d.answers cOk).resetWrite i k v := by
  obtain ⟨-, haccess, -, -, -, hvalue⟩ := htakes
  have hvalue' : (d.answers cOk).valueOk o k v = true := hvalue
  simp [Dev.writeObj, hvalue', hindex, haccess, happly]

end

theorem registerWrite_sets {s : State} (hs : clocked s) (htakes : s.dev.takes o i k v) (happly : o.apply = 1) (hlisted : listedIndex o.index) :
    gives (.registerWrite i k v) s { s.dev.cleared with objs := nmSet s.dev.objs (okey i k) v } := by
  obtain ⟨ho, haccess, hdomain, hfits, hbool, -⟩ := id htakes
  exact gives_of_onDev hs (exec_registerWrite i k v s)
    ((Dev.registerWrite_fits ho haccess hdomain hfits hbool).trans (Dev.writeObj_listed (d := s.dev.cleared) htakes happly hlisted))

/-- What a write to an object of Reset class leaves: it waits in the store for the next start (R499). -/
def Sec.awaits (c : Sec) (i k v : Nat) : Sec :=
  { c with store := { c.store with resets := nmSet c.store.resets (okey i k) v, saved := nmSet c.verifiedSet (okey i k) v, savedKey := c.configSeed } }

theorem Dev.resetWrite_keeps (hlc : d.sec.fuses.lc ≠ 4) : d.resetWrite i k v = { d with sec := d.sec.awaits i k v, answer := cPending } := if_neg hlc

theorem registerWrite_awaits {s : State} (hs : clocked s) (htakes : s.dev.takes o i k v) (happly : o.apply = 5) (hindex : o.index ≠ 0x2B00)
    (hlc : s.dev.sec.fuses.lc ≠ 4) : ∃ t, exec (.registerWrite i k v) s = .next t
      ∧ t.dev.answer = cPending ∧ nmGet t.nv.store.resets (okey i k) = some v ∧ nmGet t.nv.store.saved (okey i k) = some v
      ∧ t.dev.objs = s.dev.objs ∧ t.nv.fuses = s.dev.sec.fuses ∧ ∀ e, t.dev.core e = s.dev.core e := by
  obtain ⟨ho, haccess, hdomain, hfits, hbool, -⟩ := id htakes
  have hwrites : s.dev.cleared.registerWrite i k v = { s.dev.cleared with sec := s.dev.sec.awaits i k v, answer := cPending } :=
    (Dev.registerWrite_fits ho haccess hdomain hfits hbool).trans
      ((Dev.writeObj_reset (d := s.dev.cleared) htakes happly hindex).trans (Dev.resetWrite_keeps (d := s.dev.cleared.answers cOk) hlc))
  refine ⟨_, gives_of_onDev hs (exec_registerWrite i k v s) hwrites, ?_⟩
  rw [State.closing_answer, State.closing_objs, State.closing_nv]
  exact ⟨rfl, nmGet_nmSet_same .., nmGet_nmSet_same .., rfl, rfl, fun e => State.closing_core ..⟩

end

/-! ### dict.save (R499) -/

/-- A map filled from a list of items with the values that a condition leaves holds each item's value under its key. -/
theorem nmGet_foldl_unless {α : Type} [DecidableEq α] {key : α → Nat} {val : α → Nat} {skip : α → Prop} [DecidablePred skip] {p : α} (l : List α) (m : NMap Nat)
    (hinj : ∀ q ∈ l, key q = key p → q = p) : nmGet (l.foldl (fun m q => if skip q then m else nmSet m (key q) (val q)) m) (key p)
      = if p ∈ l ∧ ¬skip p then some (val p) else nmGet m (key p) := by
  induction l generalizing m with
  | nil => simp
  | cons q l ih =>
    rw [List.foldl_cons, ih _ fun x hx => hinj x (List.mem_cons_of_mem _ hx)]
    by_cases hp : q = p
    · subst hp
      by_cases hskip : skip q <;> simp [hskip]
    · have hkey : key p ≠ key q := fun h => hp (hinj q List.mem_cons_self h.symm)
      have hpq : p ≠ q := fun h => hp h.symm
      by_cases hskip : skip q <;> simp [hskip, hpq, nmGet_nmSet_other _ _ _ _ hkey]

theorem objTable_subs : ∀ o ∈ objTable, o.hi < 256 := by decide +kernel

theorem savedObjs_sub {p : Nat × Nat} (hp : p ∈ savedObjs) : p.2 < 256 := by
  obtain ⟨o, ho, hp⟩ := List.mem_flatMap.1 hp
  obtain ⟨i, -, hp⟩ := List.mem_flatMap.1 hp
  obtain ⟨k, hk, rfl⟩ := List.mem_map.1 hp
  have hhi := objTable_subs o (List.mem_of_mem_filter ho)
  have hlo : k < o.hi + 1 - o.lo := List.mem_range.1 hk
  show o.lo + k < 256
  omega

theorem savedObjs_okey {p q : Nat × Nat} (hp : p ∈ savedObjs) (hq : q ∈ savedObjs) (h : okey p.1 p.2 = okey q.1 q.2) : p = q := by
  have hp2 := savedObjs_sub hp
  have hq2 := savedObjs_sub hq
  unfold okey at h
  exact Prod.ext (by omega) (by omega)

/-- The values that differ from their defaults. -/
def Dev.savedSet (d : Dev) : NMap Nat := savedObjs.foldl (fun (m : NMap Nat) p =>
  if d.saveValue p.1 p.2 = (clearDev d.keep d.sec.fuses d.sec.store).saveValue p.1 p.2 then m
  else nmSet m (okey p.1 p.2) (d.saveValue p.1 p.2)) []

theorem Dev.nmGet_savedSet (d : Dev) {p : Nat × Nat} (hp : p ∈ savedObjs) : nmGet d.savedSet (okey p.1 p.2) =
    if d.saveValue p.1 p.2 = (clearDev d.keep d.sec.fuses d.sec.store).saveValue p.1 p.2 then none else some (d.saveValue p.1 p.2) := by
  have hinj : ∀ q ∈ savedObjs, okey q.1 q.2 = okey p.1 p.2 → q = p := fun q hq h => savedObjs_okey hq hp h
  have hfold := nmGet_foldl_unless (p := p) (key := fun p => okey p.1 p.2) (val := fun p => d.saveValue p.1 p.2)
    (skip := fun p => d.saveValue p.1 p.2 = (clearDev d.keep d.sec.fuses d.sec.store).saveValue p.1 p.2) savedObjs []
  rw [Dev.savedSet, hfold hinj]
  by_cases hsame : d.saveValue p.1 p.2 = (clearDev d.keep d.sec.fuses d.sec.store).saveValue p.1 p.2
  · rw [if_pos hsame, if_neg fun h => h.2 hsame]
    rfl
  · rw [if_neg hsame, if_pos ⟨hp, hsame⟩]

/-- The security state after dict.save. -/
def Dev.savedSec (d : Dev) : Sec :=
  { d.sec with store := { d.sec.store with saved := d.savedSet, savedKey := d.sec.configSeed, savedTime := d.time } }

theorem Dev.dictSave_saves {d : Dev} (hlc : d.sec.fuses.lc ≠ 4) :
    d.dictSave = { d with sec := d.savedSec }.opDone (okey 0x1002 1) cOk := by
  unfold Dev.dictSave
  rw [if_neg hlc]
  simp only [Dev.savedSec, Dev.savedSet, Dev.updSec]

theorem dictSave_stores {s : State} (hs : clocked s) (hlc : s.dev.sec.fuses.lc ≠ 4) : ∃ t, exec .dictSave s = .next t
    ∧ t.nv.store.savedTime = s.dev.time ∧ t.nv.store.savedKey = s.dev.sec.configSeed
    ∧ (∀ p ∈ savedObjs, nmGet t.nv.store.saved (okey p.1 p.2)
        = if s.dev.cleared.saveValue p.1 p.2 = (clearDev s.dev.keep s.dev.sec.fuses s.dev.sec.store).saveValue p.1 p.2 then none
          else some (s.dev.cleared.saveValue p.1 p.2))
    ∧ t.nv.store.resets = s.dev.sec.store.resets ∧ t.dev.objs = s.dev.objs ∧ ∀ e, t.dev.core e = s.dev.core e := by
  refine ⟨_, gives_of_onDev hs (exec_dictSave s) (Dev.dictSave_saves (d := s.dev.cleared) hlc), ?_⟩
  have hnv : (s.closing ({ s.dev.cleared with sec := s.dev.cleared.savedSec }.opDone (okey 0x1002 1) cOk)).nv.store = s.dev.cleared.savedSec.store := by
    rw [State.closing_nv]
    rfl
  have hsaved : s.dev.cleared.savedSec.store.saved = s.dev.cleared.savedSet := by rw [Dev.savedSec]
  have hresets : s.dev.cleared.savedSec.store.resets = s.dev.sec.store.resets := by rw [Dev.savedSec, Dev.cleared]
  have hvalues := fun p (hp : p ∈ savedObjs) => s.dev.cleared.nmGet_savedSet hp
  rw [State.closing_objs, hnv, hsaved, hresets]
  exact ⟨rfl, rfl, hvalues, rfl, rfl, fun e => State.closing_core ..⟩

/-! ### The rack configuration (R521) -/

theorem Dev.rackFlip_swaps (d : Dev) : d.rackFlip.objD 0x1001 1 0 = d.objD 0x1001 2 0 ∧ d.rackFlip.objD 0x1001 2 0 = d.objD 0x1001 1 0
    ∧ d.rackFlip.cores = d.cores := by
  have hidents : onlyLinks ((d.setObj 0x1001 1 (d.objD 0x1001 2 0)).setObj 0x1001 2 (d.objD 0x1001 1 0)) d.rackFlip := by
    refine onlyLinks.foldl (fun e n => ?_) _ _
    split
    · exact Dev.linkSend_frame ..
    · exact .rfl
  obtain ⟨_, _, h⟩ := hidents
  rw [h]
  refine ⟨?_, (Dev.objD_setObj ..).trans (if_pos rfl), rfl⟩
  exact (Dev.objD_setObj ..).trans ((if_neg (by decide)).trans ((Dev.objD_setObj ..).trans (if_pos rfl)))

/-! ### Client keys (R509, R512) -/

/-- The device after a client key has been entered or removed: a change closes the sessions opened with it. -/
def Dev.rekeyed (d : Dev) (n : Nat) (keys : NMap (List Byte)) : Dev :=
  { d with dop := { d.dop with
    keys := keys
    sessions := if nmGet d.dop.keys n = nmGet keys n then d.dop.sessions else d.dop.sessions.filter fun x => x.key != n } }

section
variable {d : Dev} {sub : Nat} (hlow : 0 < sub) (hhigh : sub ≤ 16)
include hlow hhigh

theorem Dev.keyWrite_passes {bs : List Byte} (hlen : bs.length = 0 ∨ bs.length = 2600) (hrole : (bs.headD 0#8).toNat < 3)
    (hzero : leNat ((bs.take 8).drop 1) = 0) :
    d.keyWrite sub bs = d.rekeyed (sub - 1) (if bs.isEmpty then nmErase d.dop.keys (sub - 1) else nmSet d.dop.keys (sub - 1) bs) := by
  have hlen' : (!bs.isEmpty && bs.length != 2600) = false := by
    obtain h | h := hlen
    · simp [List.eq_nil_of_length_eq_zero h]
    · simp [h]
  unfold Dev.keyWrite
  simp only [firstFail, Nat.ne_of_gt hlow, Nat.not_lt.2 hhigh, hlen', Nat.ne_of_lt hrole, Nat.not_lt.2 (Nat.le_of_lt hrole), hzero]
  generalize (if bs.isEmpty = true then nmErase d.dop.keys (sub - 1) else nmSet d.dop.keys (sub - 1) bs) = keys
  by_cases hsame : nmGet d.dop.keys (sub - 1) = nmGet keys (sub - 1)
  · simp [Dev.rekeyed, hsame]
  · simp only [Dev.rekeyed, hsame, Dev.closeSessions]
    rfl

end

/-- A change of client keys is closed with nothing to report. -/
theorem State.closing_rekeyed (s : State) (n : Nat) (keys : NMap (List Byte)) :
    (s.closing (s.dev.cleared.rekeyed n keys)).dev = (s.dev.cleared.rekeyed n keys).txPaused := by
  rw [State.closing_same (d := s.dev.cleared.rekeyed n keys) rfl ⟨fun _ _ => rfl, rfl, rfl, rfl⟩]

section
variable {s : State} {sub : Nat} (hs : clocked s) (hlow : 0 < sub) (hhigh : sub ≤ 16)
include hs hlow hhigh

theorem dopKeysWrite_enters {bs : List Byte} (hlen : bs.length = 2600) (hrole : (bs.headD 0#8).toNat < 3) (hzero : leNat ((bs.take 8).drop 1) = 0) :
    ∃ t, exec (.dopKeysWrite sub bs) s = .next t ∧ nmGet t.dev.dop.keys (sub - 1) = some bs
      ∧ (∀ k, k ≠ sub - 1 → nmGet t.dev.dop.keys k = nmGet s.dev.dop.keys k)
      ∧ t.dev.dop.sessions = (if nmGet s.dev.dop.keys (sub - 1) = some bs then s.dev.dop.sessions
          else s.dev.dop.sessions.filter fun x => x.key != sub - 1)
      ∧ t.dev.objs = s.dev.objs := by
  have hfull : ¬bs.isEmpty = true := by
    intro h
    rw [List.isEmpty_iff.1 h] at hlen
    exact absurd hlen (by decide)
  have hwrite := Dev.keyWrite_passes (d := s.dev.cleared) hlow hhigh (.inr hlen) hrole hzero
  rw [if_neg hfull] at hwrite
  refine ⟨_, gives_of_onDev hs (exec_dopKeysWrite sub bs s) hwrite, ?_⟩
  rw [State.closing_rekeyed]
  refine ⟨nmGet_nmSet_same .., fun k hk => nmGet_nmSet_other _ _ _ _ hk, ?_, rfl⟩
  have hkey : nmGet (nmSet s.dev.dop.keys (sub - 1) bs) (sub - 1) = some bs := nmGet_nmSet_same ..
  show (if nmGet s.dev.dop.keys (sub - 1) = nmGet (nmSet s.dev.dop.keys (sub - 1) bs) (sub - 1) then _ else _) = _
  rw [hkey]
  rfl

theorem dopKeysWrite_removes : ∃ t, exec (.dopKeysWrite sub []) s = .next t ∧ nmGet t.dev.dop.keys (sub - 1) = none
    ∧ (nmGet s.dev.dop.keys (sub - 1) ≠ none → ∀ x, x ∈ t.dev.dop.sessions ↔ x ∈ s.dev.dop.sessions ∧ x.key ≠ sub - 1) := by
  have hwrite := Dev.keyWrite_passes (d := s.dev.cleared) hlow hhigh (bs := []) (.inl rfl) (by decide) rfl
  refine ⟨_, gives_of_onDev hs (exec_dopKeysWrite sub [] s) hwrite, ?_⟩
  have hkey : nmGet (nmErase s.dev.dop.keys (sub - 1)) (sub - 1) = none := (nmGet_nmErase ..).trans (if_pos rfl)
  rw [State.closing_rekeyed]
  refine ⟨hkey, fun hhad x => ?_⟩
  show x ∈ (if nmGet s.dev.dop.keys (sub - 1) = nmGet (nmErase s.dev.dop.keys (sub - 1)) (sub - 1) then s.dev.dop.sessions
    else s.dev.dop.sessions.filter fun x => x.key != sub - 1) ↔ _
  rw [hkey, if_neg hhad, List.mem_filter, bne_iff_ne]

end

/-! ### The statement -/

/-- Settles O52: writes by the branch of their object's class, dict.save by the fold over the saved objects. -/
theorem dictionary : Obligations.Dictionary := by
  intro s hs
  refine ⟨fun i k v o => registerWrite_sets hs, fun i k v o => registerWrite_awaits hs,
    fun i k v o ho haccess hdomain hfits hbool hvalue => ?_,
    fun i k v ho => gives_of_onDev hs (exec_registerWrite i k v s) (Dev.registerWrite_unknown v ho), fun o k v hcounter => ?_,
    dictSave_stores hs, ⟨_, (exec_cfgRackFlip s).trans (onDev_gives hs), ?_⟩,
    fun sub bs hlow hhigh => dopKeysWrite_enters hs hlow hhigh, fun sub => dopKeysWrite_removes hs⟩
  · exact gives_of_onDev hs (exec_registerWrite i k v s)
      ((Dev.registerWrite_fits ho haccess hdomain hfits hbool).trans (Dev.writeObj_outside (d := s.dev.cleared) hvalue))
  · simp [Dev.valueOk, hcounter]
  · obtain ⟨hcur, hnext, hcores⟩ := s.dev.cleared.rackFlip_swaps
    rw [State.closing_objD, State.closing_objD]
    refine ⟨hcur, hnext, fun e => ?_⟩
    rw [State.closing_core, Dev.core, hcores]
    rfl

end Sys2Proof.Machine
end

section
/-! Asking the contexts for a gate leaves the fuses and the store (R350, R540). -/

namespace Sys2Proof.Machine

theorem foldl_sec {α : Type} {f : Dev → α → Dev} (h : ∀ d x, (f d x).sec = d.sec) (l : List α) {d e : Dev} (he : d.sec = e.sec) :
    (l.foldl f d).sec = e.sec :=
  (foldl_unchanged Dev.sec h l d).trans he

theorem sec_ite {p : Prop} [Decidable p] {a b d : Dev} (ha : a.sec = d.sec) (hb : b.sec = d.sec) : (if p then a else b).sec = d.sec := by
  split
  · exact ha
  · exact hb

/-! ### Counters, events, frames and packets -/

@[simp] theorem Dev.sec_bump (d : Dev) (i s n : Nat) : (d.bump i s n).sec = d.sec := by rw [Dev.bump_frame]

@[simp] theorem Dev.sec_eventCtx (d : Dev) (n : Nat) (code : Code) (unit kind d0 d1 : Nat) : (d.eventCtx n code unit kind d0 d1).sec = d.sec := by
  obtain ⟨_, _, _, h⟩ := d.eventCtx_frame n code unit kind d0 d1
  rw [h]

@[simp] theorem Dev.sec_eventCore (d : Dev) (c : CoreId) (code : Code) (unit kind d0 d1 : Nat) : (d.eventCore c code unit kind d0 d1).sec = d.sec := by
  obtain ⟨_, _, _, h⟩ := d.eventCore_frame c code unit kind d0 d1
  rw [h]

@[simp] theorem Dev.sec_eventDev (d : Dev) (code : Code) (unit kind d0 d1 : Nat) : (d.eventDev code unit kind d0 d1).sec = d.sec := by
  obtain ⟨_, _, _, h⟩ := d.eventDev_frame code unit kind d0 d1
  rw [h]

@[simp] theorem Dev.sec_linkSend (d : Dev) (n : Nat) (f : LinkFrame) : (d.linkSend n f).sec = d.sec := by
  obtain ⟨_, _, h⟩ := d.linkSend_frame n f
  rw [h]

@[simp] theorem Dev.sec_sendMgmt (d : Dev) (dev kind srcCtx dstCtx step relIdx : Nat) (p : LinkPay) :
    (d.sendMgmt dev kind srcCtx dstCtx step relIdx p).sec = d.sec := by
  obtain ⟨_, _, _, h⟩ := d.sendMgmt_frame dev kind srcCtx dstCtx step relIdx p
  rw [h]

theorem Dev.sec_stationTakes (d : Dev) (h : PktHead) : (d.stationTakes h).sec = d.sec := by
  unfold Dev.stationTakes
  split
  · rfl
  · dsimp only
    split
    · split
      · exact Dev.sec_linkSend ..
      · exact Dev.sec_bump ..
    · split
      · exact Dev.sec_bump ..
      · rfl

theorem Dev.sec_routerGrants (c : CoreId) (fuel : Nat) (d : Dev) : (Dev.routerGrants c fuel d).sec = d.sec := by
  induction fuel generalizing d with
  | zero => rfl
  | succ fuel ih =>
    unfold Dev.routerGrants
    split
    · rfl
    · dsimp only
      split
      · exact (ih _).trans (Dev.sec_stationTakes ..)
      · exact ih _

theorem Dev.sec_routersGo (d : Dev) : d.routersGo.sec = d.sec :=
  foldl_sec (fun d k => Dev.sec_routerGrants (coreOfKey k) 27 d) _ rfl

/-! ### Rings, slots and cores -/

theorem Dev.sec_giveBack (d : Dev) (c : CoreId) (src : Sender) (queue inc : Nat) (closed mcast : Bool) (units : Nat) :
    (d.giveBack c src queue inc closed mcast units).sec = d.sec := by
  unfold Dev.giveBack
  split
  · rfl
  · split
    · rw [Dev.putPackets_spec]
    · rfl

theorem Dev.sec_emptyRing (d : Dev) (c : CoreId) (q : Nat) : (d.emptyRing c q).sec = d.sec := by
  refine (Dev.sec_bump ..).trans (foldl_sec (fun d s => ?_) _ rfl)
  exact Dev.sec_giveBack ..

theorem Dev.sec_closeRings (d : Dev) (c : CoreId) : (d.closeRings c).sec = d.sec := by
  refine foldl_sec (fun d q => ?_) _ rfl
  unfold Dev.closeRing
  dsimp only
  split
  · exact Dev.sec_emptyRing ..
  · rfl

theorem Dev.sec_broomRetire (d : Dev) (c : CoreId) (slot : Nat) : (d.broomRetire c slot).sec = d.sec := by
  refine foldl_sec (fun d m => ?_) _ rfl
  rw [Dev.sec_eventCore, Dev.sec_bump]
  unfold Dev.resink
  split
  · exact Dev.sec_giveBack ..
  · exact Dev.sec_giveBack ..

theorem Dev.sec_installQueues (d : Dev) (c : CoreId) (slot : Nat) : (d.installQueues c slot).sec = d.sec := by
  have hmsg (e : Dev) (f : MsgUnit → MsgUnit) : (e.updMsg c f).sec = e.sec := rfl
  unfold Dev.installQueues
  refine Eq.trans (hmsg ..) (foldl_sec (fun d q => ?_) _ rfl)
  unfold Dev.installRing
  split
  · rfl
  · exact Dev.sec_emptyRing ..

theorem Dev.sec_emptyLoading (d : Dev) (cores : List CoreId) : (d.emptyLoading cores).sec = d.sec := by
  refine (foldl_unchanged Dev.sec (fun d c => ?_) cores _).trans (Dev.sec_routersGo _)
  refine foldl_unchanged Dev.sec (fun d i => ?_) _ d
  exact sec_ite rfl rfl

theorem Dev.sec_dropGearLoad (d : Dev) (n : Nat) : (d.dropGearLoad n).sec = d.sec := by
  unfold Dev.dropGearLoad
  split
  · rfl
  · exact Dev.sec_emptyLoading ..

theorem Dev.sec_leaveCore (d : Dev) (n : Nat) (keepMem : Bool) (c : CoreId) : (d.leaveCore n keepMem c).sec = d.sec := by
  have hrings : ((List.range 4).foldl (fun d i => d.broomRetire c i) (d.closeRings c)).sec = d.sec :=
    foldl_sec (fun d i => Dev.sec_broomRetire d c i) _ (Dev.sec_closeRings d c)
  unfold Dev.leaveCore
  split
  · rfl
  · rw [Dev.sec_bump]
    exact sec_ite rfl hrings

theorem Dev.sec_localWrite {d e : Dev} {c : CoreId} {addr : Nat} {bs : List Byte} (h : d.localWrite c addr bs = some e) : e.sec = d.sec := by
  unfold Dev.localWrite at h
  split at h
  · obtain ⟨_, _, rfl⟩ := Option.map_eq_some_iff.1 h; rfl
  · obtain ⟨_, _, rfl⟩ := Option.map_eq_some_iff.1 h; rfl
  · obtain rfl := Option.some.inj h; rfl
  · obtain rfl := Option.some.inj h; rfl

theorem Dev.sec_writeContents (d : Dev) (m : Image) (cores : List CoreId) : (d.writeContents m cores).sec = d.sec := by
  refine foldl_sec (fun d r => foldl_sec (fun d c => ?_) _ rfl) _ rfl
  cases h : d.localWrite c r.addr r.bytes with
  | none => rfl
  | some e => exact Dev.sec_localWrite h

theorem Dev.sec_shadowEntry (d : Dev) (cores : List CoreId) : (d.shadowEntry cores).sec = d.sec := by
  refine foldl_sec (fun d c => ?_) _ rfl
  rfl

theorem Dev.sec_enterCore (d : Dev) (n : Nat) (m : Image) (r : RegionRec) (c : CoreId) : (d.enterCore n m r c).sec = d.sec := by
  unfold Dev.enterCore
  dsimp only
  rw [Dev.sec_bump, Dev.sec_installQueues]
  rfl

theorem Dev.sec_scanIn (d : Dev) (n region : Nat) (c : CoreId) (s : Saved) (mem : Option LocalMem) (shadow : Bool) :
    (d.scanIn n region c s mem shadow).sec = d.sec := by
  unfold Dev.scanIn
  dsimp only
  rw [Dev.sec_bump, Dev.sec_bump]
  rfl

/-! ### States, power and steps of contexts (R346, R348, R372) -/

@[simp] theorem Dev.sec_toState (d : Dev) (n : Nat) (st : CtxState) : (d.toState n st).sec = d.sec := by
  have hrise (e : Dev) : e.clockRise.sec = e.sec := sec_ite rfl rfl
  unfold Dev.toState
  dsimp only
  split
  · rfl
  · exact (hrise _).trans (foldl_sec (fun d p => Dev.sec_sendMgmt ..) _ rfl)

@[simp] theorem Dev.sec_powerCells (d : Dev) (cells : List (Nat × Nat)) (mode : Nat) : (d.powerCells cells mode).sec = d.sec := by
  refine foldl_sec (fun d c => ?_) _ rfl
  rfl

theorem Dev.sec_staggered (d : Dev) (n num : Nat) (cs : List CoreId) : (d.staggered n num cs).sec = d.sec := by
  obtain ⟨_, _, _, h⟩ := d.staggered_frame n num cs
  rw [h]

@[simp] theorem Dev.sec_begin_ (d : Dev) (n num : Nat) : (d.begin_ n num).sec = d.sec := by
  unfold Dev.begin_
  dsimp only
  split
  · rfl
  · refine (Dev.sec_staggered ..).trans (foldl_sec (fun d c => ?_) _ rfl)
    rfl

@[simp] theorem Dev.sec_policyEvents (d : Dev) (k : Nat) : (d.policyEvents k).sec = d.sec := sec_ite rfl rfl

/-! ### Entry and exit (R190, R199, R298, R346, R347, R349, R352, R382) -/

theorem Dev.sec_enterNow (d : Dev) (n : Nat) : (d.enterNow n).sec = d.sec := by
  unfold Dev.enterNow
  dsimp only
  refine foldl_sec (fun d r => ?_) _ (foldl_sec (fun d r => Dev.sec_staggered ..) _ ((Dev.sec_toState ..).trans ?_))
  · exact sec_ite rfl (Dev.sec_begin_ ..)
  · refine foldl_sec (fun d r => ?_) _ rfl
    refine (Dev.sec_shadowEntry ..).trans ((Dev.sec_writeContents ..).trans (foldl_sec (fun d c => ?_) _ rfl))
    split
    · exact Dev.sec_scanIn ..
    · exact Dev.sec_enterCore ..

theorem Dev.sec_release (d : Dev) (n : Nat) (keepMem : Bool) : (d.release n keepMem).sec = d.sec := by
  unfold Dev.release
  dsimp only
  rw [Dev.sec_powerCells]
  exact foldl_sec (fun d c => d.sec_leaveCore n keepMem c) _ (d.sec_dropGearLoad n)

theorem Dev.sec_contentsLeave (d : Dev) (n : Nat) : (d.contentsLeave n).sec = d.sec := by
  refine (Dev.sec_powerCells ..).trans (foldl_sec (fun d c => ?_) _ rfl)
  exact sec_ite rfl rfl

theorem Dev.sec_dropReplay (d : Dev) (n num : Nat) : (d.dropReplay n num).sec = d.sec := by
  unfold Dev.dropReplay
  split
  · dsimp only
    split
    · exact Dev.sec_powerCells ..
    · rfl
  · rfl

theorem Dev.sec_toFailed (d : Dev) (n : Nat) (code : Code) : (d.toFailed n code).sec = d.sec := by
  have hreplays : (d.dropReplays n).sec = d.sec := foldl_sec (fun d r => Dev.sec_dropReplay ..) _ rfl
  have hcells (e : Dev) (p : Prop) [Decidable p] (he : e.sec = d.sec) : (if p then e.release n false else e).sec = d.sec :=
    sec_ite ((e.sec_release n false).trans he) he
  unfold Dev.toFailed
  dsimp only
  refine sec_ite ((Dev.sec_contentsLeave ..).trans ?_) ?_
  · exact (Dev.sec_toState ..).trans (hcells _ _ (sec_ite hreplays hreplays))
  · exact (Dev.sec_toState ..).trans (hcells _ _ (sec_ite hreplays hreplays))

theorem Dev.sec_enter (d : Dev) (n : Nat) : (d.enter n).sec = d.sec := by
  unfold Dev.enter
  dsimp only
  split
  · rw [Dev.sec_policyEvents, Dev.sec_eventCtx, Dev.sec_toFailed]
  · rw [Dev.sec_enterNow]

/-! ### Frames and bytes of pages (R308, R318, R320, R460) -/

theorem Dev.sec_giveFrames (d : Dev) (n f k : Nat) : (d.giveFrames n f k).sec = d.sec := foldl_sec (f := Dev.freeFrame) (fun _ _ => rfl) _ rfl

theorem Dev.sec_writePlace (d : Dev) (p : PagePlace) (bs : List Byte) (n : Nat) : (d.writePlace p bs n).sec = d.sec := by
  cases p with
  | tier2 pa => exact Dev.sec_bump ..
  | near c off => rfl
  | peer dev addr => rfl
  | host window offset => rfl

theorem Dev.sec_needFrame (d : Dev) (n page : Nat) : (d.needFrame n page).sec = d.sec := by
  unfold Dev.needFrame
  split
  · rfl
  · refine sec_ite rfl ?_
    dsimp only
    split
    · rfl
    · rfl

theorem Dev.sec_fillVa (d : Dev) (n va : Nat) (bs : List Byte) : (d.fillVa n va bs).sec = d.sec := by
  refine foldl_unchanged (fun q : Dev × List Byte => q.1.sec) (fun q p => ?_) _ (d, bs)
  dsimp only
  split
  · exact (Dev.sec_writePlace ..).trans (Dev.sec_needFrame ..)
  · exact Dev.sec_needFrame ..

theorem Dev.sec_restore (d : Dev) (n : Nat) (k : Ckpt) : (d.restore n k).sec = d.sec := by
  unfold Dev.restore
  dsimp only
  refine foldl_sec (fun d p => Dev.sec_sendMgmt ..) _ (foldl_sec (fun d p => Dev.sec_fillVa ..) _ ?_)
  exact foldl_sec (fun d f => Dev.sec_giveFrames ..) _ rfl

theorem Dev.sec_placeBad (d : Dev) (l : Leaf) (bad : List Nat) : (d.placeBad l bad).sec = d.sec := by
  refine foldl_sec (fun d i => ?_) bad rfl
  split
  · rfl
  · rfl
  · rfl

theorem Dev.sec_movePart (d : Dev) (n page home target : Nat) (remote : List Byte) : (d.movePart n page home target remote).sec = d.sec := by
  have hplaced (e : Dev) (l : Leaf) (p : PagePlace) (bs : List Byte) (bad : List Nat) : ((e.writePlace p bs n).placeBad l bad).sec = e.sec :=
    (Dev.sec_placeBad ..).trans (Dev.sec_writePlace ..)
  unfold Dev.movePart
  split
  · rfl
  · dsimp only
    refine sec_ite (hplaced ..) ((Dev.sec_giveFrames ..).trans (sec_ite (hplaced ..) ?_))
    exact (Dev.sec_bump ..).trans (hplaced ..)

theorem Dev.sec_demote (d : Dev) (n : Nat) (f : CoreId → Bool) : (d.demote n f).sec = d.sec := by
  refine foldl_sec (fun d p => ?_) _ rfl
  split
  · rfl
  · rw [Dev.sec_bump, Dev.sec_movePart]
    exact Dev.sec_bump ..

/-- Contexts whose contents must leave their cells. -/
theorem Dev.sec_demotes (d : Dev) (l : List Nat) :
    (l.foldl (fun d m => (d.demote m fun _ => true).updCtx m fun x => { x with copying := true }) d).sec = d.sec :=
  foldl_sec (f := fun d m => (d.demote m fun _ => true).updCtx m fun x => { x with copying := true }) (fun d m => d.sec_demote m fun _ => true) l rfl

theorem Dev.sec_tryEnter (d : Dev) (n : Nat) : (d.tryEnter n).sec = d.sec := by
  refine sec_ite rfl (sec_ite (Dev.sec_enter ..) (sec_ite ?_ (Dev.sec_sendMgmt ..)))
  split
  · exact (Dev.sec_enter ..).trans (Dev.sec_restore ..)
  · rfl

/-! ### Stand-ins and retirements (R30, R382, R412) -/

theorem Dev.sec_groomEnd (d : Dev) : d.groomEnd.sec = d.sec := by
  unfold Dev.groomEnd
  split
  · rfl
  · refine (Dev.sec_bump ..).trans (sec_ite (d := d) (foldl_sec (fun d k => ?_) _ rfl) rfl)
    rfl

theorem Dev.sec_tryStandin (d : Dev) (n num : Nat) : (d.tryStandin n num).sec = d.sec := by
  have hgroomed {p : Prop} [Decidable p] : (if p then d.groomEnd else d).sec = d.sec := sec_ite (Dev.sec_groomEnd d) rfl
  unfold Dev.tryStandin
  split
  · dsimp only
    refine sec_ite rfl ?_
    split
    · rfl
    · refine sec_ite ?_ ?_
      · rw [Dev.sec_begin_, Dev.sec_bump, Dev.sec_bump, Dev.sec_powerCells]
        exact (Dev.sec_demotes ..).trans (sec_ite hgroomed hgroomed)
      · exact (Dev.sec_demotes ..).trans (sec_ite hgroomed hgroomed)
  · rfl

theorem Dev.sec_retireNow (d : Dev) (py : Nat) : (d.retireNow py).sec = d.sec := by
  unfold Dev.retireNow Dev.flipTo
  rfl

theorem Dev.sec_retireOver (d : Dev) (py : Nat) : (d.retireOver py).sec = d.sec := by
  have hpower (l : List Nat) (mode : Nat) (e : Dev) : (l.foldl (fun d n => d.powerCells (d.ctx n).cells mode) e).sec = e.sec :=
    foldl_sec (fun d n => Dev.sec_powerCells ..) l rfl
  unfold Dev.retireOver
  dsimp only
  refine foldl_sec (fun d n => foldl_sec (fun d r => ?_) _ rfl) _ ?_
  · exact sec_ite rfl (Dev.sec_begin_ ..)
  · exact (hpower ..).trans ((hpower ..).trans ((Dev.sec_retireNow ..).trans (hpower ..)))

theorem Dev.sec_cellsFreed (d : Dev) : d.cellsFreed.sec = d.sec := by
  have hplaced (e : Dev) : (e.ctxs.foldl (fun d p => p.2.regions.foldl (fun d r => d.tryStandin p.1 r.num) d) e).sec = e.sec :=
    foldl_sec (fun d p => foldl_sec (fun d r => Dev.sec_tryStandin ..) _ rfl) _ rfl
  have hentered : (d.ctxs.foldl (fun d p => d.tryEnter p.1) d).sec = d.sec := foldl_sec (fun d p => Dev.sec_tryEnter ..) _ rfl
  unfold Dev.cellsFreed
  dsimp only
  split
  · exact sec_ite ((hplaced _).trans hentered) ((Dev.sec_retireOver ..).trans ((hplaced _).trans hentered))
  · exact (hplaced _).trans hentered

/-! ### Parks and gates (R328, R350, R457) -/

theorem Dev.sec_capture (d : Dev) (n : Nat) : (d.capture n).sec = d.sec := by
  refine foldl_sec (fun d r => ?_) _ rfl
  exact sec_ite rfl (Dev.sec_begin_ ..)

theorem Dev.sec_allParked (d : Dev) (n : Nat) : (d.allParked n).sec = d.sec := by
  have hcaptured (p : Prop) [Decidable p] : (if p then d.capture n else d).sec = d.sec := sec_ite (Dev.sec_capture ..) rfl
  have hresident (e : Dev) (p : Prop) [Decidable p] : (if p then e.toState n .resident else e).sec = e.sec := sec_ite (Dev.sec_toState ..) rfl
  unfold Dev.allParked
  dsimp only
  exact sec_ite rfl (sec_ite ((Dev.sec_cellsFreed _).trans ((hresident ..).trans (hcaptured _))) ((hresident ..).trans (hcaptured _)))

theorem Dev.sec_parkOrBegin (d : Dev) (n num : Nat) : (d.parkOrBegin n num).sec = d.sec :=
  sec_ite (sec_ite (Dev.sec_allParked ..) rfl) (Dev.sec_begin_ ..)

theorem Dev.sec_askGate (d : Dev) (n : Nat) (park : Bool) : (d.askGate n park).sec = d.sec := by
  refine foldl_sec (fun d r => ?_) _ rfl
  exact sec_ite (Dev.sec_parkOrBegin ..) rfl

/-- Asking every context that holds cells for a gate leaves the fuses and the store. -/
theorem Dev.sec_preemptAll (d : Dev) : d.preemptAll.sec = d.sec := foldl_sec (fun _ _ => Dev.sec_askGate ..) _ rfl

end Sys2Proof.Machine
end

section
/-! O51: the life cycle (R492, R536 to R543). -/

namespace Sys2Proof.Machine

theorem exec_lcShip (id : Nat) (bs : List Byte) (s : State) :
    exec (.lcShip id bs) s = s.onDev fun d => d.lcAsk id 3 (okey 0x7004 1) fun d => d.lcShip bs := rfl

theorem exec_lcClaim (id : Nat) (key : List Byte) (s : State) :
    exec (.lcClaim id key) s = s.onDev fun d => d.lcAsk id 2 (okey 0x7004 2) fun d => d.lcClaim key := rfl

theorem exec_lcReturn (id : Nat) (bs : List Byte) (s : State) :
    exec (.lcReturn id bs) s = s.onDev fun d => d.lcAsk id 2 (okey 0x7004 3) fun d => d.lcReturn id bs := rfl

theorem exec_lcScrap (id : Nat) (bs : List Byte) (s : State) :
    exec (.lcScrap id bs) s = s.onDev fun d => d.lcAsk id 2 (okey 0x7004 4) fun d => d.lcScrap id bs := rfl

theorem exec_tapUnlock (id value : Nat) (s : State) :
    exec (.tapUnlock id value) s = s.onDev fun d => d.lcAsk id 3 (okey 0x7004 5) fun d => d.tapUnlock value := rfl

/-- A session's write of its nonce. -/
def Dev.nonceWrite (d : Dev) (id : Nat) (nonce : List Byte) : Dev :=
  match d.session? id with
  | none => d
  | some _ => d.attestNonce id nonce

theorem exec_attestNonce (id : Nat) (nonce : List Byte) (s : State) :
    exec (.attestNonce id nonce) s = s.onDev fun d => d.nonceWrite id nonce := rfl

/-! ### Who may ask (R492, R538) -/

section
variable {d : Dev} {id role key : Nat} {w : Session} {f : Dev → Dev} (hw : d.session? id = some w)
include hw

theorem Dev.lcAsk_refused (hrole : w.role < role) : d.lcAsk id role key f = d.reply cRoleInsufficient := by
  simp [Dev.lcAsk, hw, hrole]

/-- A transition that leaves the firmware running is remembered with its code. -/
theorem Dev.lcAsk_runs (hrole : role ≤ w.role) (hfw : (f d).pow.mgmt = 2) : d.lcAsk id role key f = (f d).opDone key (f d).answer := by
  simp [Dev.lcAsk, hw, Nat.not_lt.2 hrole, hfw]

theorem Dev.lcAsk_starts (hrole : role ≤ w.role) (hfw : (f d).pow.mgmt ≠ 2) : d.lcAsk id role key f = f d := by
  simp [Dev.lcAsk, hw, Nat.not_lt.2 hrole, hfw]

end

theorem Dev.withToken_passes {d : Dev} {kind sigs : Nat} {bs : List Byte} (f : Dev → Dev) (h : d.sec.tokenCheck kind sigs bs = none) :
    d.withToken kind sigs bs f = f d := by
  simp [Dev.withToken, h]

/-! ### SHIPPED and OWNED (R536 to R538, R545) -/

/-- Fuses and store after the entry into SHIPPED with a claim key. -/
def Sec.shipped (c : Sec) (entry : List Byte) : Sec :=
  let c := { c with fuses := { c.fuses with lc := 1 } }
  { c with store := { c.store with
    saved := nmSet ((if c.store.savedKey = c.configSeed then c.store.saved else []).filter fun p => p.1 / 256 != 0x1101) (okey 0x1101 1) (bytesNat entry)
    savedKey := c.configSeed, erased := false } }

/-- The device that enters SHIPPED from MANUFACTURE. -/
def Dev.shipped (d : Dev) (entry : List Byte) : Dev := { d with
  sec := d.sec.shipped entry
  dop := { d.dop with keys := [(0, entry)], sessions := d.dop.sessions.filter fun s => !(s.role = 3 || s.key != 0) } }

theorem Dev.enterShipped_eq (d : Dev) (entry : List Byte) : d.enterShipped entry false = d.shipped entry := rfl

theorem SameNotes.shipped (d : Dev) (entry : List Byte) (key code : Nat) : SameNotes d ((d.shipped entry).opDone key code) :=
  ⟨fun _ _ => .refl _, .refl _, .refl _, .refl _⟩

theorem Dev.lcShip_enters {d : Dev} {e : List Byte} (hlc : d.sec.fuses.lc = 0) (hkey : nmGet d.dop.keys 0 = some e) :
    d.lcShip [] = d.shipped e := by
  simp [Dev.lcShip, hlc, hkey, Dev.enterShipped_eq]

/-- Fuses and store after a claim. -/
def Sec.claimed (c : Sec) (key : List Byte) : Sec :=
  { c with fuses := { c.fuses with lc := 2 }, store := { c.store with ownerRoot := key } }

theorem Dev.lcClaim_owns {d : Dev} {key : List Byte} (hlc : d.sec.fuses.lc = 1) (hlen : key.length = 2592) :
    d.lcClaim key = { d with sec := d.sec.claimed key } := by
  simp [Dev.lcClaim, hlc, hlen, Sec.claimed, Dev.updFuses, Dev.updStore, Dev.updSec]

section
variable {s : State} {id : Nat} {w : Session} (hs : clocked s) (hw : s.dev.cleared.session? id = some w)
include hs hw

theorem lcShip_ships {e : List Byte} (hfw : s.dev.pow.mgmt = 2) (hrole : 3 ≤ w.role) (hlc : s.dev.sec.fuses.lc = 0)
    (hkey : nmGet s.dev.dop.keys 0 = some e) : ∃ t, exec (.lcShip id []) s = .next t
      ∧ t.nv.fuses = { s.dev.sec.fuses with lc := 1 } ∧ t.dev.dop.keys = [(0, e)]
      ∧ (∀ x ∈ t.dev.dop.sessions, x.role ≠ 3 ∧ x.key = 0) ∧ ∀ c, t.dev.core c = s.dev.core c := by
  have hships : s.dev.cleared.lcShip [] = s.dev.cleared.shipped e := Dev.lcShip_enters hlc hkey
  have hasks : s.dev.cleared.lcAsk id 3 (okey 0x7004 1) (fun d => d.lcShip []) = (s.dev.cleared.shipped e).opDone (okey 0x7004 1) 0 := by
    rw [Dev.lcAsk_runs hw hrole (by rw [hships]; exact hfw), hships]
    rfl
  have hnotes : SameNotes s.dev ((s.dev.cleared.shipped e).opDone (okey 0x7004 1) 0) := SameNotes.cleared.trans (.shipped ..)
  have hclose : (s.closing ((s.dev.cleared.shipped e).opDone (okey 0x7004 1) 0)).dev = ((s.dev.cleared.shipped e).opDone (okey 0x7004 1) 0).txPaused := by
    have hctxs : ((s.dev.cleared.shipped e).opDone (okey 0x7004 1) 0).ctxs = s.dev.ctxs := rfl
    rw [State.closing_same hctxs hnotes]
  have hcore (c : CoreId) : ((s.dev.cleared.shipped e).opDone (okey 0x7004 1) 0).core c = s.dev.core c := rfl
  refine ⟨_, gives_of_onDev hs (exec_lcShip id [] s) hasks, by rw [State.closing_nv]; rfl, by rw [hclose]; rfl, fun x hx => ?_,
    fun c => (State.closing_core ..).trans (hcore c)⟩
  rw [hclose] at hx
  have hstays := (List.mem_filter.1 hx).2
  simp only [Bool.not_eq_true', Bool.or_eq_false_iff, decide_eq_false_iff_not, bne_eq_false_iff_eq] at hstays
  exact hstays

theorem lcClaim_claims {key : List Byte} (hfw : s.dev.pow.mgmt = 2) (hrole : 2 ≤ w.role) (hlc : s.dev.sec.fuses.lc = 1) (hlen : key.length = 2592) :
    ∃ t, exec (.lcClaim id key) s = .next t ∧ t.nv.fuses = { s.dev.sec.fuses with lc := 2 }
      ∧ t.nv.store = { s.dev.sec.store with ownerRoot := key } ∧ ∀ c, t.dev.core c = s.dev.core c := by
  have howns : s.dev.cleared.lcClaim key = { s.dev.cleared with sec := s.dev.sec.claimed key } := Dev.lcClaim_owns hlc hlen
  have hasks : s.dev.cleared.lcAsk id 2 (okey 0x7004 2) (fun d => d.lcClaim key)
      = { s.dev.cleared with sec := s.dev.sec.claimed key }.opDone (okey 0x7004 2) 0 := by
    rw [Dev.lcAsk_runs hw hrole (by rw [howns]; exact hfw), howns]
    rfl
  refine ⟨_, gives_of_onDev hs (exec_lcClaim id key s) hasks, ?_⟩
  rw [State.closing_nv]
  exact ⟨rfl, rfl, fun c => State.closing_core ..⟩

/-! ### Leaving OWNED (R540) -/

/-- The device at the start that ends its life in OWNED: the contexts are stopped, the other sessions closed, the owner's secrets erased. -/
def Dev.disowned (d : Dev) (id to_ : Nat) : Dev :=
  (((d.preemptAll.closeSessions fun x => x.id != id).updFuses fun f => { f with
    lc := to_
    returns := if to_ = 3 then min 4 (f.returns + 1) else f.returns
    rootSecret := if to_ = 4 then 2 ^ 256 - 1 else f.rootSecret }).eraseOwner).setObj 0x6105 3 0

omit hs hw in
theorem Dev.leaveOwned_starts (d : Dev) (to_ : Nat) : d.leaveOwned id to_ = (d.disowned id to_).plainStart false := rfl

omit hs hw in
theorem Dev.disowned_fuses (d : Dev) (to_ : Nat) : (d.disowned id to_).sec.fuses = { d.sec.fuses with
    lc := to_
    returns := if to_ = 3 then min 4 (d.sec.fuses.returns + 1) else d.sec.fuses.returns
    rootSecret := if to_ = 4 then 2 ^ 256 - 1 else d.sec.fuses.rootSecret } := by
  rw [← Dev.sec_preemptAll d]
  rfl

omit hs hw in
theorem Dev.disowned_store (d : Dev) (to_ : Nat) : (d.disowned id to_).sec.store =
    { d.sec.store with ownerRoot := [], policy := [], saved := [], savedKey := 0, savedTime := 0, erased := true } := by
  rw [← Dev.sec_preemptAll d]
  rfl

/-- A transition that leaves OWNED starts the device without its owner's secrets, and with nothing of what cells and tier 2 held. -/
theorem leavesOwned {i : Instr} {role key to_ : Nat} {f : Dev → Dev} (hrole : role ≤ w.role)
    (hi : exec i s = s.onDev fun d => d.lcAsk id role key f) (hf : f s.dev.cleared = s.dev.cleared.leaveOwned id to_) :
    ∃ t, exec i s = .next t ∧ t.nv.fuses = (s.dev.disowned id to_).sec.fuses ∧ t.nv.store.ownerRoot = [] ∧ t.nv.store.policy = []
      ∧ t.nv.store.saved = [] ∧ t.nv.store.erased = true ∧ t.dev.t2.mem = [] ∧ t.dev.ckpts = [] ∧ ∀ c, t.dev.core c = clearCore := by
  have hstart := (s.dev.cleared.disowned id to_).plainStart_restarts false
  rw [← Dev.leaveOwned_starts] at hstart
  have hasks : s.dev.cleared.lcAsk id role key f = s.dev.cleared.leaveOwned id to_ := by
    rw [Dev.lcAsk_starts hw hrole (by rw [hf, hstart.mgmt]; decide), hf]
  have hdrops : ¬(false = false ∧ (s.dev.cleared.disowned id to_).objD 0x6105 3 0 = 1) := by
    rintro ⟨-, h⟩
    rw [Dev.disowned, Dev.objD_setObj, if_pos rfl] at h
    exact absurd h (by decide)
  have hfuses : (s.closing (s.dev.cleared.leaveOwned id to_)).nv.fuses = (s.dev.disowned id to_).sec.fuses := by
    rw [hstart.closing_nv]
    show (s.dev.cleared.disowned id to_).sec.fuses = _
    rw [Dev.disowned_fuses, Dev.disowned_fuses, Dev.cleared]
  have hstore : (s.closing (s.dev.cleared.leaveOwned id to_)).nv.store = (s.dev.cleared.disowned id to_).sec.store := by
    rw [hstart.closing_nv]
  rw [Dev.disowned_store] at hstore
  refine ⟨_, gives_of_onDev hs hi hasks, ?_⟩
  rw [hfuses, hstore, State.closing_t2, State.closing_ckpts]
  exact ⟨rfl, rfl, rfl, rfl, rfl, hstart.mem, hstart.ckpts.trans (if_neg hdrops), hstart.closing_core⟩

theorem lcReturn_returns {bs : List Byte} (hrole : 2 ≤ w.role) (hlc : s.dev.sec.fuses.lc = 2) (htoken : s.dev.sec.tokenCheck 1 3 bs = none) :
    ∃ t, exec (.lcReturn id bs) s = .next t
      ∧ t.nv.fuses.lc = 3 ∧ t.nv.fuses.returns = min 4 (s.dev.sec.fuses.returns + 1) ∧ t.nv.store.ownerRoot = [] ∧ t.nv.store.policy = []
      ∧ t.nv.store.saved = [] ∧ t.nv.store.erased = true ∧ t.dev.t2.mem = [] ∧ t.dev.ckpts = [] ∧ ∀ c, t.dev.core c = clearCore := by
  have hreturns : s.dev.cleared.lcReturn id bs = s.dev.cleared.leaveOwned id 3 := by
    rw [Dev.lcReturn, if_neg (fun h => h hlc)]
    exact Dev.withToken_passes _ htoken
  obtain ⟨t, ht, hfuses, hrest⟩ := leavesOwned hs hw hrole (exec_lcReturn id bs s) hreturns
  rw [Dev.disowned_fuses] at hfuses
  exact ⟨t, ht, by rw [hfuses], by rw [hfuses]; rfl, hrest⟩

theorem lcScrap_leavesOwned {bs : List Byte} (hrole : 2 ≤ w.role) (hlc : s.dev.sec.fuses.lc = 2) (htoken : s.dev.sec.tokenCheck 2 2 bs = none) :
    ∃ t, exec (.lcScrap id bs) s = .next t
      ∧ t.nv.fuses.lc = 4 ∧ t.nv.fuses.rootSecret = 2 ^ 256 - 1 ∧ t.nv.store.ownerRoot = [] ∧ t.nv.store.erased = true ∧ t.dev.t2.mem = [] := by
  have hscraps : s.dev.cleared.lcScrap id bs = s.dev.cleared.leaveOwned id 4 := by
    simp only [Dev.lcScrap, show s.dev.cleared.sec.fuses.lc = 2 from hlc]
    exact Dev.withToken_passes _ htoken
  obtain ⟨t, ht, hfuses, hroot, -, -, herased, hmem, -⟩ := leavesOwned hs hw hrole (exec_lcScrap id bs s) hscraps
  rw [Dev.disowned_fuses] at hfuses
  exact ⟨t, ht, by rw [hfuses], by rw [hfuses]; rfl, hroot, herased, hmem⟩

/-! ### SCRAPPED from RETURNED (R537) -/

omit hs hw in
theorem State.closing_noSessions {d : Dev} (h : d.dop.sessions = []) : (s.closing d).dev.dop.sessions = [] := by
  have hsessions : (s.closing d).dev.dop.sessions = ((d.statusNoted s.dev).noted s.dev).dop.sessions := rfl
  rw [hsessions]
  unfold Dev.noted Dev.statusNoted
  dsimp only
  rw [statusUpdates_frame, h]
  rfl

/-- A device whose identity is destroyed: no session, and the boot ROM alone. -/
def Dev.destroyed (d : Dev) : Dev :=
  ((d.updFuses fun f => { f with lc := 4, rootSecret := 2 ^ 256 - 1 }).preemptAll.closeSessions fun _ => true).romAlone

theorem lcScrap_destroys {bs : List Byte} (hrole : 3 ≤ w.role) (hlc : s.dev.sec.fuses.lc = 3) (htoken : s.dev.sec.tokenCheck 2 1 bs = none) :
    ∃ t, exec (.lcScrap id bs) s = .next t
      ∧ t.nv.fuses.lc = 4 ∧ t.nv.fuses.rootSecret = 2 ^ 256 - 1 ∧ t.dev.dop.sessions = [] ∧ t.dev.pow.mgmt = 3 := by
  have hvendor : ¬((s.dev.cleared.session? id).map (·.role)).getD 0 < 3 := by
    rw [hw]
    exact Nat.not_lt.2 hrole
  have hscraps : s.dev.cleared.lcScrap id bs = s.dev.cleared.destroyed := by
    simp only [Dev.lcScrap, show s.dev.cleared.sec.fuses.lc = 3 from hlc, if_neg hvendor]
    exact Dev.withToken_passes _ htoken
  have hasks := Dev.lcAsk_starts (key := okey 0x7004 4) (f := fun d => d.lcScrap id bs) (d := s.dev.cleared) hw (Nat.le_of_succ_le hrole)
    (by rw [hscraps]; exact (by decide : 3 ≠ 2))
  rw [hscraps] at hasks
  have hsec : s.dev.cleared.destroyed.sec = (s.dev.cleared.updFuses fun f => { f with lc := 4, rootSecret := 2 ^ 256 - 1 }).sec := Dev.sec_preemptAll _
  have hnone : s.dev.cleared.destroyed.dop.sessions = [] := List.filter_eq_nil_iff.2 fun _ _ => Bool.false_ne_true
  refine ⟨_, gives_of_onDev hs (exec_lcScrap id bs s) hasks, ?_⟩
  rw [State.closing_nv, State.closing_pow, hsec]
  exact ⟨rfl, rfl, State.closing_noSessions hnone, rfl⟩

/-! ### The test port (R541) -/

theorem tapUnlock_opens (hfw : s.dev.pow.mgmt = 2) (hrole : 3 ≤ w.role) (hlc : s.dev.sec.fuses.lc = 3) : ∃ t, exec (.tapUnlock id 1) s = .next t
    ∧ t.dev.pow.tapOpen = true ∧ t.dev.tapServes = true ∧ t.nv = ⟨s.dev.keep, s.dev.sec.fuses, s.dev.sec.store⟩ := by
  have hopens : s.dev.cleared.tapUnlock 1 = { s.dev.cleared with pow := { s.dev.pow with tapOpen := true } } := by
    rw [Dev.tapUnlock, if_neg (by decide), if_neg (fun h => h hlc)]
    rfl
  have hruns := Dev.lcAsk_runs (key := okey 0x7004 5) (f := fun d => d.tapUnlock 1) (d := s.dev.cleared) hw hrole (by rw [hopens]; exact hfw)
  rw [hopens] at hruns
  refine ⟨_, gives_of_onDev hs (exec_tapUnlock id 1 s) hruns, ?_⟩
  rw [Dev.tapServes, State.closing_pow, State.closing_sec, State.closing_nv]
  refine ⟨rfl, ?_, rfl⟩
  show (decide (s.dev.sec.fuses.lc = 0) || (decide (s.dev.sec.fuses.lc = 3) && true)) = true
  simp [hlc]

end

/-! ### The statement -/

/-- Settles O51: each transition by its function; leaving OWNED by the start that it makes. -/
theorem lifeCycle : Obligations.LifeCycle := by
  intro s id w hs hfw hw
  have hrefused {i : Instr} {role key : Nat} {f : Dev → Dev} (hrole : w.role < role) (hi : exec i s = s.onDev fun d => d.lcAsk id role key f) :
      gives i s (s.dev.cleared.reply cRoleInsufficient) := gives_of_onDev hs hi (Dev.lcAsk_refused hw hrole)
  refine ⟨fun e => lcShip_ships hs hw hfw, fun key => lcClaim_claims hs hw hfw, fun bs => lcReturn_returns hs hw,
    fun bs => lcScrap_leavesOwned hs hw, fun bs => lcScrap_destroys hs hw, tapUnlock_opens hs hw hfw, fun nonce hlen => ?_, ?_⟩
  · refine gives_of_onDev hs (exec_attestNonce id nonce s) ?_
    rw [Dev.nonceWrite, show s.dev.cleared.session? id = some w from hw]
    exact if_neg fun h => h hlen
  · rintro i key hrole (rfl | rfl | rfl | rfl)
    · exact hrefused hrole (exec_lcClaim id key s)
    · exact hrefused hrole (exec_lcReturn id key s)
    · exact hrefused hrole (exec_lcScrap id key s)
    · exact hrefused (Nat.lt_succ_of_lt hrole) (exec_lcShip id key s)

end Sys2Proof.Machine
end

section
/-! O49: the CORE clock, power and thermal samples, staggered steps (R551, R552, R563, R564, R568, R569, R600). -/

namespace Sys2Proof.Machine

theorem exec_coreClockWrite (khz : Nat) (quiesce : Bool) (s : State) :
    exec (.coreClockWrite khz quiesce) s = s.onDev fun d => d.clockWrite khz quiesce := rfl

/-- The device that knows VCORE at its target. -/
def Dev.vcoreReached (d : Dev) : Dev := { d with pow := { d.pow with vcoreMet := true } }

/-- The device whose raise of the clock has ended its wait. -/
def Dev.raiseEnded (d : Dev) : Dev := { d with pow := { d.pow with awaiting := none } }

/-- VCORE has stayed at its target. -/
def Dev.targetMet (d : Dev) : Dev :=
  match d.pow.awaiting with
  | some (khz, _, _) => ((d.vcoreReached.raiseEnded.setObj 0x2103 1 khz).setObj 0x2100 1 khz).setObj 0x2100 0xB 0
  | none =>
    if d.pow.mgmt ≠ 2 then d.vcoreReached
    else if d.objD 0x2100 0xB 0 = 1 then d.vcoreReached.clockRise
    else d.vcoreReached.setObj 0x2103 1 d.askedClock

theorem exec_vcoreTargetMet (s : State) : exec .vcoreTargetMet s = s.onDev Dev.targetMet := by
  show execVcoreTargetMet s = _
  unfold execVcoreTargetMet
  congr 1

/-- VCORE has missed its target. -/
def Dev.targetMissed (d : Dev) : Dev :=
  match d.pow.awaiting with
  | some (_, _, target) => (d.raiseEnded.setObj 0x2100 2 target).reply cBusy
  | none =>
    if d.pow.mgmt ≠ 2 ∨ d.clock = d.askedClock ∨ d.pow.vcoreMet ∨ d.objD 0x2100 0xB 0 = 1 then d
    else (d.setObj 0x2100 0xB 1).powerEvent 1

theorem exec_vcoreTargetTimeout (s : State) : exec .vcoreTargetTimeout s = s.onDev Dev.targetMissed := rfl

theorem exec_powerSample (watts vcore : Nat) (s : State) :
    exec (.powerSample watts vcore) s = s.onDev fun d => d.powerSample watts vcore := rfl

theorem exec_thermalSample (logic stack tier2 : List Int) (hotPkgs : Nat) (s : State) :
    exec (.thermalSample logic stack tier2 hotPkgs) s = s.onDev fun d => d.thermalSample logic stack tier2 hotPkgs := rfl

theorem exec_eventRateSecond (s : State) : exec .eventRateSecond s = s.onDev fun d => { d with log := { d.log with second := [] } } := rfl

/-! ### Objects past the event counters (R598 to R600) -/

section
variable {d : Dev} {i u x : Nat} (hpast : okey 0x1802 0 < okey i u)
include hpast

/-- Raising a code counts among the classes of codes only. -/
theorem Dev.objD_raised {code : Nat} (hcode : code < 0x10000) : (d.raised code).objD i u x = d.objD i u x := by
  refine Dev.objD_bump_other _ _ _ _ _ _ _ ?_
  unfold okey at *
  omega

theorem Dev.objD_reply {code : Nat} (hcode : code < 0x10000) : (d.reply code).objD i u x = d.objD i u x := by
  unfold Dev.reply
  split
  · rfl
  · exact Dev.objD_raised hpast hcode

/-- A record counts among the log's own counters only. -/
theorem Dev.objD_record (code : Code) (unit kind ctx logical physical : Nat) (cell : Bool) (d0 d1 : Nat) :
    (d.record code unit kind ctx logical physical cell d0 d1).objD i u x = d.objD i u x := by
  have hcounts (k : Nat) (hk : k ≤ 8) : (d.bump 0x1800 k 1).objD i u x = d.objD i u x := by
    refine Dev.objD_bump_other _ _ _ _ _ _ _ ?_
    unfold okey at *
    omega
  unfold Dev.record
  dsimp only
  split
  · exact hcounts 7 (by decide)
  · split
    · exact hcounts 6 (by decide)
    · rfl

theorem Dev.objD_eventDev {code : Nat} (hcode : code < 0x10000) (unit kind d0 d1 : Nat) :
    (d.eventDev code unit kind d0 d1).objD i u x = d.objD i u x :=
  (Dev.objD_record hpast ..).trans (Dev.objD_raised hpast hcode)

theorem Dev.objD_powerEvent (n : Nat) : (d.powerEvent n).objD i u x = d.objD i u x :=
  Dev.objD_eventDev hpast (Config.powerCode n).isLt ..

end

theorem Dev.powerEvent_frame (d : Dev) (n : Nat) : ∃ objs log out, d.powerEvent n = { d with objs := objs, log := log, out := out } :=
  d.eventDev_frame ..

/-- An alert sets alert.cause and moves the pin. -/
theorem Dev.alert_frame (d : Dev) (cause : Nat) : ∃ v n since out,
    d.alert cause = { d.setObj 0x6104 1 v with alertN := n, alertSince := since, out := out } := by
  obtain ⟨n, since, out, h⟩ := (d.setObj 0x6104 1 ((d.objD 0x6104 1 0).lor (2 ^ cause))).alertUpdate_frame
  exact ⟨_, n, since, out, h⟩

@[simp] theorem State.closing_clock (s : State) (d : Dev) : (s.closing d).dev.clock = d.clock := State.closing_objD ..

/-! ### The CORE clock (R551, R552) -/

/-- A lower clock is in force at once, with its target. -/
theorem coreClockWrite_lowers {s : State} {khz : Nat} (hs : clocked s) (hok : s.dev.clockCheck khz false = none) (hlow : khz ≤ s.dev.clock) :
    ∃ t, exec (.coreClockWrite khz false) s = .next t ∧ t.dev.clock = khz ∧ t.dev.objD 0x2100 1 0 = khz
      ∧ t.dev.objD 0x2100 2 0 = targetFor khz ∧ t.dev.pow = s.dev.pow ∧ ∀ e, t.dev.core e = s.dev.core e := by
  have hwrite : s.dev.cleared.clockWrite khz false = (((s.dev.cleared.setObj 0x2103 1 khz).setObj 0x2100 1 khz).setObj 0x2100 2
      (targetFor khz)).setObj 0x2100 0xB 0 := by
    have hok' : s.dev.cleared.clockCheck khz false = none := hok
    have hlow' : khz ≤ s.dev.cleared.clock := hlow
    simp only [Dev.clockWrite, hok', if_pos hlow']
  refine ⟨_, gives_of_onDev hs (exec_coreClockWrite ..) hwrite, ?_⟩
  simp only [State.closing_clock, State.closing_objD, State.closing_pow]
  refine ⟨?_, ?_, ?_, rfl, fun e => State.closing_core ..⟩
  · simp [Dev.clock, okey]
  · simp [okey]
  · simp [okey]

/-- A higher clock waits for VCORE. -/
theorem coreClockWrite_awaits {s : State} {khz : Nat} (hs : clocked s) (hok : s.dev.clockCheck khz false = none) (hhigh : s.dev.clock < khz) :
    ∃ t, exec (.coreClockWrite khz false) s = .next t ∧ t.dev.clock = s.dev.clock ∧ t.dev.answer = cPending
      ∧ t.dev.objD 0x2100 2 0 = targetFor khz ∧ t.dev.pow.awaiting = some (khz, s.dev.clock, s.dev.objD 0x2100 2 700) := by
  have hwrite : s.dev.cleared.clockWrite khz false = { s.dev.cleared.setObj 0x2100 2 (targetFor khz) with
      pow := { s.dev.pow with awaiting := some (khz, s.dev.clock, s.dev.objD 0x2100 2 700), vcoreMet := false }, answer := cPending } := by
    have hok' : s.dev.cleared.clockCheck khz false = none := hok
    have hhigh' : ¬ khz ≤ s.dev.cleared.clock := Nat.not_le.2 hhigh
    simp only [Dev.clockWrite, hok', if_neg hhigh']
    rfl
  refine ⟨_, gives_of_onDev hs (exec_coreClockWrite ..) hwrite, ?_⟩
  rw [State.closing_clock, State.closing_answer, State.closing_objD, State.closing_pow]
  refine ⟨?_, rfl, ?_, rfl⟩
  · exact (Dev.objD_setObj ..).trans (if_neg (by decide))
  · exact (Dev.objD_setObj ..).trans (if_pos rfl)

section
variable {s : State} (hs : clocked s)
include hs

/-- A raise that waited is applied when the target is met. -/
theorem vcoreTargetMet_raises {khz clock target : Nat} (hwait : s.dev.pow.awaiting = some (khz, clock, target)) :
    ∃ t, exec .vcoreTargetMet s = .next t ∧ t.dev.clock = khz ∧ t.dev.objD 0x2100 1 0 = khz ∧ t.dev.pow.awaiting = none
      ∧ t.dev.pow.vcoreMet = true := by
  have hmet : s.dev.cleared.targetMet
      = ((s.dev.cleared.vcoreReached.raiseEnded.setObj 0x2103 1 khz).setObj 0x2100 1 khz).setObj 0x2100 0xB 0 := by
    have hwait' : s.dev.cleared.pow.awaiting = some (khz, clock, target) := hwait
    rw [Dev.targetMet, hwait']
  refine ⟨_, gives_of_onDev hs (exec_vcoreTargetMet s) hmet, ?_⟩
  simp only [State.closing_clock, State.closing_objD, State.closing_pow]
  refine ⟨?_, ?_, rfl, rfl⟩
  · simp [Dev.clock, okey]
  · simp [okey]

/-- A raise that waited is undone when the target is missed. -/
theorem vcoreTargetTimeout_undoes {khz clock target : Nat} (hwait : s.dev.pow.awaiting = some (khz, clock, target)) :
    ∃ t, exec .vcoreTargetTimeout s = .next t ∧ t.dev.clock = s.dev.clock ∧ t.dev.objD 0x2100 2 0 = target ∧ t.dev.pow.awaiting = none
      ∧ t.dev.answer = cBusy := by
  have hmissed : s.dev.cleared.targetMissed
      = (s.dev.cleared.raiseEnded.setObj 0x2100 2 target).reply cBusy := by
    have hwait' : s.dev.cleared.pow.awaiting = some (khz, clock, target) := hwait
    rw [Dev.targetMissed, hwait']
  obtain ⟨_, hreply⟩ := Dev.reply_frame (s.dev.cleared.raiseEnded.setObj 0x2100 2 target) cBusy
  refine ⟨_, gives_of_onDev hs (exec_vcoreTargetTimeout s) hmissed, ?_⟩
  rw [State.closing_clock, State.closing_objD, State.closing_pow, State.closing_answer]
  refine ⟨?_, ?_, by rw [hreply]; rfl, by rw [hreply]⟩
  · rw [Dev.clock, Dev.objD_reply (by decide) (by decide), Dev.objD_setObj, if_neg (by decide)]
    rfl
  · rw [Dev.objD_reply (by decide) (by decide), Dev.objD_setObj, if_pos rfl]

section
variable (hnone : s.dev.pow.awaiting = none) (hfw : s.dev.pow.mgmt = 2) (hfree : s.dev.objD 0x2100 0xB 0 ≠ 1)
include hnone hfw hfree

/-- A start's clock rises when its target is met. -/
theorem vcoreTargetMet_starts : ∃ t, exec .vcoreTargetMet s = .next t ∧ t.dev.clock = s.dev.askedClock ∧ t.dev.pow.vcoreMet = true := by
  have hmet : s.dev.cleared.targetMet = s.dev.cleared.vcoreReached.setObj 0x2103 1 s.dev.askedClock := by
    have hnone' : s.dev.cleared.pow.awaiting = none := hnone
    rw [Dev.targetMet, hnone']
    exact (if_neg (not_not.2 hfw)).trans (if_neg hfree)
  refine ⟨_, gives_of_onDev hs (exec_vcoreTargetMet s) hmet, ?_⟩
  rw [State.closing_clock, State.closing_pow]
  exact ⟨(Dev.objD_setObj ..).trans (if_pos rfl), rfl⟩

/-- A start's clock stays limited when its target is missed. -/
theorem vcoreTargetTimeout_limits (hclock : s.dev.clock ≠ s.dev.askedClock) (hmiss : s.dev.pow.vcoreMet = false) :
    ∃ t, exec .vcoreTargetTimeout s = .next t ∧ t.dev.objD 0x2100 0xB 0 = 1 ∧ t.dev.clock = s.dev.clock := by
  have hmissed : s.dev.cleared.targetMissed = (s.dev.cleared.setObj 0x2100 0xB 1).powerEvent 1 := by
    have hnone' : s.dev.cleared.pow.awaiting = none := hnone
    rw [Dev.targetMissed, hnone']
    refine if_neg ?_
    rintro (h | h | h | h)
    · exact h hfw
    · exact hclock h
    · exact absurd (hmiss.symm.trans h) (by decide)
    · exact hfree h
  refine ⟨_, gives_of_onDev hs (exec_vcoreTargetTimeout s) hmissed, ?_⟩
  rw [State.closing_clock, State.closing_objD, Dev.clock, Dev.objD_powerEvent (by decide), Dev.objD_powerEvent (by decide),
    Dev.objD_setObj, Dev.objD_setObj, if_pos rfl, if_neg (by decide)]
  exact ⟨rfl, rfl⟩

end

end

/-- A target is within 550 to 750 mV. -/
theorem targetFor_range (khz : Nat) : 550 ≤ targetFor khz ∧ targetFor khz ≤ 750 := by
  unfold targetFor
  omega

/-! ### Power samples (R564) -/

/-- The device that has taken a sample's readings. -/
def Dev.measuredPower (d : Dev) (watts vcore : Nat) : Dev :=
  if vcore < ((d.setObj 0x2100 5 watts).setObj 0x2100 3 vcore).objD 0x2100 2 700 then
    { (d.setObj 0x2100 5 watts).setObj 0x2100 3 vcore with pow := { d.pow with vcoreMet := false } }
  else (d.setObj 0x2100 5 watts).setObj 0x2100 3 vcore

/-- The level that a sample above the cap gives. -/
def Dev.raisedCap (d : Dev) : Nat := min d.capMax ((if d.objD 0x2100 6 0 = 1 then d.pow.cap else max d.pow.cap d.pow.limit) + 1)

/-- A sample above the cap: the level rises, and the first one is counted and alerts. -/
def Dev.overCap (d : Dev) : Dev :=
  if d.pow.cap = 0 then ({ d with pow := { d.pow with cap := d.raisedCap, below := 0 } }.bump 0x2100 8 1).alert 1
  else { d with pow := { d.pow with cap := d.raisedCap, below := 0 } }

/-- What the power manager makes of a sample. -/
def Dev.judgedPower (d : Dev) (watts : Nat) : Dev :=
  if d.objD 0x2100 4 d.gradePower < watts then d.overCap
  else if 100 * watts < 98 * d.objD 0x2100 4 d.gradePower then
    let lower := decide (100 ≤ d.pow.below + 1) && (d.pow.below + 1) % 10 = 0
    { d with pow := { d.pow with
      below := d.pow.below + 1, cap := if lower then d.pow.cap - 1 else d.pow.cap, limit := if lower then d.pow.limit - 1 else d.pow.limit } }
  else { d with pow := { d.pow with below := 0 } }

theorem Dev.powerSample_eq (d : Dev) (watts vcore : Nat) : d.powerSample watts vcore = (d.measuredPower watts vcore).judgedPower watts := rfl

theorem Dev.measuredPower_frame (d : Dev) (watts vcore : Nat) : ∃ met,
    d.measuredPower watts vcore = { (d.setObj 0x2100 5 watts).setObj 0x2100 3 vcore with pow := { d.pow with vcoreMet := met } } := by
  unfold Dev.measuredPower
  split
  · exact ⟨false, rfl⟩
  · exact ⟨d.pow.vcoreMet, rfl⟩

theorem Dev.overCap_pow (d : Dev) : d.overCap.pow = { d.pow with cap := d.raisedCap, below := 0 } := by
  unfold Dev.overCap
  split
  · obtain ⟨_, _, _, _, h⟩ := ({ d with pow := { d.pow with cap := d.raisedCap, below := 0 } }.bump 0x2100 8 1).alert_frame 1
    rw [h, Dev.bump_frame]
    rfl
  · rfl

theorem Dev.overCap_keeps (d : Dev) : (∀ u x, u ≤ 7 → d.overCap.objD 0x2100 u x = d.objD 0x2100 u x) ∧ ∀ e, d.overCap.core e = d.core e := by
  unfold Dev.overCap
  split
  · obtain ⟨v, _, _, _, h⟩ := ({ d with pow := { d.pow with cap := d.raisedCap, below := 0 } }.bump 0x2100 8 1).alert_frame 1
    rw [h]
    refine ⟨fun u x hu => ?_, fun e => (Dev.core_bump ..)⟩
    have halert : okey 0x2100 u ≠ okey 0x6104 1 := by unfold okey; omega
    have hcount : okey 0x2100 u ≠ okey 0x2100 8 := by unfold okey; omega
    refine ((Dev.objD_setObj ..).trans (if_neg halert)).trans ?_
    exact Dev.objD_bump_other _ _ _ _ _ _ _ hcount
  · exact ⟨fun _ _ _ => rfl, fun _ => rfl⟩

theorem Dev.judgedPower_keeps (d : Dev) (watts : Nat) :
    (∀ u x, u ≤ 7 → (d.judgedPower watts).objD 0x2100 u x = d.objD 0x2100 u x) ∧ ∀ e, (d.judgedPower watts).core e = d.core e := by
  unfold Dev.judgedPower
  split
  · exact d.overCap_keeps
  · split
    · exact ⟨fun _ _ _ => rfl, fun _ => rfl⟩
    · exact ⟨fun _ _ _ => rfl, fun _ => rfl⟩

section
variable {s : State} (hs : clocked s)
include hs

/-- A sample keeps its readings; above the cap the level rises, just below it the level stays. -/
theorem powerSample_caps (watts vcore : Nat) : ∃ t, exec (.powerSample watts vcore) s = .next t ∧ t.dev.objD 0x2100 5 0 = watts
    ∧ t.dev.objD 0x2100 3 0 = vcore
    ∧ (s.dev.objD 0x2100 4 s.dev.gradePower < watts → s.dev.objD 0x2100 6 0 ≠ 1 →
        t.dev.pow.cap = min 15 (max s.dev.pow.cap s.dev.pow.limit + 1) ∧ t.dev.pow.below = 0 ∧ t.dev.pow.limit = s.dev.pow.limit)
    ∧ (98 * s.dev.objD 0x2100 4 s.dev.gradePower ≤ 100 * watts → watts ≤ s.dev.objD 0x2100 4 s.dev.gradePower →
        t.dev.pow.cap = s.dev.pow.cap ∧ t.dev.pow.below = 0)
    ∧ ∀ e, t.dev.core e = s.dev.core e := by
  refine ⟨_, gives_of_onDev hs (exec_powerSample ..) (Dev.powerSample_eq ..), ?_⟩
  obtain ⟨met, hmeasured⟩ := s.dev.cleared.measuredPower_frame watts vcore
  generalize s.dev.cleared.measuredPower watts vcore = m at hmeasured ⊢
  have hobj (u x : Nat) : m.objD 0x2100 u x = if okey 0x2100 u = okey 0x2100 3 then vcore else if okey 0x2100 u = okey 0x2100 5 then watts
      else s.dev.objD 0x2100 u x := by
    rw [hmeasured]
    exact (Dev.objD_setObj ..).trans (if_congr .rfl rfl (Dev.objD_setObj ..))
  have hpow : m.pow = { s.dev.pow with vcoreMet := met } := by rw [hmeasured]; rfl
  have hcapW : m.objD 0x2100 4 m.gradePower = s.dev.objD 0x2100 4 s.dev.gradePower := by
    have hgrade : m.gradePower = s.dev.gradePower := by rw [hmeasured]; rfl
    rw [hgrade]
    exact hobj 4 _
  obtain ⟨hkeeps, hcores⟩ := m.judgedPower_keeps watts
  rw [State.closing_objD, State.closing_objD, State.closing_pow, hkeeps 5 0 (by decide), hkeeps 3 0 (by decide), hobj, hobj]
  refine ⟨rfl, rfl, fun hover hpolicy => ?_, fun hnear hunder => ?_, fun e => ?_⟩
  · have hpolicy' : m.objD 0x2100 6 0 ≠ 1 := by rw [hobj]; exact hpolicy
    rw [Dev.judgedPower, if_pos (hcapW ▸ hover), Dev.overCap_pow, Dev.raisedCap, Dev.capMax, if_neg hpolicy', if_neg hpolicy', hpow]
    exact ⟨rfl, rfl, rfl⟩
  · rw [Dev.judgedPower, hcapW, if_neg (Nat.not_lt.2 hunder), if_neg (Nat.not_lt.2 hnear), hpow]
    exact ⟨rfl, rfl⟩
  · rw [State.closing_core, hcores, hmeasured]
    rfl

end

/-! ### Thermal samples (R568, R569) -/

/-- A sample leaves a sensor's level within the scale. -/
theorem heat_le (old : Nat × Nat) (t hi lo : Int) (h : old.1 ≤ 15) : (heat old t hi lo).1 ≤ 15 := by
  unfold heat
  split
  · split
    · decide
    · split
      · exact Nat.min_le_left ..
      · exact h
  · split
    · split
      · exact (Nat.sub_le ..).trans h
      · exact h
    · exact h

/-- The device with a sample's temperatures in their objects. -/
def Dev.readings (d : Dev) (logic stack tier2 : List Int) : Dev :=
  (logic.take 64).zipIdx.foldl (fun d p => d.setObj 0x2102 (p.2 + 1) (i16 p.1))
    (((d.setObj 0x2101 1 (i16 (hottest logic))).setObj 0x2101 5 (i16 (hottest stack))).setObj 0x2101 6 (i16 (hottest tier2)))

/-- The device that keeps a sample's levels and warm dies and counts the sensors that became hot. -/
def Dev.heatKept (d : Dev) (logic stack : List Int) (hotPkgs : Nat) (all warned : Bool) (new : Nat) : Dev :=
  { d.setObj 0x3000 5 (b2n !(d.warmAfter stack).isEmpty) with pow := { d.pow with
    hot := d.heated logic stack, hotAll := all, warned := warned, warmDies := d.warmAfter stack, hotPkgs := hotPkgs } }.bump 0x2101 8 new

/-- A junction temperature above the warning is counted, recorded and alerts (R568). -/
def Dev.warnsHot (d : Dev) : Dev := ((d.bump 0x2101 7 1).powerEvent 2).alert 0

theorem Dev.thermalSample_cases (d : Dev) (logic stack tier2 : List Int) (hotPkgs : Nat) : ∃ rise all warned new,
    d.thermalSample logic stack tier2 hotPkgs = if rise = true then ((d.readings logic stack tier2).heatKept logic stack hotPkgs all warned new).warnsHot
      else (d.readings logic stack tier2).heatKept logic stack hotPkgs all warned new :=
  ⟨_, _, _, _, rfl⟩

/-- The readings change objects only. -/
theorem Dev.readings_keeps (d : Dev) (logic stack tier2 : List Int) :
    (d.readings logic stack tier2).pow = d.pow ∧ ∀ e, (d.readings logic stack tier2).core e = d.core e := by
  unfold Dev.readings
  refine ⟨foldl_unchanged Dev.pow (fun d p => ?_) _ _, fun e => foldl_unchanged (Dev.core · e) (fun d p => ?_) _ _⟩
  · rfl
  · rfl

theorem Dev.readings_junction (d : Dev) (logic stack tier2 : List Int) : (d.readings logic stack tier2).objD 0x2101 1 0 = i16 (hottest logic) := by
  have hsensors (e : Dev) (p : Int × Nat) : (e.setObj 0x2102 (p.2 + 1) (i16 p.1)).objD 0x2101 1 0 = e.objD 0x2101 1 0 := by
    refine (Dev.objD_setObj ..).trans (if_neg ?_)
    unfold okey
    omega
  refine (foldl_unchanged (Dev.objD · 0x2101 1 0) hsensors _ _).trans ?_
  simp [okey]

theorem Dev.heatKept_keeps (d : Dev) (logic stack : List Int) (hotPkgs : Nat) (all warned : Bool) (new : Nat) :
    (d.heatKept logic stack hotPkgs all warned new).pow = { d.pow with
      hot := d.heated logic stack, hotAll := all, warned := warned, warmDies := d.warmAfter stack, hotPkgs := hotPkgs }
    ∧ (∀ e, (d.heatKept logic stack hotPkgs all warned new).core e = d.core e)
    ∧ (d.heatKept logic stack hotPkgs all warned new).objD 0x2101 1 0 = d.objD 0x2101 1 0
    ∧ (d.heatKept logic stack hotPkgs all warned new).objD 0x3000 5 0 = b2n !(d.warmAfter stack).isEmpty := by
  unfold Dev.heatKept
  refine ⟨by rw [Dev.bump_frame], fun e => Dev.core_bump .., ?_, ?_⟩
  · exact (Dev.objD_bump_other _ _ _ _ _ _ _ (by decide)).trans ((Dev.objD_setObj ..).trans (if_neg (by decide)))
  · exact (Dev.objD_bump_other _ _ _ _ _ _ _ (by decide)).trans ((Dev.objD_setObj ..).trans (if_pos rfl))

/-- A warning changes neither the readings nor the levels. -/
theorem Dev.warnsHot_keeps (d : Dev) : d.warnsHot.pow = d.pow ∧ (∀ e, d.warnsHot.core e = d.core e)
    ∧ d.warnsHot.objD 0x2101 1 0 = d.objD 0x2101 1 0 ∧ d.warnsHot.objD 0x3000 5 0 = d.objD 0x3000 5 0 := by
  obtain ⟨v, n, since, out, halert⟩ := ((d.bump 0x2101 7 1).powerEvent 2).alert_frame 0
  obtain ⟨objs, log, out', hevent⟩ := (d.bump 0x2101 7 1).powerEvent_frame 2
  have hobj (i u : Nat) (hpast : okey 0x1802 0 < okey i u) (hcause : okey i u ≠ okey 0x6104 1) (hcount : okey i u ≠ okey 0x2101 7) :
      d.warnsHot.objD i u 0 = d.objD i u 0 := by
    rw [Dev.warnsHot, halert]
    refine ((Dev.objD_setObj ..).trans (if_neg hcause)).trans ((Dev.objD_powerEvent hpast 2).trans ?_)
    exact Dev.objD_bump_other _ _ _ _ _ _ _ hcount
  refine ⟨?_, fun e => ?_, hobj _ _ (by decide) (by decide) (by decide), hobj _ _ (by decide) (by decide) (by decide)⟩
  · rw [Dev.warnsHot, halert, hevent, Dev.bump_frame]
    rfl
  · rw [Dev.warnsHot, halert, hevent]
    exact Dev.core_bump ..

/-- A sample keeps the readings, the sensors' levels and the dies that refresh at the extended rate. -/
theorem thermalSample_keeps {s : State} (hs : clocked s) (logic stack tier2 : List Int) (hotPkgs : Nat) :
    ∃ t, exec (.thermalSample logic stack tier2 hotPkgs) s = .next t
      ∧ t.dev.pow.hot = s.dev.heated logic stack ∧ t.dev.pow.hotPkgs = hotPkgs ∧ t.dev.objD 0x2101 1 0 = i16 (hottest logic)
      ∧ t.dev.pow.warmDies = s.dev.warmAfter stack ∧ t.dev.objD 0x3000 5 0 = b2n !(s.dev.warmAfter stack).isEmpty
      ∧ ∀ e, t.dev.core e = s.dev.core e := by
  refine ⟨_, gives_of_onDev hs (exec_thermalSample ..) rfl, ?_⟩
  rw [State.closing_pow, State.closing_objD, State.closing_objD]
  obtain ⟨hpow, hcores⟩ := s.dev.cleared.readings_keeps logic stack tier2
  have hjunction := s.dev.cleared.readings_junction logic stack tier2
  obtain ⟨rise, all, warned, new, hcases⟩ := s.dev.cleared.thermalSample_cases logic stack tier2 hotPkgs
  generalize s.dev.cleared.readings logic stack tier2 = r at hpow hcores hjunction hcases
  have hheated : r.heated logic stack = s.dev.heated logic stack := by unfold Dev.heated; rw [hpow]; rfl
  have hwarm : r.warmAfter stack = s.dev.warmAfter stack := by unfold Dev.warmAfter; rw [hpow]; rfl
  obtain ⟨hkpow, hkcore, hkjunction, hkwarm⟩ := r.heatKept_keeps logic stack hotPkgs all warned new
  generalize r.heatKept logic stack hotPkgs all warned new = k at hkpow hkcore hkjunction hkwarm hcases
  obtain ⟨hp, hc, hj, hw⟩ := k.warnsHot_keeps
  rw [hjunction] at hkjunction
  rw [hwarm] at hkwarm
  rw [hcases]
  split
  · rw [hp, hkpow, hj, hw, hkjunction, hkwarm]
    exact ⟨hheated, rfl, rfl, hwarm, rfl, fun e => (State.closing_core ..).trans ((hc e).trans ((hkcore e).trans (hcores e)))⟩
  · rw [hkpow, hkjunction, hkwarm]
    exact ⟨hheated, rfl, rfl, hwarm, rfl, fun e => (State.closing_core ..).trans ((hkcore e).trans (hcores e))⟩

/-! ### Staggered steps (R563, R565) -/

/-- Placing cores in the count gives each one its own place, whichever others are placed. -/
theorem Dev.place_foldl {place : CoreId → Nat} {e : CoreId} (he : e.x < 64) {cs : List CoreId} (hcs : ∀ c ∈ cs, c.x < 64) {d : Dev}
    (h : e ∈ cs ∨ (d.arch e).stat.place = place e) :
    ((cs.foldl (fun d c => d.updStat c fun s => { s with place := place c }) d).arch e).stat.place = place e := by
  induction cs generalizing d with
  | nil => simpa using h
  | cons c cs ih =>
    refine ih (fun b hb => hcs b (List.mem_cons_of_mem _ hb)) ?_
    by_cases hec : e = c
    · subst hec
      exact .inr (by rw [Dev.arch_updStat])
    · refine h.imp (fun hmem => (List.mem_cons.1 hmem).resolve_left hec) fun hplace => ?_
      have hkey : ckey e ≠ ckey c := fun hk => hec (ckey_injective he (hcs c (List.mem_cons_self ..)) hk)
      rw [Dev.arch, Dev.core_updStat, if_neg hkey]
      exact hplace

/-- The cores of a region that begin a step go on from one place of the count, each at its column's offset. -/
theorem Dev.staggered_places {d : Dev} {n num : Nat} {r : RegionRec} {cs : List CoreId}
    (hr : ((d.ctx n).image.regions.find? fun q => q.region = num) = some r) (hne : cs ≠ []) (hcs : ∀ c ∈ cs, c.x < 64) :
    d.coreNow ≤ (d.staggered n num cs).coreCount
      ∧ ∀ c ∈ cs, ((d.staggered n num cs).arch c).stat.place = (d.staggered n num cs).coreCount + 16 * (c.x / 2 - r.cx0) / r.cw := by
  have hfold : d.staggered n num cs = cs.foldl (fun e c => e.updStat c fun s => { s with place := d.coreNow + d.fresh.1 + r.offset c })
      { d.fresh.2 with coreCount := d.coreNow + d.fresh.1 } := by
    simp only [Dev.staggered, hr, List.isEmpty_iff, if_neg hne]
    rfl
  have hcount : (d.staggered n num cs).coreCount = d.coreNow + d.fresh.1 := by
    rw [hfold, Dev.foldl_updStat_frame (fun c s => { s with place := d.coreNow + d.fresh.1 + r.offset c })]
  rw [hcount]
  refine ⟨Nat.le_add_right .., fun c hc => ?_⟩
  rw [hfold]
  exact Dev.place_foldl (place := fun c => d.coreNow + d.fresh.1 + r.offset c) (hcs c hc) hcs (.inl hc)

/-- Settles O49, one named lemma for each command. -/
theorem powerAndClocks : Obligations.PowerAndClocks := by
  unfold Obligations.PowerAndClocks
  intro s hs
  refine ⟨fun khz hok => ⟨coreClockWrite_lowers hs hok, coreClockWrite_awaits hs hok⟩,
    fun khz clock target hwait => ⟨vcoreTargetMet_raises hs hwait, vcoreTargetTimeout_undoes hs hwait⟩,
    fun hnone hfw hfree => ⟨vcoreTargetMet_starts hs hnone hfw hfree, vcoreTargetTimeout_limits hs hnone hfw hfree⟩,
    targetFor_range, powerSample_caps hs, thermalSample_keeps hs, heat_le, fun n num r cs => Dev.staggered_places, ?_⟩
  exact gives_of_onDev hs (exec_eventRateSecond s) rfl

end Sys2Proof.Machine
end

section
/-! The boot chain: the boot ROM, management firmware and the memory test (R410, R499, R530, R531, R551, R557, R559 to R561). -/

namespace Sys2Proof.Machine

theorem exec_mgmtResetRelease (s : State) : exec .mgmtResetRelease s = s.onDev Dev.bootRom := rfl

theorem exec_mgmtFwRun (mapOk : Bool) (s : State) : exec (.mgmtFwRun mapOk) s = s.onDev fun d => d.firmwareRuns mapOk := rfl

theorem exec_memoryTestComplete (f : TestFinds) (s : State) : exec (.memoryTestComplete f) s = s.onDev fun d => d.testFinds f := rfl

/-- The part of memory initialisation that ends with it. -/
def Dev.initEnds (d : Dev) : Dev := if d.objD 0x2104 2 1 ≠ 2 then d else d.setObj 0x2104 2 3

theorem exec_memoryInitComplete (s : State) : exec .memoryInitComplete s = s.onDev Dev.initEnds := rfl

/-! ### Refused images (R529, R544) -/

/-- A refusal changes counters, the log, the outputs and the answer. -/
theorem Dev.imageRefused_frame (d : Dev) (code : Code) : ∃ objs log out,
    d.imageRefused code = { d with objs := objs, log := log, out := out, answer := code } := by
  obtain ⟨objs, log, out, h⟩ := (d.bump 0x7000 0xA 1).eventDev_frame code 15 1 0 0
  refine ⟨objs, log, out, ?_⟩
  rw [Dev.imageRefused, h, Dev.bump_frame]

/-! ### The boot ROM (R529 to R531) -/

/-- The device whose store notes the slot that a start tries. -/
def Dev.tries (d : Dev) (b : Bool) : Dev := d.updStore fun t => { t with tried := some b }

/-- The device that runs the image of a slot. -/
def Dev.boots (d : Dev) (b : Bool) : Dev :=
  { (d.updStore fun t => { t with mgmt := { t.mgmt with inForce := b } }) with pow := { d.pow with mgmt := 1 } }

@[simp] theorem Dev.core_tries (d : Dev) (b : Bool) (e : CoreId) : (d.tries b).core e = d.core e := rfl

@[simp] theorem Dev.core_boots (d : Dev) (b : Bool) (e : CoreId) : (d.boots b).core e = d.core e := rfl

section
variable {d : Dev} {m : SignedImage} (hreset : d.pow.mgmt = 0) (hrail : d.pow.railBad = false) (hlc : d.sec.fuses.lc ≠ 4)
  (hm : d.sec.store.mgmt.at_ d.sec.store.bootSlot = some m)
include hreset hrail hlc hm

/-- The boot ROM's choice turns on the checks of the image of the boot slot. -/
theorem Dev.bootRom_eq : d.bootRom = match (d.tries d.sec.store.bootSlot).sec.imageCheck 1 m with
    | some c => ((d.tries d.sec.store.bootSlot).imageRefused c).romAlone
    | none => (d.tries d.sec.store.bootSlot).boots d.sec.store.bootSlot := by
  have hruns : ¬ (d.pow.railBad = true ∨ d.sec.fuses.lc = 4 ∧ d.sec.store.erased = true) := by
    rintro (h | ⟨h, -⟩)
    · exact absurd (hrail.symm.trans h) (by decide)
    · exact hlc h
  unfold Dev.bootRom
  dsimp only
  rw [if_neg (not_not.2 hreset), if_neg hruns, hm]
  rfl

theorem Dev.bootRom_boots (hok : (d.tries d.sec.store.bootSlot).sec.imageCheck 1 m = none) :
    d.bootRom = (d.tries d.sec.store.bootSlot).boots d.sec.store.bootSlot := by
  rw [Dev.bootRom_eq hreset hrail hlc hm, hok]

theorem Dev.bootRom_refuses {code : Code} (hbad : (d.tries d.sec.store.bootSlot).sec.imageCheck 1 m = some code) :
    d.bootRom = ((d.tries d.sec.store.bootSlot).imageRefused code).romAlone := by
  rw [Dev.bootRom_eq hreset hrail hlc hm, hbad]

end

section
variable {s : State} {m : SignedImage} (hs : clocked s) (hreset : s.dev.pow.mgmt = 0) (hrail : s.dev.pow.railBad = false)
  (hlc : s.dev.sec.fuses.lc ≠ 4) (hm : s.dev.sec.store.mgmt.at_ s.dev.sec.store.bootSlot = some m)
include hs hreset hrail hlc hm

/-- An image that verifies starts, and its slot is in force. -/
theorem mgmtResetRelease_starts
    (hok : { s.dev.sec with store := { s.dev.sec.store with tried := some s.dev.sec.store.bootSlot } }.imageCheck 1 m = none) :
    ∃ t, exec .mgmtResetRelease s = .next t ∧ t.dev.pow.mgmt = 1 ∧ t.nv.store.mgmt.inForce = s.dev.sec.store.bootSlot
      ∧ t.nv.store.tried = some s.dev.sec.store.bootSlot ∧ t.nv.fuses = s.dev.sec.fuses ∧ ∀ e, t.dev.core e = s.dev.core e := by
  have hrom := Dev.bootRom_boots (d := s.dev.cleared) hreset hrail hlc hm hok
  refine ⟨_, gives_of_onDev hs (exec_mgmtResetRelease s) hrom, ?_⟩
  rw [State.closing_pow, State.closing_nv]
  refine ⟨rfl, rfl, rfl, rfl, fun e => (State.closing_core ..).trans ?_⟩
  exact (Dev.core_boots ..).trans (Dev.core_tries ..)

/-- A refused image leaves the boot ROM alone and the slots as they are. -/
theorem mgmtResetRelease_refuses {code : Code}
    (hbad : { s.dev.sec with store := { s.dev.sec.store with tried := some s.dev.sec.store.bootSlot } }.imageCheck 1 m = some code) :
    ∃ t, exec .mgmtResetRelease s = .next t ∧ t.dev.pow.mgmt = 3 ∧ t.dev.answer = code ∧ t.nv.store.mgmt = s.dev.sec.store.mgmt := by
  obtain ⟨_, _, _, hrefused⟩ := (s.dev.cleared.tries s.dev.sec.store.bootSlot).imageRefused_frame code
  have hrom := Dev.bootRom_refuses (d := s.dev.cleared) hreset hrail hlc hm hbad
  refine ⟨_, gives_of_onDev hs (exec_mgmtResetRelease s) (hrom.trans (congrArg Dev.romAlone hrefused)), ?_⟩
  rw [State.closing_pow, State.closing_answer, State.closing_nv]
  exact ⟨rfl, rfl, rfl⟩

end

/-! ### Management firmware (R410, R499, R530, R551) -/

/-- The work of management firmware once it runs. -/
def Dev.bringsUp (d : Dev) : Dev :=
  ((((({ d with rowMap := d.keep.rowMaps, fencesAt := d.keep.fences }.coreFirmware.loadPolicies).applySets.fullTest).clockTarget.setObj
    0x2800 2 1).setObj 0x2104 2 2).answers cOk)

theorem Dev.firmwareRuns_bringsUp {d : Dev} (hrom : d.pow.mgmt = 1) (hlc : d.sec.fuses.lc < 3) (mapOk : Bool) :
    d.firmwareRuns mapOk = ({ d with pow := { d.pow with mgmt := 2 } }.measured.mapRead mapOk).bringsUp := by
  have hkept : ¬ (3 ≤ d.sec.fuses.lc ∧ d.sec.store.erased = false) := fun h => absurd h.1 (by omega)
  have hserves : d.sec.fuses.lc ≠ 4 := by omega
  unfold Dev.firmwareRuns
  dsimp only
  rw [if_neg (not_not.2 hrom), if_neg hkept, if_neg hserves]
  rfl

/-- From device d to device e, a part of bringing the device up that changes neither the working copies nor the stored sets. -/
structure BringsUp (d e : Dev) : Prop where
  mgmt : e.pow.mgmt = d.pow.mgmt
  rowMap : e.rowMap = d.rowMap
  fencesAt : e.fencesAt = d.fencesAt
  keep : e.keep = d.keep
  cores : e.cores = d.cores
  saved : e.sec.store.saved = d.sec.store.saved
  resets : e.sec.store.resets = d.sec.store.resets

namespace BringsUp

theorem rfl {d : Dev} : BringsUp d d := ⟨.refl _, .refl _, .refl _, .refl _, .refl _, .refl _, .refl _⟩

theorem trans {a b c : Dev} (h : BringsUp a b) (g : BringsUp b c) : BringsUp a c :=
  ⟨g.mgmt.trans h.mgmt, g.rowMap.trans h.rowMap, g.fencesAt.trans h.fencesAt, g.keep.trans h.keep, g.cores.trans h.cores,
    g.saved.trans h.saved, g.resets.trans h.resets⟩

theorem foldl {α : Type} {f : Dev → α → Dev} (h : ∀ d x, BringsUp d (f d x)) (l : List α) (d : Dev) : BringsUp d (l.foldl f d) := by
  induction l generalizing d with
  | nil => exact .rfl
  | cons x l ih => exact (h d x).trans (ih _)

theorem updSec (d : Dev) {f : Sec → Sec} (hsaved : (f d.sec).store.saved = d.sec.store.saved)
    (hresets : (f d.sec).store.resets = d.sec.store.resets) : BringsUp d (d.updSec f) :=
  ⟨.refl _, .refl _, .refl _, .refl _, .refl _, hsaved, hresets⟩

theorem setObj (d : Dev) (i u v : Nat) : BringsUp d (d.setObj i u v) := ⟨.refl _, .refl _, .refl _, .refl _, .refl _, .refl _, .refl _⟩

theorem bump (d : Dev) (i u n : Nat) : BringsUp d (d.bump i u n) := by
  rw [Dev.bump_frame]
  exact ⟨.refl _, .refl _, .refl _, .refl _, .refl _, .refl _, .refl _⟩

theorem imageRefused (d : Dev) (code : Code) : BringsUp d (d.imageRefused code) := by
  obtain ⟨_, _, _, h⟩ := d.imageRefused_frame code
  rw [h]
  exact ⟨.refl _, .refl _, .refl _, .refl _, .refl _, .refl _, .refl _⟩

theorem measured (d : Dev) : BringsUp d d.measured := by
  unfold Dev.measured
  split
  · exact .rfl
  · exact updSec d (.refl _) (.refl _)

/-- The core firmware of a slot is in force. -/
theorem coreLoaded (d : Dev) (m : SignedImage) (b : Bool) (n : Nat) : BringsUp d (({ (d.updSec fun s => { s with
    coreDigest := m.digest, store := { s.store with core := { s.store.core with inForce := b } } }) with idleGear := true }).bump 0x4400 2 n) := by
  refine BringsUp.trans (b := { (d.updSec fun s => { s with
    coreDigest := m.digest, store := { s.store with core := { s.store.core with inForce := b } } }) with idleGear := true }) ?_ (.bump ..)
  exact ⟨.refl _, .refl _, .refl _, .refl _, .refl _, .refl _, .refl _⟩

theorem coreFirmware (d : Dev) : BringsUp d d.coreFirmware := by
  unfold Dev.coreFirmware
  dsimp only
  split
  · exact coreLoaded ..
  · have hother : BringsUp d (match (d.sec.store.core.at_ d.sec.store.core.next).bind fun m => d.sec.imageCheck 2 m with
        | some c => d.imageRefused c
        | none => d) := by
      split
      · exact .imageRefused ..
      · exact .rfl
    split
    · exact hother.trans (coreLoaded ..)
    · exact hother

theorem loadPolicies (d : Dev) : BringsUp d d.loadPolicies := by
  unfold Dev.loadPolicies
  refine .foldl (fun d p => ?_) _ _
  split
  · exact .imageRefused ..
  · exact updSec d (.refl _) (.refl _)

theorem clockTarget (d : Dev) : BringsUp d d.clockTarget := by
  have hpow : BringsUp d { d.setObj 0x2100 2 (targetFor d.askedClock) with pow := { d.pow with vcoreMet := false } } :=
    ⟨.refl _, .refl _, .refl _, .refl _, .refl _, .refl _, .refl _⟩
  unfold Dev.clockTarget
  dsimp only
  split
  · exact hpow.trans (.setObj ..)
  · exact hpow

/-- Empty stored sets change nothing. -/
theorem applySets {d : Dev} (hsaved : d.sec.store.saved = []) (hresets : d.sec.store.resets = []) : BringsUp d d.applySets := by
  have hset : d.applySets = d.updStore fun t => { t with resets := [] } := by
    unfold Dev.applySets
    dsimp only
    rw [hsaved, hresets]
    split
    · rfl
    · rfl
  rw [hset]
  exact updSec d (.refl _) hresets.symm

/-- The test that start.full_test asks for makes the start cold. -/
theorem fullTest {d : Dev} (hsaved : d.sec.store.saved = []) : BringsUp d d.fullTest := by
  have hcold (e : Dev) : BringsUp e (if e.pow.cold then { e with pow := { e.pow with keep2 := false }, ckpts := [], buddies := [] } else e) := by
    split
    · exact ⟨.refl _, .refl _, .refl _, .refl _, .refl _, .refl _, .refl _⟩
    · exact .rfl
  unfold Dev.fullTest
  refine BringsUp.trans ?_ (hcold _)
  split
  · refine ⟨.refl _, .refl _, .refl _, .refl _, .refl _, ?_, .refl _⟩
    show nmErase d.sec.store.saved _ = d.sec.store.saved
    rw [hsaved]
    rfl
  · exact .rfl

end BringsUp

/-- The row maps and the fences in force are set from the defect map. -/
def Dev.rowsSet (d : Dev) : Dev := { d with rowMap := d.keep.rowMaps, fencesAt := d.keep.fences }

theorem Dev.keep_rowsSet (d : Dev) : d.rowsSet.keep = d.keep := by unfold Dev.rowsSet; rfl

theorem Dev.cores_rowsSet (d : Dev) : d.rowsSet.cores = d.cores := by unfold Dev.rowsSet; rfl

/-- Management firmware works from the defect map that it has read; without stored sets nothing else of the start depends on the store. -/
theorem Dev.bringsUp_spec {d : Dev} (hsaved : d.sec.store.saved = []) (hresets : d.sec.store.resets = []) :
    ∃ e, BringsUp d.rowsSet e ∧ d.bringsUp = ((e.setObj 0x2800 2 1).setObj 0x2104 2 2).answers cOk := by
  have hloaded : BringsUp d.rowsSet d.rowsSet.coreFirmware.loadPolicies := (BringsUp.coreFirmware _).trans (.loadPolicies _)
  have hsaved' := hloaded.saved.trans hsaved
  have happlied := BringsUp.applySets hsaved' (hloaded.resets.trans hresets)
  exact ⟨_, ((hloaded.trans happlied).trans (.fullTest (happlied.saved.trans hsaved'))).trans (.clockTarget _), rfl⟩

@[simp] theorem State.closing_rowMap (s : State) (d : Dev) : (s.closing d).dev.rowMap = d.rowMap := by
  obtain ⟨_, _, _, _, _, h⟩ := s.closing_dev d; rw [h]

@[simp] theorem State.closing_fencesAt (s : State) (d : Dev) : (s.closing d).dev.fencesAt = d.fencesAt := by
  obtain ⟨_, _, _, _, _, h⟩ := s.closing_dev d; rw [h]

@[simp] theorem Dev.core_enterService (d : Dev) (e : CoreId) : d.enterService.core e = d.core e := rfl

/-- A test that finds nothing changes only what the loss of checkpoints and the entry into service do. -/
theorem Dev.testFinds_clean {d : Dev} (htest : d.objD 0x2104 2 1 = 3) : ∃ ckpts buddies n,
    d.testFinds ⟨[], [], [], []⟩ = ({ d with ckpts := ckpts, buddies := buddies }.setObj 0x2104 5 n).enterService :=
  ⟨_, _, _, if_neg (not_not.2 htest)⟩

section
variable {s : State} (hs : clocked s)
include hs

/-- Management firmware brings the device up to memory initialisation. -/
theorem mgmtFwRun_bringsUp (hrom : s.dev.pow.mgmt = 1) (hlc : s.dev.sec.fuses.lc < 3) (hsaved : s.dev.sec.store.saved = [])
    (hresets : s.dev.sec.store.resets = []) : ∃ t, exec (.mgmtFwRun true) s = .next t ∧ t.dev.pow.mgmt = 2
      ∧ t.dev.rowMap = s.dev.keep.rowMaps ∧ t.dev.fencesAt = s.dev.keep.fences ∧ t.dev.objD 0x2104 2 1 = 2 ∧ t.dev.objD 0x2800 2 0 = 1
      ∧ t.dev.answer = cOk ∧ t.nv.keep = s.dev.keep ∧ ∀ e, t.dev.core e = s.dev.core e := by
  have hmeasured := BringsUp.measured { s.dev.cleared with pow := { s.dev.pow with mgmt := 2 } }
  have hruns : s.dev.cleared.firmwareRuns true = { s.dev.cleared with pow := { s.dev.pow with mgmt := 2 } }.measured.bringsUp :=
    Dev.firmwareRuns_bringsUp (d := s.dev.cleared) hrom hlc true
  generalize ({ s.dev.cleared with pow := { s.dev.pow with mgmt := 2 } } : Dev).measured = m at hmeasured hruns
  obtain ⟨e, hup, hdone⟩ := Dev.bringsUp_spec (hmeasured.saved.trans hsaved) (hmeasured.resets.trans hresets)
  refine ⟨_, gives_of_onDev hs (exec_mgmtFwRun true s) (hruns.trans hdone), ?_⟩
  have hkeep : m.keep = s.dev.keep := hmeasured.keep
  rw [State.closing_pow, State.closing_rowMap, State.closing_fencesAt, State.closing_objD, State.closing_objD, State.closing_answer,
    State.closing_nv, ← hkeep]
  refine ⟨hup.mgmt.trans hmeasured.mgmt, hup.rowMap, hup.fencesAt, ?_, ?_, rfl, hup.keep.trans m.keep_rowsSet, fun c => (State.closing_core ..).trans ?_⟩
  · exact (Dev.objD_setObj ..).trans (if_pos rfl)
  · exact ((Dev.objD_setObj ..).trans (if_neg (by decide))).trans ((Dev.objD_setObj ..).trans (if_pos rfl))
  · exact congrArg (fun l => (nmGet l (ckey c)).getD clearCore) ((hup.cores.trans m.cores_rowsSet).trans hmeasured.cores)

/-- Once memory is initialised its test begins. -/
theorem memoryInitComplete_tests (hinit : s.dev.objD 0x2104 2 1 = 2) : gives .memoryInitComplete s (s.dev.cleared.setObj 0x2104 2 3) :=
  gives_of_onDev hs (exec_memoryInitComplete s) (if_neg (not_not.2 hinit))

theorem memoryTestComplete_serves (f : TestFinds) (htest : s.dev.objD 0x2104 2 1 = 3) :
    ∃ t, exec (.memoryTestComplete f) s = .next t ∧ t.dev.inService = true := by
  refine ⟨_, gives_of_onDev hs (exec_memoryTestComplete f s) (if_neg (not_not.2 htest)), ?_⟩
  rw [Dev.inService, State.closing_objD, decide_eq_true_eq]
  exact (Dev.objD_setObj ..).trans (if_pos rfl)

/-- A test that finds nothing leaves the defect map as it is. -/
theorem memoryTestComplete_clean (htest : s.dev.objD 0x2104 2 1 = 3) :
    ∃ t, exec (.memoryTestComplete ⟨[], [], [], []⟩) s = .next t ∧ t.dev.inService = true ∧ t.dev.pow.failed = 0
      ∧ t.nv.store.tried = none ∧ t.nv.keep = s.dev.keep ∧ ∀ e, t.dev.core e = s.dev.core e := by
  obtain ⟨ckpts, buddies, n, hfinds⟩ := Dev.testFinds_clean (d := s.dev.cleared) htest
  refine ⟨_, gives_of_onDev hs (exec_memoryTestComplete ..) hfinds, ?_⟩
  rw [Dev.inService, State.closing_objD, decide_eq_true_eq, State.closing_pow, State.closing_nv]
  refine ⟨(Dev.objD_setObj ..).trans (if_pos rfl), rfl, rfl, rfl, fun e => ?_⟩
  rw [State.closing_core, Dev.core_enterService]
  rfl

end

end Sys2Proof.Machine
end

section
/-! O50: staged images, fused versions, policy modules and the owner key (R529, R531 to R535). -/

namespace Sys2Proof.Machine

theorem exec_fwStage (bs : List Byte) (s : State) : exec (.fwStage bs) s = s.onDev fun d => d.stageFw 1 bs := rfl

theorem exec_coreFwStage (bs : List Byte) (s : State) : exec (.coreFwStage bs) s = s.onDev fun d => d.stageFw 2 bs := rfl

theorem exec_svnCommit (kind : Nat) (s : State) : exec (.svnCommit kind) s = s.onDev fun d => d.svnCommit kind := rfl

theorem exec_policyWrite (slot : Nat) (bs : List Byte) (s : State) :
    exec (.policyWrite slot bs) s = s.onDev fun d => d.policyWrite slot bs := rfl

theorem exec_policyModuleFault (slot : Nat) (s : State) : exec (.policyModuleFault slot) s = s.onDev fun d => d.policyFault slot := rfl

theorem exec_ownerRotate (bs : List Byte) (s : State) : exec (.ownerRotate bs) s = s.onDev fun d => d.ownerRotate bs := rfl

/-! ### Staged images (R529, R531, R532) -/

/-- A staged image is in the slot that is not in force, next and not good; the slot in force is as it was. -/
theorem FwSlots.stage_spec (f : FwSlots) (m : SignedImage) : (f.stage m).at_ (!f.inForce) = some m
    ∧ (f.stage m).at_ f.inForce = f.at_ f.inForce ∧ (f.stage m).next = !f.inForce ∧ (f.stage m).good (!f.inForce) = false
    ∧ (f.stage m).good f.inForce = f.good f.inForce ∧ (f.stage m).inForce = f.inForce := by
  obtain ⟨a, b, inForce, next, goodA, goodB⟩ := f
  cases inForce with
  | false => exact ⟨rfl, rfl, rfl, rfl, rfl, rfl⟩
  | true => exact ⟨rfl, rfl, rfl, rfl, rfl, rfl⟩

theorem Dev.stageFw_accepts {d : Dev} {kind : Nat} {bs : List Byte} (hok : d.sec.imageCheck kind (imageOf bs) = none) :
    d.stageFw kind bs = d.updStore fun t =>
      if kind = 1 then { t with mgmt := t.mgmt.stage (imageOf bs) } else { t with core := t.core.stage (imageOf bs) } := by
  simp only [Dev.stageFw, hok]

theorem Dev.stageFw_refuses {d : Dev} {kind : Nat} {bs : List Byte} {code : Code} (hbad : d.sec.imageCheck kind (imageOf bs) = some code) :
    d.stageFw kind bs = d.imageRefused code := by
  simp only [Dev.stageFw, hbad]

/-- The codes with which the checks of an image refuse it. -/
theorem Sec.imageCheck_code {c : Sec} {kind : Nat} {m : SignedImage} {code : Code} (h : c.imageCheck kind m = some code) : code < 0x10000 := by
  have hmem := firstFail_mem h
  simp only [List.map_cons, List.map_nil, List.mem_cons, List.not_mem_nil, or_false] at hmem
  rcases hmem with rfl | rfl | rfl | rfl | rfl | rfl <;> decide

/-- A refusal is counted once. -/
theorem Dev.imageRefused_counts (d : Dev) {code : Nat} (hcode : code < 0x10000) :
    (d.imageRefused code).objD 0x7000 0xA 0 = d.objD 0x7000 0xA 0 + 1 :=
  (Dev.objD_eventDev (d := d.bump 0x7000 0xA 1) (by decide) hcode 15 1 0 0).trans (Dev.objD_bump ..)

section
variable {s : State} (hs : clocked s)
include hs

theorem fwStage_stages {bs : List Byte} (hok : s.dev.sec.imageCheck 1 (imageOf bs) = none) : ∃ t, exec (.fwStage bs) s = .next t
    ∧ t.nv.store = { s.dev.sec.store with mgmt := s.dev.sec.store.mgmt.stage (imageOf bs) } ∧ t.nv.fuses = s.dev.sec.fuses
    ∧ ∀ e, t.dev.core e = s.dev.core e := by
  have haccepts := Dev.stageFw_accepts (d := s.dev.cleared) hok
  refine ⟨_, gives_of_onDev hs (exec_fwStage bs s) haccepts, ?_⟩
  rw [State.closing_nv]
  exact ⟨rfl, rfl, fun e => State.closing_core ..⟩

theorem coreFwStage_stages {bs : List Byte} (hok : s.dev.sec.imageCheck 2 (imageOf bs) = none) : ∃ t, exec (.coreFwStage bs) s = .next t
    ∧ t.nv.store = { s.dev.sec.store with core := s.dev.sec.store.core.stage (imageOf bs) } ∧ ∀ e, t.dev.core e = s.dev.core e := by
  have haccepts := Dev.stageFw_accepts (d := s.dev.cleared) hok
  refine ⟨_, gives_of_onDev hs (exec_coreFwStage bs s) haccepts, ?_⟩
  rw [State.closing_nv]
  exact ⟨rfl, fun e => State.closing_core ..⟩

/-- A refused management image is answered with its code and counted, and changes no slot. -/
theorem fwStage_refuses {bs : List Byte} {code : Code} (hbad : s.dev.sec.imageCheck 1 (imageOf bs) = some code) :
    ∃ t, exec (.fwStage bs) s = .next t ∧ t.dev.answer = code ∧ t.nv.store = s.dev.sec.store
      ∧ t.dev.objD 0x7000 0xA 0 = s.dev.objD 0x7000 0xA 0 + 1 := by
  have hrefuses := Dev.stageFw_refuses (d := s.dev.cleared) hbad
  obtain ⟨_, _, _, hframe⟩ := s.dev.cleared.imageRefused_frame code
  refine ⟨_, gives_of_onDev hs (exec_fwStage bs s) hrefuses, ?_⟩
  rw [State.closing_answer, State.closing_nv, State.closing_objD, Dev.imageRefused_counts _ (Sec.imageCheck_code hbad), hframe]
  exact ⟨rfl, rfl, rfl⟩

/-! ### Fused versions (R532) -/

/-- A commit raises the fuses of its kind to the version, never above their number. -/
theorem svnCommit_raises {kind : Nat} (hlow : 1 ≤ kind) (hhigh : kind ≤ 3) : ∃ t, exec (.svnCommit kind) s = .next t
    ∧ t.nv.fuses.svn kind = max (s.dev.sec.fuses.svn kind) (min (if kind = 3 then 32 else 64) (s.dev.sec.store.commitSvn kind))
    ∧ t.nv.fuses.lc = s.dev.sec.fuses.lc ∧ t.nv.store = s.dev.sec.store ∧ ∀ e, t.dev.core e = s.dev.core e := by
  refine ⟨_, gives_of_onDev hs (exec_svnCommit kind s) rfl, ?_⟩
  rw [State.closing_nv]
  obtain rfl | rfl | rfl : kind = 1 ∨ kind = 2 ∨ kind = 3 := by omega
  · exact ⟨rfl, rfl, rfl, fun e => State.closing_core ..⟩
  · exact ⟨rfl, rfl, rfl, fun e => State.closing_core ..⟩
  · exact ⟨rfl, rfl, rfl, fun e => State.closing_core ..⟩

end

/-! ### Policy modules (R533, R534) -/

theorem mem_insertUp (l : List Nat) (i : Nat) : i ∈ insertUp l i := List.mem_append_right _ (List.mem_cons_self ..)

/-- While no module schedules nothing passes to the default policy. -/
theorem Dev.policyGone_unscheduled {d : Dev} (hpolicy : d.objD 0x5000 3 0 = 0) (hwait : d.schedWait = 0) (fallbacks : Bool) :
    d.policyGone fallbacks = d := by
  simp [Dev.policyGone, hpolicy, hwait]

/-- Fuses and store with a module loaded in a slot. -/
def Sec.withModule (c : Sec) (slot : Nat) (m : SignedImage) : Sec :=
  { c with loaded := insertUp c.loaded slot, store := { c.store with policy := nmSet c.store.policy slot m } }

/-- Fuses and store with no module in a slot. -/
def Sec.withoutModule (c : Sec) (slot : Nat) : Sec :=
  { c with loaded := c.loaded.filter (· != slot), store := { c.store with policy := nmErase c.store.policy slot } }

section
variable {d : Dev} {slot : Nat} (hslot : slot < 8)
include hslot

theorem Dev.policyWrite_loads {bs : List Byte} (hbs : bs ≠ []) (hok : d.sec.imageCheck 3 (imageOf bs) = none) :
    d.policyWrite slot bs = (d.updSec fun c => c.withModule slot (imageOf bs)).policyGone false := by
  have hempty : bs.isEmpty = false := by simpa using hbs
  simp only [Dev.policyWrite, if_neg (Nat.not_le.2 hslot), hempty, hok, Bool.false_eq_true, if_false, Sec.withModule]

theorem Dev.policyWrite_removes (hlc : d.sec.fuses.lc = 2) :
    d.policyWrite slot [] = (d.updSec fun c => c.withoutModule slot).policyGone false := by
  simp only [Dev.policyWrite, if_neg (Nat.not_le.2 hslot), List.isEmpty_nil, if_true, hlc, ne_eq, not_true_eq_false, if_false,
    Sec.withoutModule]

end

section
variable {s : State} (hs : clocked s)
include hs

section
variable {slot : Nat} (hslot : slot < 8) (hpolicy : s.dev.objD 0x5000 3 0 = 0) (hwait : s.dev.schedWait = 0)
include hslot hpolicy hwait

theorem policyWrite_loads {bs : List Byte} (hbs : bs ≠ []) (hok : s.dev.sec.imageCheck 3 (imageOf bs) = none) :
    ∃ t, exec (.policyWrite slot bs) s = .next t ∧ nmGet t.nv.store.policy slot = some (imageOf bs) ∧ slot ∈ t.dev.sec.loaded
      ∧ (∀ k, k ≠ slot → nmGet t.nv.store.policy k = nmGet s.dev.sec.store.policy k) ∧ ∀ e, t.dev.core e = s.dev.core e := by
  have hloads := Dev.policyWrite_loads (d := s.dev.cleared) hslot hbs hok
  have hgone := Dev.policyGone_unscheduled (d := s.dev.cleared.updSec fun c => c.withModule slot (imageOf bs)) hpolicy hwait false
  refine ⟨_, gives_of_onDev hs (exec_policyWrite slot bs s) (hloads.trans hgone), ?_⟩
  rw [State.closing_nv, State.closing_sec]
  exact ⟨nmGet_nmSet_same .., mem_insertUp .., fun k hk => nmGet_nmSet_other _ _ _ _ hk, fun e => State.closing_core ..⟩

theorem policyWrite_removes (hlc : s.dev.sec.fuses.lc = 2) :
    ∃ t, exec (.policyWrite slot []) s = .next t ∧ nmGet t.nv.store.policy slot = none ∧ slot ∉ t.dev.sec.loaded := by
  have hremoves := Dev.policyWrite_removes (d := s.dev.cleared) hslot hlc
  have hgone := Dev.policyGone_unscheduled (d := s.dev.cleared.updSec fun c => c.withoutModule slot) hpolicy hwait false
  refine ⟨_, gives_of_onDev hs (exec_policyWrite slot [] s) (hremoves.trans hgone), ?_⟩
  rw [State.closing_nv, State.closing_sec]
  refine ⟨(nmGet_nmErase ..).trans (if_pos rfl), fun hmem => ?_⟩
  have hother := (List.mem_filter.1 hmem).2
  simp at hother

end

theorem policyModuleFault_unloads {slot : Nat} (hloaded : s.dev.sec.loaded.contains slot = true) : gives (.policyModuleFault slot) s
    (((s.dev.cleared.updSec fun s => { s with loaded := s.loaded.filter (· != slot) }).eventDev cStateInvalid 15 0 0 0).policyGone true) := by
  have hheld : ¬ (!s.dev.cleared.sec.loaded.contains slot) = true := by
    rw [show s.dev.cleared.sec.loaded.contains slot = true from hloaded]
    decide
  exact gives_of_onDev hs (exec_policyModuleFault slot s) (if_neg hheld)

end

/-! ### The owner root key (R535) -/

/-- A signed rotation replaces the key; the saved set stays, signed anew where it was the old key's. -/
theorem Dev.ownerRotate_spec {d : Dev} {bs : List Byte} (hlen : bs.length = 7219) (hlc : d.sec.fuses.lc = 2)
    (hsig : Config.sigOk d.sec.store.ownerRoot (Config.sha3 (bs.take 2592)) (bs.drop 2592) = true) :
    ∃ key, d.ownerRotate bs = d.updStore fun t => { t with ownerRoot := bs.take 2592, savedKey := key } := by
  have hsigned : ¬ (!Config.sigOk d.sec.store.ownerRoot (Config.sha3 (bs.take 2592)) (bs.drop 2592)) = true := by rw [hsig]; decide
  unfold Dev.ownerRotate
  dsimp only
  rw [if_neg (not_not.2 hlen), if_neg (not_not.2 hlc), if_neg hsigned]
  split
  · exact ⟨_, rfl⟩
  · exact ⟨d.sec.store.savedKey, rfl⟩

theorem ownerRotate_replaces {s : State} (hs : clocked s) {bs : List Byte} (hlen : bs.length = 7219) (hlc : s.dev.sec.fuses.lc = 2)
    (hsig : Config.sigOk s.dev.sec.store.ownerRoot (Config.sha3 (bs.take 2592)) (bs.drop 2592) = true) :
    ∃ t, exec (.ownerRotate bs) s = .next t ∧ t.nv.store.ownerRoot = bs.take 2592 ∧ t.nv.fuses = s.dev.sec.fuses
      ∧ t.nv.store.saved = s.dev.sec.store.saved ∧ ∀ e, t.dev.core e = s.dev.core e := by
  obtain ⟨_, hrotates⟩ := Dev.ownerRotate_spec (d := s.dev.cleared) hlen hlc hsig
  refine ⟨_, gives_of_onDev hs (exec_ownerRotate bs s) hrotates, ?_⟩
  rw [State.closing_nv]
  exact ⟨rfl, rfl, rfl, fun e => State.closing_core ..⟩

/-- Settles O50, one named lemma for each command. -/
theorem bootAndImages : Obligations.BootAndImages := by
  unfold Obligations.BootAndImages
  refine ⟨fun s hs => ⟨fun hreset hrail hlc m hm => ⟨mgmtResetRelease_starts hs hreset hrail hlc hm,
      fun code => mgmtResetRelease_refuses hs hreset hrail hlc hm⟩, fun hrom hlc mapOk d hd => ?_, mgmtFwRun_bringsUp hs,
      memoryInitComplete_tests hs, memoryTestComplete_clean hs, memoryTestComplete_serves hs⟩,
    fun s hs => ⟨fun bs => fwStage_stages hs, fun bs => coreFwStage_stages hs, fun bs code => fwStage_refuses hs, FwSlots.stage_spec,
      fun kind => svnCommit_raises hs, fun slot bs hslot hbs hok hpolicy hwait => policyWrite_loads hs hslot hpolicy hwait hbs hok,
      fun slot hslot hlc hpolicy hwait => policyWrite_removes hs hslot hpolicy hwait hlc, fun slot => policyModuleFault_unloads hs,
      fun bs => ownerRotate_replaces hs⟩⟩
  subst hd
  exact gives_of_onDev hs (exec_mgmtFwRun mapOk s) (Dev.firmwareRuns_bringsUp (d := s.dev.cleared) hrom hlc mapOk)

end Sys2Proof.Machine
end
